-- ==== Sys2Proof/Word.lean ====
section
/-! DEFINITION. The word types of the Kalob module. Bit vectors stand for what the manual treats as bits. -/

namespace Sys2Proof

/-- One byte of memory or of a packet. -/
abbrev Byte := BitVec 8
/-- A thread register, 32 bits (R33). -/
abbrev Word := BitVec 32
/-- A uniform register, counter, address or 64-bit register (R53, R196). -/
abbrev Dword := BitVec 64
/-- Core ID: die[9:8], row[7:4], column[3:0] (R14). -/
abbrev CoreId := BitVec 10
/-- Skein slot of a core, 0 to 63 (R32). -/
abbrev SlotId := BitVec 6
/-- A mask of the 32 lanes of a skein. -/
abbrev Mask := BitVec 32

end Sys2Proof
end

