-- ==== Sys2Proof/Syntax.lean ====
section
/-! DEFINITION. The commands of the block: one constructor of `Instr` per row of spec/opcode_table.json, with the operand
types they carry. A register access carries the agent that makes it; an Ocnali row carries the issued instruction word. -/

namespace Sys2Proof

/-! ## Ocnali instruction words (R81, R89, R93, R106, R114) -/

/-- C-slot fields, bits [255:224] (R89). -/
structure CSlot where
  cop : BitVec 5 := 0
  gneg : BitVec 1 := 0
  gpred : BitVec 3 := 7
  stall : BitVec 4 := 0
  yld : BitVec 1 := 0
  cimm : BitVec 18 := 0
  deriving DecidableEq, Repr

/-- T-slot fields, bits [223:136] (R93). -/
structure TSlot where
  top : BitVec 8 := 0
  tfmt : BitVec 3 := 0
  td : BitVec 8 := 0
  ta : BitVec 8 := 0
  tb : BitVec 8 := 0
  tc : BitVec 8 := 0
  tpd : BitVec 3 := 0
  tsrc : BitVec 2 := 0
  timm : BitVec 32 := 0
  tmod : BitVec 8 := 0
  deriving DecidableEq, Repr

/-- M-slot fields, bits [135:72] (R106). -/
structure MSlot where
  mop : BitVec 6 := 0
  msz : BitVec 3 := 0
  md : BitVec 8 := 0
  ma : BitVec 8 := 0
  mu : BitVec 6 := 0
  msp : BitVec 2 := 0
  mhint : BitVec 2 := 0
  msub : BitVec 3 := 0
  mnob : BitVec 1 := 0
  moff : BitVec 25 := 0
  deriving DecidableEq, Repr

/-- H-slot fields, bits [71:0] (R114). -/
structure HSlot where
  hop : BitVec 4 := 0
  hoop : BitVec 2 := 0
  sub : BitVec 2 := 0
  hfmt : BitVec 3 := 0
  bank : BitVec 1 := 0
  plane : BitVec 1 := 0
  acc : BitVec 1 := 0
  rows : BitVec 5 := 0
  hu : BitVec 6 := 0
  hnou : BitVec 1 := 0
  hoff : BitVec 18 := 0
  hstride : BitVec 12 := 0
  haux : BitVec 16 := 0
  deriving DecidableEq, Repr

/-- One 256-bit instruction word as its four slots (R81). -/
structure IWord where
  c : CSlot := {}
  t : TSlot := {}
  m : MSlot := {}
  h : HSlot := {}
  deriving DecidableEq, Repr

/-- An issue: the group of skein `slot` of `core` whose program counter is `pc` issues `word` (R45, R47). The row of the
command fixes the opcode of its own slot. -/
structure Issue where
  core : CoreId
  slot : SlotId
  pc : Dword
  word : IWord
  deriving DecidableEq, Repr

/-- A register name of one of the three files (R47, R86). -/
inductive RegName where
  | x (n : BitVec 8)
  | u (n : BitVec 6)
  | p (n : BitVec 3)
  deriving DecidableEq, Repr

/-! ## Register accesses (R5, R8, R362) -/

/-- Who makes a register access. A VF is named by its number, 1 to 16 (R360). -/
inductive Agent where
  | pf0
  | vf (n : Nat)
  | firmware
  deriving DecidableEq, Repr

/-- The part of a 64-bit register an access covers: all 64 bits, or one 32-bit half (R8, R362). -/
inductive Part where
  | full
  | low
  | high
  deriving DecidableEq, Repr

/-- A write of one register: the agent, the part written, and the 64 bits as the register sees them (of a half, the other
half is not looked at). -/
structure RegOp where
  agent : Agent
  part : Part
  value : Dword
  deriving DecidableEq, Repr

/-- A transport-layer packet of the host: whether it is poisoned (EP), whether it failed its IDE check, and the IDE stream that it
came in (0 the link stream, 1 to 4 the selective ones), if any (R380, R384). -/
structure Tlp where
  poisoned : Bool := false
  ideFail : Bool := false
  stream : Option Nat := none
  deriving DecidableEq, Repr

/-- An access at an address: through PF0's or a VF's BAR0 the offset in that BAR, for firmware the local address.
`size` in bytes: anything but 4 or 8 breaks R8. `read` makes it the host's read of the register, which has no row of its own (log
entry 52); `tlp` is the packet that carried it, which firmware's accesses have not. -/
structure AddrWrite where
  agent : Agent
  addr : Nat
  size : Nat
  value : Dword
  read : Bool := false
  tlp : Tlp := {}
  deriving DecidableEq, Repr

/-- A feature that configuration space may show as a capability (R359). -/
inductive Capability where
  | flitMode | l0p | aspmL0s | aspmL1 | l1Substates | tenBitTags | sriov | ari | msix | aer | flr | resizableBar | vfResizableBar
  | ide | doe | ats | pri | pasid | tdisp | tph | atomicOps | ptm | cxl
  deriving DecidableEq, Repr

/-- A register of configuration space, named by what it holds (R359, R363, R384): payload and read request limits in bytes,
completion timeout range (0 the default, 1 to 4 ranges A to D), aperture sizes in GiB, power state (0 D0, 3 D3hot), No_Soft_Reset,
outstanding reads, the link's width and generation, VFs and MSI-X vectors, and the advisory errors of AER. -/
inductive ConfigReg where
  | maxPayload | maxRead | timeoutRange | bar2Size | vfBar2Size | powerState | noSoftReset | tags | linkWidth | linkGen | vfs
  | vectors | aerUr | aerCa
  deriving DecidableEq, Repr

/-- A configuration request: whether a capability is present, or a register read or written. -/
inductive ConfigOp where
  | present (c : Capability)
  | read (r : ConfigReg)
  | write (r : ConfigReg) (v : Nat)
  deriving DecidableEq, Repr

/-- What a host read made by the module returned (R378 code 0x008, R384). -/
inductive HostRead where
  | ok (bytes : List Byte)
  | failed
  deriving DecidableEq, Repr

/-- Who writes a launch (R37). A skein is named by its core and slot. -/
inductive LaunchWriter where
  | pf0
  | firmware
  | skein (core : CoreId) (slot : SlotId)
  deriving DecidableEq, Repr

/-! ## The Model Image (R21, R287, R288) -/

/-- One vocabulary entry: its byte string and the CONTROL flag (R287). -/
structure VocabEntry where
  bytes : List Byte
  control : Bool
  deriving DecidableEq, Repr

/-- One merge: left and right token, the token it gives and its rank (R288). -/
structure Merge where
  left : Nat
  right : Nat
  result : Nat
  rank : Nat
  deriving DecidableEq, Repr

/-- One row of the launch table: for this list kind the engine launches this descriptor on this core (R304). -/
structure LaunchRow where
  part : Nat
  lkind : Nat
  core : CoreId
  desc : Dword
  deriving DecidableEq, Repr

/-- An ECDSA P-521 signature and the public key that it is to verify under (R395, R411). -/
structure EcSig where
  x : Nat
  y : Nat
  r : Nat
  s : Nat
  deriving DecidableEq, Repr

/-- The contents of a Model Image that the module acts on (R21). Its layout in bytes is the builder's. -/
structure ModelImage where
  id : BitVec 32
  /-- The digest that it carries, its signature, and the contents that the module reads and hashes (R21, R374, R411). -/
  digest : BitVec 512
  sig : Option EcSig := none
  bytes : List Byte := []
  pageT : Nat
  vocab : List VocabEntry
  split : List (Option Nat)
  unicode : Nat
  byteTable : List Nat
  merges : List Merge
  codebooks : List (BitVec 16)
  expBase : BitVec 15
  launches : List LaunchRow
  /-- Weights and tables, each byte with the local address that it takes (R22, R23). -/
  weights : List (Nat × Byte)
  /-- The shared read-only mapping: 2 MiB pages, virtual address and local address (R22). -/
  maps : List (Nat × Nat) := []
  deriving DecidableEq, Repr

/-! ## Operands of the other families -/

/-- Outcome of the reads a strand controller makes after a CRC failure (R234): the re-read that succeeded; none, so that it asks for a
recalibration; and what the read after that one gave. -/
inductive CrcOutcome where
  | reread (n : Nat)
  | recalibrate
  | afterRecalibration
  | uncorrectable
  deriving DecidableEq, Repr

/-- What a patrol scrub read finds (R238). -/
inductive ScrubFind where
  | clean
  | corrected (newerWrite : Bool)
  | uncorrectable
  deriving DecidableEq, Repr

/-- Why a strand is held for recalibration (R496). -/
inductive RecalCause where
  | crc
  | temperature
  | ended
  deriving DecidableEq, Repr

/-- A live thing that has a status word: a sequence, or a command of a function (R376). -/
inductive Live where
  | request (seq : Nat)
  | command (fn : Nat) (tag : Word)
  deriving DecidableEq, Repr

/-- Role of a Thimble requester (R395). -/
inductive Role where
  | factory
  | owner
  | operator
  | tenant (part : Nat)
  deriving DecidableEq, Repr

/-- Common part of a Thimble request (R397): the session it comes in, its REQ_ID, whether its reserved bytes are zero. `reservedOp` is
its OPCODE byte where that is a reserved one, 0x00 or 0x13 up, which has no row of its own: nothing else of the request is then looked at
(R398). -/
structure ThimbleReq where
  session : Nat
  reqId : Word
  reservedZero : Bool := true
  reservedOp : Option Byte := none
  deriving DecidableEq, Repr

/-- Owner policy (R401): the word, its image-signing keys (SHA-512 of each). -/
structure PolicyParams where
  word : Word
  keys : List (BitVec 512)
  deriving DecidableEq, Repr

/-- An SPDM message as it arrives (R413): the protocol version of its header, whether its other fields are valid. -/
structure SpdmMsg where
  version : Byte := 0x13
  valid : Bool := true
  deriving DecidableEq, Repr

/-- A packet of the links (R427). -/
structure Packet where
  kind : BitVec 4
  vc : BitVec 3
  dir : BitVec 1
  msk : BitVec 1
  rsv118 : BitVec 1 := 0
  dst : BitVec 17
  src : BitVec 17
  part : BitVec 4
  gaddr : BitVec 41
  core : BitVec 10
  cnt : BitVec 8
  cen : BitVec 1
  rsv19 : BitVec 1 := 0
  etag : BitVec 19
  /-- the units after the header, in bytes -/
  body : List Byte := []
  deriving DecidableEq, Repr

/-- A block of a port (R422): the fields of its first 8 bytes, PAYLOAD from its first byte on (the bytes that it does not give are 0),
the reserved bytes and the CRC. -/
structure Block where
  bkind : BitVec 4
  seq : BitVec 12
  ack : BitVec 12
  ackv : Bool
  nak : Bool
  cvc : BitVec 3
  credits : BitVec 11
  rsv : BitVec 20 := 0
  payload : List Byte := []
  tail : Word := 0
  crc : Word := 0
  deriving DecidableEq, Repr

/-- A barrier's payload (R428 kind 0x5). -/
structure BarrierMsg where
  step : Word
  part : Nat
  go : Bool
  deriving DecidableEq, Repr

/-- What a member's FORM shows the anchor: the anchor's time at which it came, the member's table, shape and image ID (R438). -/
structure MemberForm where
  at_ : Dword
  table : List Nat
  shape : List Nat
  image : Option (BitVec 32)
  deriving DecidableEq, Repr

/-- How the load of another member of the group stands: under way, staged and in PHASE 3 with an image ID, or failed (R439). -/
inductive MemberLoad where
  | busy
  | staged (id : BitVec 32)
  | failed
  deriving DecidableEq, Repr

/-- Whose LEAVE it is: this module's own write, or that of another member, by module ID (R438). -/
inductive Leaver where
  | here (op : RegOp)
  | member (id : Nat)
  deriving DecidableEq, Repr

/-- Shape fields of an IDENT block (R426, R447). -/
structure IdentMsg where
  module : BitVec 17
  port : Nat
  shape : List Nat
  deriving DecidableEq, Repr

/-- A sample of the power and thermal sensors (R487, R491). Voltages in mV, powers in W, held times in µs. -/
structure PowerSample where
  t : Dword
  mv : Nat
  heldUs : Nat
  power1ms : Nat
  power10ms : Nat
  ptn1ms : List Nat
  ptn10ms : List Nat
  deriving DecidableEq, Repr

/-- A firmware image as its check finds it: SVN, whether the factory's signature verifies under a key that the Denfold root certifies, the
owner's countersignature, and the digest (R409). -/
structure FwCheck where
  svn : Nat
  factoryOk : Bool
  owner : Option EcSig := none
  digest : BitVec 512
  deriving DecidableEq, Repr

/-- One PLDM firmware-update command (R564). -/
inductive FwUpdate where
  | requestUpdate
  | passComponent (target : Nat)
  | transferData (target : Nat) (bytes : Nat)
  | verify (target : Nat) (image : FwCheck)
  | applyComponent (target : Nat)
  | activate (selfContained : Bool)
  | cancelUpdate
  | unsupported
  deriving DecidableEq, Repr

/-- A management-bus frame fault the controller may see in place of a good message (R565). -/
inductive BusFault where
  | none
  | frame
  | badMctp
  | badType
  | reservedField
  | overLimit
  deriving DecidableEq, Repr

/-- An IDE_KM message (R380, R359): stream 0 is the link stream, 1 to 4 the selective ones. -/
inductive IdeMsg where
  | keyProg (stream : Nat) (key : BitVec 256)
  | setGo (stream : Nat)
  | setStop (stream : Nat)
  deriving DecidableEq, Repr

/-- Time stamps of one TIME exchange (R426, R442). -/
structure TimeStamps where
  t1 : Dword
  t2 : Dword
  t3 : Dword
  t4 : Dword
  deriving DecidableEq, Repr


/-! ## The commands -/

/-- A configuration request to a function (R359, R557). -/
structure ConfigAsk where
  fn : Nat
  op : ConfigOp
  deriving DecidableEq, Repr

/-- A control block that a port receives. -/
structure PortBlock where
  port : Nat
  block : Block
  deriving DecidableEq, Repr

/-- What of a load has been staged: this module's image, or a failed host read (none); or how the loads of the members of the group
stand, by local ID (R23, R439). -/
inductive Staging where
  | here (image : Option ModelImage)
  | members (loads : List MemberLoad)
  deriving DecidableEq, Repr

/-- The commands: one constructor per row of spec/opcode_table.json. -/
inductive Instr where
  /-- REGISTER_WRITE (R5). A write to a register field that has no row of its own takes effect according to its access code. -/
  | registerWrite (w : AddrWrite)
  /-- MSIX_HOLDOFF_EXPIRY (R379). At the end of a vector's 10 µs interval, one merged message is sent for the events that fell within it. -/
  | msixHoldoffExpiry (fn vector : Nat) (t : Dword)
  /-- LOAD_IMAGE (R374). The LOAD_IMAGE command is checked, and on acceptance the module starts staging a Model Image and holds newly pushed requests. -/
  | loadImage (fn : Nat)
  /-- IMAGE_STAGING_COMPLETE (R23). The last byte of the image is staged; the digest and signature are checked, and the module either fails the load or starts the drain. -/
  | imageStagingComplete (staged : Staging)
  /-- IMAGE_DRAIN_COMPLETE (R23). The last live sequence ends, and the module places the new image and switches the shared mapping. -/
  | imageDrainComplete
  /-- IMAGE_DRAIN_LIMIT_EXPIRY (R25). The drain limit expires, and the remaining live sequences are cancelled with the truncated flag set. -/
  | imageDrainLimitExpiry (t : Dword)
  /-- IMAGE_SWITCH_COMPLETE (R23). The new image becomes active: PHASE returns to 2, held requests start, and LOAD_IMAGE ends. -/
  | imageSwitchComplete
  /-- CORE_LAUNCH (R37). A 64-bit store of a descriptor address to CORE_LAUNCH queues a launch, or waits or is dropped while the queue is full. -/
  | coreLaunch (core : CoreId) (by_ : LaunchWriter) (desc : Dword)
  /-- LAUNCH_DESCRIPTOR_READ (R39). The launch at the head of the queue has its descriptor and UINIT block read once and checked. -/
  | launchDescriptorRead (core : CoreId)
  /-- BUNDLE_ADMISSION (R39). Once enough slots, units and knots are free, the head launch is admitted and its skeins enter STATE 1. -/
  | bundleAdmission (core : CoreId)
  /-- BUNDLE_LOADING_COMPLETE (R41). The registers of every thread are set, and every skein of the bundle enters STATE 2 in one cycle. -/
  | bundleLoadingComplete (core : CoreId) (bundle : BitVec 6)
  /-- SKEIN_STORES_DRAINED (R42). An ending skein's stores have drained, and its slot and register units are freed. -/
  | skeinStoresDrained (core : CoreId) (slot : SlotId)
  /-- BUNDLE_END (R43). After all of a bundle's stores have drained, the end word is written, the knots are freed and the completion counter is raised. -/
  | bundleEnd (core : CoreId) (bundle : BitVec 6)
  /-- YIELD_BACKOFF_END (R50). A group leaves yield back-off after 16 issue opportunities of its skein. -/
  | yieldBackoffEnd (core : CoreId) (slot : SlotId)
  /-- STALL_HINT_END (R50). A group held by a stall hint of n becomes runnable again after n core cycles. -/
  | stallHintEnd (core : CoreId) (slot : SlotId)
  /-- KNOT_WATCHDOG_EXPIRY (R61). A knot phase stays incomplete for WDOG_US, and cause 0x0B is raised in every skein that has a thread waiting on it. -/
  | knotWatchdogExpiry (core : CoreId) (knot : BitVec 4) (t : Dword)
  /-- SKEIN_ABORT_STOP (R64). Another skein of an aborted bundle reaches its next issue boundary and enters STATE 4. -/
  | skeinAbortStop (core : CoreId) (slot : SlotId)
  /-- CORE_BUNDLE_RELEASE (R72). A write naming an aborted, held bundle frees its slots and units. -/
  | coreBundleRelease (core : CoreId) (op : RegOp)
  /-- SKN_HALT (R79). A HALT write moves a running skein to STATE 5 at its next issue boundary, when the debug policy permits it. -/
  | sknHalt (core : CoreId) (slot : SlotId) (op : RegOp)
  /-- SKN_RESUME (R79). A RESUME write returns a skein in STATE 5 to STATE 2. -/
  | sknResume (core : CoreId) (slot : SlotId) (op : RegOp)
  /-- CORE_RESET (R284). Firmware resets a core: its skeins stop, unstarted operations and launches are discarded, and the 2 µs drain starts. -/
  | coreReset (core : CoreId)
  /-- CORE_RESET_DRAIN_EXPIRY (R284). 2 µs after a core reset, the remaining store-buffer entries are discarded and a contained record is written. -/
  | coreResetDrainExpiry (core : CoreId) (t : Dword)
  /-- INSTRUCTION_FETCH (R88). An instruction is fetched through the partition's translation; a failed fetch raises cause 0x03, 0x04 or 0x09. -/
  | instructionFetch (core : CoreId) (slot : SlotId) (pc : Dword)
  /-- RESULT_WRITEBACK (R120). An instruction's result is written to its register after its latency, and the pending mark is cleared. -/
  | resultWriteback (core : CoreId) (slot : SlotId) (reg : RegName)
  /-- NOP (R90). The control operation does nothing; the guard still applies to the other slots. -/
  | nop (i : Issue)
  /-- BRA (R90). Threads with a true guard branch by a signed word offset. -/
  | bra (i : Issue)
  /-- BRX (R90). Threads with a true guard branch by an offset held in a register. -/
  | brx (i : Issue)
  /-- BRU (R90). Threads with a true guard branch to the address held in a uniform register. -/
  | bru (i : Issue)
  /-- CALL (R90). The return address is saved in a register pair, and the thread branches. -/
  | call (i : Issue)
  /-- RET (R90). The thread branches to the address held in a register pair. -/
  | ret (i : Issue)
  /-- EXIT (R90). The thread exits and counts as arrived at every knot of its bundle. -/
  | exit (i : Issue)
  /-- KNOT_WAIT (R57). The thread arrives at a knot and waits until the phase completes. -/
  | knotWait (i : Issue)
  /-- KNOT_ARRIVE (R57). The thread arrives at a knot and continues. -/
  | knotArrive (i : Issue)
  /-- TRAP (R90). The instruction raises cause 0x0E. -/
  | trap (i : Issue)
  /-- BRK (R91). A breakpoint halts the skein in STATE 5, or raises cause 0x0F when the debug policy forbids halts. -/
  | brk (i : Issue)
  /-- ADD (R97). Integer add, wrapping or saturating. -/
  | add (i : Issue)
  /-- SUB (R97). Integer subtract. -/
  | sub (i : Issue)
  /-- MUL (R97). Low 32 bits of an integer product. -/
  | mul (i : Issue)
  /-- MULHI (R97). High 32 bits of an integer product. -/
  | mulhi (i : Issue)
  /-- MAD (R97). Integer multiply-add, low 32 bits. -/
  | mad (i : Issue)
  /-- MIN (R97). Integer minimum. -/
  | min (i : Issue)
  /-- MAX (R97). Integer maximum. -/
  | max (i : Issue)
  /-- ABS (R97). Signed absolute value. -/
  | abs (i : Issue)
  /-- AND (R97). Bitwise AND. -/
  | and (i : Issue)
  /-- OR (R97). Bitwise OR. -/
  | or (i : Issue)
  /-- XOR (R97). Bitwise XOR. -/
  | xor (i : Issue)
  /-- NOT (R97). Bitwise NOT. -/
  | not (i : Issue)
  /-- SHL (R97). Shift left. -/
  | shl (i : Issue)
  /-- SHR (R97). Shift right, logical or arithmetic. -/
  | shr (i : Issue)
  /-- POPC (R97). Count of 1 bits. -/
  | popc (i : Issue)
  /-- CLZ (R97). Count of leading zero bits. -/
  | clz (i : Issue)
  /-- BREV (R97). Bit order reversed. -/
  | brev (i : Issue)
  /-- SEL (R97). Selects one of two values by a predicate. -/
  | sel (i : Issue)
  /-- MOV (R97). Moves source b to the destination. -/
  | mov (i : Issue)
  /-- BFE (R97). Bit-field extract. -/
  | bfe (i : Issue)
  /-- FADD (R98). Float add. -/
  | fadd (i : Issue)
  /-- FSUB (R98). Float subtract. -/
  | fsub (i : Issue)
  /-- FMUL (R98). Float multiply. -/
  | fmul (i : Issue)
  /-- FFMA (R98). Fused float multiply-add with one rounding. -/
  | ffma (i : Issue)
  /-- FMIN (R98). Float minimumNumber. -/
  | fmin (i : Issue)
  /-- FMAX (R98). Float maximumNumber. -/
  | fmax (i : Issue)
  /-- FABS (R98). Float absolute value. -/
  | fabs (i : Issue)
  /-- FNEG (R98). Float negation. -/
  | fneg (i : Issue)
  /-- FRCP (R98). Float reciprocal. -/
  | frcp (i : Issue)
  /-- FRSQ (R98). Float reciprocal square root. -/
  | frsq (i : Issue)
  /-- FSQRT (R98). Float square root. -/
  | fsqrt (i : Issue)
  /-- FEXP2 (R98). Float base-2 exponential. -/
  | fexp2 (i : Issue)
  /-- FLOG2 (R98). Float base-2 logarithm. -/
  | flog2 (i : Issue)
  /-- FSIN (R98). Float sine. -/
  | fsin (i : Issue)
  /-- FCOS (R98). Float cosine. -/
  | fcos (i : Issue)
  /-- FTANH (R98). Float hyperbolic tangent. -/
  | ftanh (i : Issue)
  /-- CVT (R140). Converts between FP32, BF16, FP16, S32 and U32. -/
  | cvt (i : Issue)
  /-- QMAX (R127). Finds the E8M0 block exponent over the group's active lanes and counts non-finite blocks. -/
  | qmax (i : Issue)
  /-- QCVT (R130). Converts one element per lane to a scaled 8-bit or K4 format at the block exponent. -/
  | qcvt (i : Issue)
  /-- QDEC (R139). Decodes a scaled element to FP32. -/
  | qdec (i : Issue)
  /-- CMPI (R102). Integer comparison into a predicate, optionally merged with another predicate. -/
  | cmpi (i : Issue)
  /-- CMPF (R102). Float comparison into a predicate, optionally merged with another predicate. -/
  | cmpf (i : Issue)
  /-- PMIX (R102). Logical mix of two predicates. -/
  | pmix (i : Issue)
  /-- PPACK (R102). Packs the predicates into a register. -/
  | ppack (i : Issue)
  /-- PUNPACK (R102). Unpacks a register into predicates p0 to p6. -/
  | punpack (i : Issue)
  /-- LANEX (R103). Exchanges values between lanes of the group. -/
  | lanex (i : Issue)
  /-- POLL (R103). Any, all or mask vote of a predicate over the active lanes. -/
  | poll (i : Issue)
  /-- REDG (R103). Sum, maximum or minimum reduction over the active lanes. -/
  | redg (i : Issue)
  /-- ARGMAXG (R103). Gives the lane holding the greatest value. -/
  | argmaxg (i : Issue)
  /-- SCANG (R103). Inclusive prefix sum over the active lanes. -/
  | scang (i : Issue)
  /-- RNG (R134). Draws the next 32-bit value of the thread's xoshiro128** generator. -/
  | rng (i : Issue)
  /-- RNGSEED (R135). Seeds the thread's generator and discards 8 draws. -/
  | rngseed (i : Issue)
  /-- GUMBEL (R138). Draws a Gumbel variate in FP32 from the generator. -/
  | gumbel (i : Issue)
  /-- UADD (R104). Uniform 64-bit add. -/
  | uadd (i : Issue)
  /-- USUB (R104). Uniform subtract. -/
  | usub (i : Issue)
  /-- UMUL (R104). Uniform multiply, low 64 bits. -/
  | umul (i : Issue)
  /-- USHL (R104). Uniform shift left. -/
  | ushl (i : Issue)
  /-- USHR (R104). Uniform logical shift right. -/
  | ushr (i : Issue)
  /-- UAND (R104). Uniform AND. -/
  | uand (i : Issue)
  /-- UOR (R104). Uniform OR. -/
  | uor (i : Issue)
  /-- UXOR (R104). Uniform XOR. -/
  | uxor (i : Issue)
  /-- UMOV (R104). Uniform move. -/
  | umov (i : Issue)
  /-- RDSR (R105). Reads a special value such as lane, core ID, global time or the island cycle counter. -/
  | rdsr (i : Issue)
  /-- LD (R109). Loads memory or scratch at each thread's effective address. -/
  | ld (i : Issue)
  /-- LOAD_DATA_RETURN (R121). The data of a load or returning atomic arrives and is written to its registers. -/
  | loadDataReturn (core : CoreId) (slot : SlotId) (reg : RegName)
  /-- ST (R109). Stores a register to memory or scratch, through the store buffer where it applies. -/
  | st (i : Issue)
  /-- LDU (R109). Loads a uniform register once for the group. -/
  | ldu (i : Issue)
  /-- ATOM_ADD (R110). Atomic integer add at the line's home. -/
  | atomAdd (i : Issue)
  /-- ATOM_MIN (R110). Atomic integer minimum. -/
  | atomMin (i : Issue)
  /-- ATOM_MAX (R110). Atomic integer maximum. -/
  | atomMax (i : Issue)
  /-- ATOM_AND (R110). Atomic AND. -/
  | atomAnd (i : Issue)
  /-- ATOM_OR (R110). Atomic OR. -/
  | atomOr (i : Issue)
  /-- ATOM_XOR (R110). Atomic XOR. -/
  | atomXor (i : Issue)
  /-- ATOM_EXCH (R110). Atomic exchange. -/
  | atomExch (i : Issue)
  /-- ATOM_CAS (R110). Atomic compare and swap that always returns the old value. -/
  | atomCas (i : Issue)
  /-- ATOM_FADD (R110). Atomic float add. -/
  | atomFadd (i : Issue)
  /-- ATOM_FMIN (R110). Atomic float minimumNumber. -/
  | atomFmin (i : Issue)
  /-- ATOM_FMAX (R110). Atomic float maximumNumber. -/
  | atomFmax (i : Issue)
  /-- SHTL (R191). Reads a shuttle descriptor, checks it and queues it on an engine queue, or raises a fault cause. -/
  | shtl (i : Issue)
  /-- SWAIT (R197). Active threads wait until a stitch counter meets its target by GE or DIFF. -/
  | swait (i : Issue)
  /-- SWAIT_SATISFIED (R197). A counter addition satisfies a wait, and the waiting threads become runnable within 4 cycles. -/
  | swaitSatisfied (core : CoreId) (slot : SlotId)
  /-- SCADD (R109). Adds a uniform value to a local stitch counter once for the group. -/
  | scadd (i : Issue)
  /-- FENCE (R264). Holds the skein's later M-slot operations until the fence's scope is met. -/
  | fence (i : Issue)
  /-- FENCE_COMPLETE (R264). The conditions of the fence's scope hold, and later M-slot operations may start. -/
  | fenceComplete (core : CoreId) (slot : SlotId)
  /-- PREF (R229). Prefetches a line into L1D or L2, or drops the prefetch. -/
  | pref (i : Issue)
  /-- INVAL (R230). Invalidates all of L1I, all of L1D, or the partition's L2 lines. -/
  | inval (i : Issue)
  /-- INVAL_L2_COMPLETE (R230). The partition's dirty lines are written back and invalidated, and the issuing group is released. -/
  | invalL2Complete (core : CoreId) (slot : SlotId)
  /-- HWLD (R115). Queues a load of a weight plane from scratch, copying the codebook slot for K4. -/
  | hwld (i : Issue)
  /-- HPASS_G (R155). Queues one pass along the grain, W·x into a bank. -/
  | hpassG (i : Issue)
  /-- HPASS_X (R155). Queues one pass across the grain, Wᵀ·x into a bank. -/
  | hpassX (i : Issue)
  /-- HDRAIN (R171). Queues a drain of a bank to scratch. -/
  | hdrain (i : Issue)
  /-- HZERO (R170). Clears a bank at issue. -/
  | hzero (i : Issue)
  /-- HSPLIT (R175). Splits the hoop into four sub-hoops or joins them, resetting planes and banks. -/
  | hsplit (i : Issue)
  /-- HPATCH (R147). Queues a load of a plane's patch record. -/
  | hpatch (i : Issue)
  /-- HOOP_FEEDER_FILL (R167). The feeder reads the activation rows of a decoded HPASS into a free tile buffer. -/
  | hoopFeederFill (core : CoreId) (slot : SlotId) (pc : Dword)
  /-- HOOP_OP_START (R165). A queued hoop operation starts once its port and ordering conditions allow. -/
  | hoopOpStart (core : CoreId) (hoop sub : BitVec 2) (index : Nat)
  /-- HWLD_COMPLETE (R162). The plane's last row is written, and the plane counts as loaded. -/
  | hwldComplete (core : CoreId) (hoop sub : BitVec 2) (parityFault : Bool)
  /-- HPATCH_COMPLETE (R162). The plane's exponents and patch entries are loaded. -/
  | hpatchComplete (core : CoreId) (hoop sub : BitVec 2) (parityFault : Bool)
  /-- HPASS_COMPLETE (R161). A pass makes its last bank write. -/
  | hpassComplete (core : CoreId) (hoop sub : BitVec 2) (parityFault : BitVec 2)
  /-- HDRAIN_COMPLETE (R117). A drain writes its last byte and, when enabled, raises its counter by the bytes written. -/
  | hdrainComplete (core : CoreId) (hoop sub : BitVec 2)
  /-- HOOP_EXP_BASE_WRITE (R181). Sets the exponent shadow base, or refuses a value above 0x5D00. -/
  | hoopExpBaseWrite (core : CoreId) (op : RegOp)
  /-- SHUTTLE_DESCRIPTOR_START (R193). A queued descriptor starts once the earlier one of its queue has issued its last request and earlier stores are visible. -/
  | shuttleDescriptorStart (core : CoreId) (engine : BitVec 1) (queue : BitVec 2)
  /-- SHUTTLE_WRITE_LAND (R189). A granule of a copy lands, and in BYTES mode the destination counter rises. -/
  | shuttleWriteLand (core : CoreId) (engine : BitVec 1) (queue : BitVec 2) (granule : Nat)
  /-- SHUTTLE_DESCRIPTOR_DONE (R189). The last byte of a descriptor lands, and in DONE mode the destination counter rises by ADD. -/
  | shuttleDescriptorDone (core : CoreId) (engine : BitVec 1) (queue : BitVec 2)
  /-- SHUTTLE_SOURCE_COMPLETE (R189). Every byte has landed and been acknowledged, and the source counter rises by ADD. -/
  | shuttleSourceComplete (core : CoreId) (engine : BitVec 1) (queue : BitVec 2)
  /-- SHUTTLE_FAULT (R200). A granule cannot complete, so the descriptor stops, the counters are settled with FAULT set, and a record is written. -/
  | shuttleFault (core : CoreId) (engine : BitVec 1) (queue : BitVec 2)
  /-- SHT_CNT_WRITE (R204). A write sets a counter value, and waiting threads compare again. -/
  | shtCntWrite (core : CoreId) (n : BitVec 8) (op : RegOp)
  /-- STORE_BUFFER_ENTRY_TIMEOUT (R254). A store-buffer entry closes 256 cycles after it was allocated. -/
  | storeBufferEntryTimeout (core : CoreId) (index : Nat)
  /-- STORE_BUFFER_WRITEBACK (R254). The oldest closed entry is written to its home, or sent as granules to another module. -/
  | storeBufferWriteback (core : CoreId)
  /-- PTN_XLAT_INVAL (R244). A firmware write starts the invalidation of the partition's cached translations. -/
  | ptnXlatInval (part : Nat) (agent : Agent)
  /-- XLAT_INVAL_COMPLETE (R218). The translation invalidation completes, BUSY clears, and no access uses the old entry. -/
  | xlatInvalComplete (part : Nat)
  /-- PTN_SCRATCH_MODE_WRITE (R244). Sets window or sealed mode in PSTATE 3, or is refused with an absorbed record. -/
  | ptnScratchModeWrite (part : Nat) (op : RegOp)
  /-- STR_ILV_WRITE (R246). The first write after reset sets the module's interleave map. -/
  | strIlvWrite (die : BitVec 2) (op : RegOp)
  /-- STR_ARB_WRITE (R247). Sets the strand class weights, or refuses a weight of 0. -/
  | strArbWrite (die : BitVec 2) (op : RegOp)
  /-- STRAND_READ_CRC_FAILURE (R234). A stack read fails its CRC and is re-read, recalibrated or reported as uncorrectable. -/
  | strandReadCrcFailure (addr : Nat) (outcome : CrcOutcome)
  /-- STRAND_RECALIBRATION (R496). A strand is held for up to 2 µs and recalibrated after CRC failures or a 4 °C temperature change. -/
  | strandRecalibration (strand : BitVec 12) (cause : RecalCause)
  /-- PATROL_SCRUB_READ (R238). The scrubber reads a block, writes back a correction unless newer data arrived, or records an uncorrectable block. -/
  | patrolScrubRead (addr : Nat) (find : ScrubFind)
  /-- LPDDR6_POWER_DOWN (R239). A channel idle for 1 µs enters power-down. -/
  | lpddr6PowerDown (channel : BitVec 4)
  /-- REQUEST (R370). A request ring entry is checked, and either refused in STATE 7 or accepted in STATE 1 with an Order Book entry. -/
  | request (fn : Nat) (input params : HostRead)
  /-- TOKENISATION_COMPLETE (R288). Tokenising completes, the side area is filled, and the entry moves to QUEUED. -/
  | tokenisationComplete (seq : Nat)
  /-- SIDE_AREA_ALLOCATED (R294). A sequence held in ADMIT obtains its side area once space frees. -/
  | sideAreaAllocated (seq : Nat)
  /-- CUTTING_LIST_PUBLISH (R307). The engine builds and publishes a partition's next draft or main list and launches its programs. -/
  | cuttingListPublish (part : Nat) (t : Dword)
  /-- OB_STEP_DONE (R331). The last program reports a list finished, and the engine checks results, applies them and writes the outputs, or aborts the step. -/
  | obStepDone (part : Nat) (op : RegOp) (t : Dword)
  /-- STEP_LIMIT_EXPIRY (R321). No OB_STEP_DONE arrives within STEP_LIMIT_MS, so the step aborts and the cores are reset. -/
  | stepLimitExpiry (part : Nat) (t : Dword)
  /-- STATUS_WORD_REFRESH (R376). A live entry's status word is rewritten at least once in each 1 ms. -/
  | statusWordRefresh (live : Live) (t : Dword)
  /-- OB_PEEK_SEL_WRITE (R326). A write copies an Order Book entry into OB_PEEK_DATA as one snapshot. -/
  | obPeekSelWrite (op : RegOp)
  /-- OB_PTN_CFG_WRITE (R328). Sets the partition's step configuration, or leaves it unchanged when a field is out of range. -/
  | obPtnCfgWrite (part : Nat) (op : RegOp)
  /-- DEMOTION_PAGE_COPY (R346). One main KV page of a pre-empted sequence is copied to a demotion page, and its directory word is rewritten. -/
  | demotionPageCopy (seq : Nat)
  /-- RESUME_START (R348). Once enough pool pages are free, a pre-empted sequence starts copying its demoted pages back. -/
  | resumeStart (seq : Nat)
  /-- PROMOTION_PAGE_COPY (R348). One demoted page is copied back to stacked memory; after the last page, the sequence returns to PREFILL or DECODE. -/
  | promotionPageCopy (seq : Nat)
  /-- DLM_ACCT_SEL_WRITE (R354). A write copies a client account into DLM_ACCT_DATA as one snapshot. -/
  | dlmAcctSelWrite (op : RegOp)
  /-- ACCT_CLEAR_ALL (R354). Clears every client account. -/
  | acctClearAll (agent : Agent)
  /-- ACCT_CLEAR_CLIENT (R354). Clears one client account and sets SINCE. -/
  | acctClearClient (agent : Agent) (client : BitVec 12)
  /-- DLM_PTN_CFG_WRITE (R355). Sets the margin, cold prediction, hysteresis and NOFALL, or refuses HYST 0. -/
  | dlmPtnCfgWrite (part : Nat) (op : RegOp)
  /-- PREDICTION_CLEAR (R355). CLEAR sets SEEN and RUN to 0 in every prediction entry. -/
  | predictionClear (part : Nat) (agent : Agent)
  /-- CANCEL (R373). The cancel command marks the target sequence to close with code 0x107. -/
  | cancel (fn : Nat)
  /-- PREEMPT (R373). The pre-empt command suspends a sequence in PREFILL or DECODE. -/
  | preempt (fn : Nat)
  /-- RESUME (R373). The resume command restores a sequence that the host pre-empted. -/
  | resume (fn : Nat)
  /-- REDUCE (R449). The REDUCE command checks its table and areas and starts a seam reduction over a run of steps. -/
  | reduce (fn : Nat)
  /-- FIT (R540). The FIT command starts fitting, releasing or quarantining a range of units. -/
  | fit (fn : Nat)
  /-- CALIBRATE (R497). The CALIBRATE command starts recalibrating a range of units. -/
  | calibrate (fn : Nat)
  /-- CALIBRATE_UNIT_COMPLETE (R497). One unit finishes calibration and COUNT rises. -/
  | calibrateUnitComplete
  /-- MEASURE (R516). The MEASURE command schedules one or more counter latches at named global times. -/
  | measure (fn : Nat)
  /-- TANGLE (R519). The TANGLE command schedules a wait-state snapshot for the tangle graph. -/
  | tangle (fn : Nat)
  /-- FW_ACTIVATE (R545). The FW_ACTIVATE command checks a firmware image, writes it to the inactive bank and activates it. -/
  | fwActivate (fn : Nat) (read : Option FwCheck)
  /-- FW_ACTIVATE_START_TIMEOUT (R545). The new image has not started within 2 ms, so the old image restarts and the command fails. -/
  | fwActivateStartTimeout (t : Dword)
  /-- RING_TAIL_WRITE (R368). The host writes TAIL to publish new ring entries. -/
  | ringTailWrite (fn ring : Nat) (op : RegOp)
  /-- RING_ENTRY_READ (R368). The module reads a ring entry from host memory and advances HEAD, or stops the ring on a failed read. -/
  | ringEntryRead (fn ring : Nat) (read : HostRead)
  /-- HIF_RING_BASE_WRITE (R388). Sets the ring address, unless ENABLE is 1. -/
  | hifRingBaseWrite (fn ring : Nat) (op : RegOp)
  /-- HIF_RING_CFG_WRITE (R388). Sets LOG2 and ENABLE; enabling resets HEAD and TAIL, and disabling stops reading. -/
  | hifRingCfgWrite (fn ring : Nat) (op : RegOp)
  /-- HIF_BAR2_BASE_WRITE (R389). Sets PF0's aperture base, unless the value is not a multiple of the size. -/
  | hifBar2BaseWrite (op : RegOp)
  /-- BAR2_READ (R364). A host read through BAR2 is served coherently, or answered as a violation. -/
  | bar2Read (fn offset len : Nat) (tlp : Tlp)
  /-- BAR2_WRITE (R364). A host write through BAR2 is performed coherently, or dropped as a violation. -/
  | bar2Write (fn offset : Nat) (bytes : List Byte) (tlp : Tlp)
  /-- CONFIG_REQUEST (R557). A configuration request is answered, with Request Retry Status until configuration space is ready. -/
  | configRequest (req : ConfigAsk)
  /-- VF_FLR (R381). An FLR of a VF disables its rings and closes its requests and commands. -/
  | vfFlr (vf : Nat)
  /-- PF0_FLR (R382). An FLR of PF0 resets PF0 and every VF, and stops or completes a running load. -/
  | pf0Flr
  /-- D3HOT_ENTRY (R383). A function entering D3hot is reset as by an FLR. -/
  | d3hotEntry (fn : Nat)
  /-- CLAIM_OWNER (R400). Writes the first owner key slot. -/
  | claimOwner (r : ThimbleReq) (key : BitVec 512)
  /-- SET_OWNER (R400). Replaces or releases the owner key and ends the sessions. -/
  | setOwner (r : ThimbleReq) (key : BitVec 512)
  /-- SET_POLICY (R401). Writes the owner policy word and the image-signing keys. -/
  | setPolicy (r : ThimbleReq) (policy : PolicyParams)
  /-- SET_OPERATOR (R398). Enrols or clears the operator key. -/
  | setOperator (r : ThimbleReq) (key : Option (BitVec 512))
  /-- ADVANCE_DEBUG (R416). Moves the debug policy one way forward and releases halted skeins. -/
  | advanceDebug (r : ThimbleReq) (policy : Nat)
  /-- RAISE_SVN (R410). Blows SVN fuses up to a target. -/
  | raiseSvn (r : ThimbleReq) (target : Nat)
  /-- PERSIST_GEOMETRY (R402). Stores the present masks and modes as the boot default. -/
  | persistGeometry (r : ThimbleReq)
  /-- PERSIST_ALTERATIONS (R495). Stores the present alteration set in flash and its hash in OTP. -/
  | persistAlterations (r : ThimbleReq)
  /-- FORM (R392). Starts re-forming the partitions: affected partitions drain. -/
  | form (r : ThimbleReq) (masks : List (BitVec 16)) (sealed_ : List Bool) (drainMs : Nat) (t : Dword)
  /-- FORM_DRAIN_COMPLETE (R392). No bundle of the affected partitions runs, so they enter scrubbing. -/
  | formDrainComplete
  /-- FORM_DRAIN_LIMIT_EXPIRY (R392). DRAIN_MS expires, and the cores still running are reset. -/
  | formDrainLimitExpiry (t : Dword)
  /-- FORM_SCRUB_COMPLETE (R392). The scrub ends; the new masks and modes are written, and VFs are enabled or disabled. -/
  | formScrubComplete
  /-- BIND (R398). Sets a tenant key for a formed partition with BOUND 0. -/
  | bind (r : ThimbleReq) (part : Nat) (key : BitVec 512)
  /-- UNBIND (R394). Starts handing a partition back: its rings are disabled and it drains. -/
  | unbind (r : ThimbleReq) (part : Nat) (t : Dword)
  /-- UNBIND_DRAIN_COMPLETE (R394). The partition's bundles are done; sequences close, and scrub, zeroing, revocation and clearing follow. -/
  | unbindDrainComplete (part : Nat)
  /-- UNBIND_STEP_LIMIT_EXPIRY (R394). STEP_LIMIT_MS passes during an UNBIND drain, and the running cores are reset. -/
  | unbindStepLimitExpiry (part : Nat) (t : Dword)
  /-- UNBIND_COMPLETE (R394). Pages are zeroed and clients revoked, the tenant credential is cleared, and the partition returns to PSTATE 1. -/
  | unbindComplete (part : Nat)
  /-- GRANT_CLIENT (R404). Grants a client to a partition and creates its LPDDR6 key. -/
  | grantClient (r : ThimbleReq) (client : BitVec 12) (part demotePages : Nat)
  /-- REVOKE_CLIENT (R405). Closes a client's sequences, zeroes its pages and erases its key. -/
  | revokeClient (r : ThimbleReq) (client : BitVec 12)
  /-- IMPORT_KEY (R406). Replaces a client's key with one the tenant supplies. -/
  | importKey (r : ThimbleReq) (client : BitVec 12) (key : BitVec 512)
  /-- SET_REMOTE (R408). Writes a partition's SEND_EN and admission ranges. -/
  | setRemote (r : ThimbleReq) (part : Nat) (sendEn : Bool) (admission : List Dword)
  /-- DEBUG_OPTIN (R416). The tenant permits or forbids debug halts in its partition. -/
  | debugOptin (r : ThimbleReq) (permit : Bool)
  /-- READ_LEDGER (R398). Returns ledger entries from a sequence number. -/
  | readLedger (r : ThimbleReq) (seq count : Nat)
  /-- WRITE_PATTERN (R492). Writes the factory pattern before the factory lock. -/
  | writePattern (r : ThimbleReq) (pattern : BitVec 512) (lock : Bool)
  /-- GET_VERSION (R413). SPDM version negotiation. -/
  | getVersion (m : SpdmMsg)
  /-- GET_CAPABILITIES (R413). SPDM capabilities exchange. -/
  | getCapabilities (m : SpdmMsg)
  /-- NEGOTIATE_ALGORITHMS (R413). SPDM algorithm negotiation. -/
  | negotiateAlgorithms (m : SpdmMsg) (supported : Bool)
  /-- GET_DIGESTS (R413). Returns the certificate chain digests. -/
  | getDigests (m : SpdmMsg)
  /-- GET_CERTIFICATE (R413). Returns the slot 0 certificate chain. -/
  | getCertificate (m : SpdmMsg) (certSlot offset len : Nat)
  /-- CHALLENGE (R413). Signs a challenge with the Alias key. -/
  | challenge (m : SpdmMsg) (certSlot : Nat) (nonce : BitVec 256)
  /-- GET_MEASUREMENTS (R414). Returns the measurement blocks. -/
  | getMeasurements (m : SpdmMsg) (index : Nat)
  /-- KEY_EXCHANGE (R396). Starts an SPDM session, ending the credential's earlier session. -/
  | keyExchange (m : SpdmMsg) (certSlot : Nat) (mutualAuth : Bool) (key : BitVec 512)
  /-- FINISH (R413). Completes session establishment. -/
  | finish (m : SpdmMsg) (session : Nat) (hmacOk sigOk : Bool)
  /-- HEARTBEAT (R413). Keeps a session alive. -/
  | heartbeat (m : SpdmMsg) (session : Nat)
  /-- KEY_UPDATE (R413). Updates the session keys. -/
  | keyUpdate (m : SpdmMsg) (session : Nat)
  /-- END_SESSION (R413). Ends an SPDM session. -/
  | endSession (m : SpdmMsg) (session : Nat)
  /-- SPDM_SESSION_TIMEOUT (R396). A session that carries no message for 60 s ends. -/
  | spdmSessionTimeout (session : Nat) (t : Dword)
  /-- LINK_DATA_BLOCK_RECEIVE (R423). A data block is accepted in order, or answered with NAK; its ACK and credits are applied. -/
  | linkDataBlockReceive (port : Nat) (b : Block)
  /-- LINK_IDLE_BLOCK_RECEIVE (R422). An idle block delivers its ACK, NAK and credit fields. -/
  | linkIdleBlockReceive (port : Nat) (b : Block)
  /-- IDENT (R432). The peer's identity is checked at training, and the port goes up or is held miswired. -/
  | ident (port : Nat) (b : Block)
  /-- LANES (R424). The peer's trained lane mask is exchanged during retraining. -/
  | lanes (port : Nat) (b : Block)
  /-- TIME (R442). A TIME block gives timestamps for the offset to the time parent. -/
  | time (port : Nat) (b : Block) (t : Dword)
  /-- DOWN (R426). The peer announces that it is taking the port down. -/
  | down (x : PortBlock)
  /-- LINK_PROGRESS_TIMEOUT (R424). No data block is accepted for 100 µs while blocks wait, so the port retrains. -/
  | linkProgressTimeout (port : Nat) (t : Dword)
  /-- LINK_FEC_THRESHOLD (R424). More than 1,000 uncorrectable codewords in 1 ms trigger retraining. -/
  | linkFecThreshold (port : Nat) (uncorrectable : Nat)
  /-- LINK_RETRAIN_COMPLETE (R424). The widest common width trains, and resending resumes. -/
  | linkRetrainComplete (port : Nat) (ownLanes : BitVec 8)
  /-- LINK_RETRAIN_TIMEOUT (R424). No width trains within 1 ms, so retries are exhausted and the port goes down. -/
  | linkRetrainTimeout (port : Nat) (t : Dword)
  /-- WRITE (R437). A remote WRITE packet is checked and lands, raises its counter and is acknowledged, or is refused. -/
  | write (port : Nat) (p : Packet)
  /-- COUNT (R428). A remote counter addition is checked and applied, and an ACK is returned. -/
  | count (port : Nat) (p : Packet)
  /-- ACK (R428). Acknowledges granules or counts for a requester. -/
  | ack (port : Nat) (p : Packet)
  /-- REFUSE (R437). A refused write reaches its source, which faults the shuttle or records the store. -/
  | refuse (port : Nat) (p : Packet)
  /-- BARRIER (R441). A BARRIER arrive is forwarded toward the anchor, or a go is passed down and the next list is published. -/
  | barrier (port : Nat) (p : Packet)
  /-- DEAD (R434). A module ID is marked dead and forwarded, and stores to it are discarded. -/
  | dead (port : Nat) (p : Packet)
  /-- PROBE (R428). Answers with PROBE_REPLY. -/
  | probe (port : Nat) (p : Packet)
  /-- PROBE_REPLY (R433). The last accepted SEQ lets unacknowledged blocks be re-routed. -/
  | probeReply (port : Nat) (p : Packet)
  /-- PROBE_TIMER (R433). PROBE is resent every 50 µs while a port is down. -/
  | probeTimer (port : Nat) (t : Dword)
  /-- PEER_DEAD_TIMEOUT (R434). 500 µs after retry exhaustion without a reply, the peer is declared dead and DEAD is sent. -/
  | peerDeadTimeout (port : Nat) (t : Dword)
  /-- UNACKED_WRITE_TIMEOUT (R435). A write unacknowledged 2 ms after a DEAD is treated as a write to a dead module. -/
  | unackedWriteTimeout (etag : BitVec 19) (dst : BitVec 17) (t : Dword)
  /-- WLK_SYS_WRITE (R447). Sets the system shape and module ID, or leaves them unchanged when the values are invalid. -/
  | wlkSysWrite (op : RegOp)
  /-- GROUP_FORM (R438). A write of FORM starts group formation. -/
  | groupForm (op : RegOp) (t : Dword)
  /-- GROUP_FORMATION_CHECK (R438). The anchor confirms the members or refuses formation when the 1 s window ends. -/
  | groupFormationCheck (members : List (Option MemberForm)) (greatest t : Dword)
  /-- GROUP_LEAVE (R438). A write of LEAVE takes the module out of its group. -/
  | groupLeave (leaver : Leaver)
  /-- ANCHOR_TAKEOVER (R440). The deputy becomes anchor after the anchor's DEAD reaches it. -/
  | anchorTakeover (t : Dword)
  /-- PORT_ENABLE (R448). ENABLE 1 starts training a port. -/
  | portEnable (port : Nat) (op : RegOp)
  /-- PORT_DISABLE (R448). ENABLE 0 sends DOWN and disables the port. -/
  | portDisable (port : Nat) (op : RegOp)
  /-- TIME_EXCHANGE (R442). Every 1 ms, a member exchanges TIME blocks with its parent and slews its time. -/
  | timeExchange (t : Dword)
  /-- TIME_HOLD_EXPIRY (R442). The 100 ms time hold after an anchor or parent change ends. -/
  | timeHoldExpiry (t : Dword)
  /-- SEAM_POST (R455). A program posts a gradient bucket for contribution. -/
  | seamPost (part : Nat) (op : RegOp)
  /-- SEAM_POST_READ_COMPLETE (R455). The posted bucket has been read and sent, and POST_CNT rises. -/
  | seamPostReadComplete (part : Nat)
  /-- SEAM_QUEUE_HOLD_EXPIRY (R458). A seam packet's hold ends, and it waits for credit to leave. -/
  | seamQueueHoldExpiry (port : Nat) (t : Dword)
  /-- SEAM_ADD (R460). A combinable contribution is added into the owner's ACC half, and may close the share. -/
  | seamAdd (port : Nat) (p : Packet) (t : Dword)
  /-- SEAM_WRITE (R460). An uncombined contribution is added atomically into the owner's ACC half. -/
  | seamWrite (port : Nat) (p : Packet) (t : Dword)
  /-- SEAM_PARAM (R466). Published parameters land in the standby version, or are returned HELD. -/
  | seamParam (port : Nat) (p : Packet)
  /-- SEAM_SHARE_DEADLINE (R461). DEADLINE_US passes since a share opened, so it closes short. -/
  | seamShareDeadline (part bucket step : Nat) (t : Dword)
  /-- SEAM_PUBLISH (R465). The owner sends a share's new parameters to every live replica. -/
  | seamPublish (part : Nat) (op : RegOp)
  /-- SEAM_HELD_RESEND (R467). 20 µs after a HELD return, the owner resends the range. -/
  | seamHeldResend (part : Nat) (t : Dword)
  /-- SEAM_BOUNDARY (R469). A program marks the step boundary. -/
  | seamBoundary (part : Nat) (op : RegOp)
  /-- SEAM_COMMIT (R469). At the later of the boundary and completion, void shares are copied, ACTIVE flips and COMMITTED advances. -/
  | seamCommit (part : Nat)
  /-- DROOP_DETECT (R478). A supply droop of 3 % stretches the island clock. -/
  | droopDetect (island : Nat) (t : Dword)
  /-- DROOP_LIMIT_LOWER (R478). Each 100 µs of unbroken stretching lowers the droop limit one point. -/
  | droopLimitLower (island : Nat) (t : Dword)
  /-- DROOP_LIMIT_RAISE (R478). Each 10 ms without stretching raises the droop limit one point. -/
  | droopLimitRaise (island : Nat) (t : Dword)
  /-- ISLAND_CLOCK_STOP (R479). A core island idle for IDLE_US stops its clock. -/
  | islandClockStop (island : Nat) (t : Dword)
  /-- ISLAND_CLOCK_RESTART (R479). A request for a stopped island restarts its clock within 200 ns. -/
  | islandClockRestart (island : Nat)
  /-- ISLAND_GATE (R285). After the drain handshake reports the island empty, its supply is removed. -/
  | islandGate (island : Nat)
  /-- ISLAND_UNGATE (R480). A gated island is ungated within 40 µs when its case ends. -/
  | islandUngate (island : Nat)
  /-- POWER_SAMPLE (R487). Every 10 µs the input voltage and power are sampled, and the band response is applied. -/
  | powerSample (p : PowerSample)
  /-- VF_LIMIT_STEP (R488). The cap controller lowers the V-F limit each 100 µs, or raises it each 1 ms. -/
  | vfLimitStep (avg1ms t : Nat)
  /-- VF_POINT_CHANGE_COMPLETE (R490). An island reaches its new V-F point within 10 µs. -/
  | vfPointChangeComplete (island : Nat)
  /-- THERMAL_SENSOR_READ (R491). Every 100 µs the sensors are read, and thermal limits, refresh rate and trips respond. -/
  | thermalSensorRead (t : Dword) (junction stack : List (Nat × Int)) (heldUs : Nat)
  /-- CLK_TIME_ADJ_WRITE (R486). Steps global time forward and adjusts the deadlines of live entries. -/
  | clkTimeAdjWrite (op : RegOp)
  /-- CAL_ALT_SEL_WRITE (R494). Selects an alteration item, or refuses an invalid selection. -/
  | calAltSelWrite (op : RegOp)
  /-- CAL_ALT_VALUE_WRITE (R494). Sets the selected alteration within its bounds. -/
  | calAltValueWrite (op : RegOp)
  /-- PWR_MODULE_CAP_WRITE (R501). Sets the module power cap, or refuses a value out of range. -/
  | pwrModuleCapWrite (op : RegOp)
  /-- PWR_IDLE_WRITE (R501). Sets the idle stop time and the gating of unassigned cores. -/
  | pwrIdleWrite (op : RegOp)
  /-- PWR_PTN_WRITE (R501). Sets a partition's power cap, or refuses a value out of range. -/
  | pwrPtnWrite (part : Nat) (op : RegOp)
  /-- MEASURE_LATCH (R509). At time T, every island latches its counters, optionally resetting them. -/
  | measureLatch (fn : Nat) (tag : Word) (t : Dword)
  /-- MEASURE_IMAGE_WRITTEN (R517). A counter image is written to host memory with its header last. -/
  | measureImageWritten (fn : Nat) (tag : Word)
  /-- MSR_RESET_WRITE (R510). Resets the native counters of the named classes and advances their epochs. -/
  | msrResetWrite (op : RegOp)
  /-- TANGLE_LATCH (R520). At time T, every island latches its wait state. -/
  | tangleLatch (t : Dword)
  /-- TANGLE_GRAPH_WRITTEN (R524). Firmware writes the wait-for graph with its cycles marked, and the command ends. -/
  | tangleGraphWritten
  /-- POWER_BLOCK_UPDATE (R518). Every 1 ms the power and temperature block is updated together. -/
  | powerBlockUpdate (mw mv ma j : Nat) (tmax : Int) (tdie : List Int) (tstack : Int) (t : Dword)
  /-- QUARANTINE_CORE_RESET (R537). A quarantined core that is idle, or held for 100 ms, is reset and gated. -/
  | quarantineCoreReset (core : CoreId) (t : Dword)
  /-- FIT_UNIT_HOLD (R542). The next unit is held for fitting and its state is saved once its bundle ends. -/
  | fitUnitHold (t : Dword)
  /-- FIT_HOLD_TIMEOUT (R542). A bundle still runs 1 s after the hold, so the unit is skipped. -/
  | fitHoldTimeout (t : Dword)
  /-- FIT_TEST_COMPLETE (R542). A unit's test ends; the unit is restored or quarantined and COUNT rises. -/
  | fitTestComplete (passed : Bool) (failedStep : Nat) (lanes : BitVec 8)
  /-- POWER_INPUT_ON (R555). The input reaches 44 V, and the Thimble starts PHASE 0. -/
  | powerInputOn (bankOk : List Bool)
  /-- POWER_LOSS (R286). The module loses power, or powers down after an input out of range, and keeps nothing. -/
  | powerLoss
  /-- PERST_ASSERT (R551). PERST# assertion resets the module. -/
  | perstAssert (forNs : Nat)
  /-- PERST_DEASSERT (R555). PERST# release starts global time and PHASE 1. -/
  | perstDeassert
  /-- BOOT_PHASE_COMPLETE (R555). A bring-up phase finishes and the next phase starts. -/
  | bootPhaseComplete (bridgesOk : Bool) (strandsFailed : List (BitVec 12)) (lpddrRate : Nat) (t : Dword)
  /-- BOOT_PHASE_TIMEOUT (R559). A phase exceeds its limit, and PHASE becomes 7 with a code. -/
  | bootPhaseTimeout (t : Dword)
  /-- THM_RESET_ARM (R553). A write with GO 0 arms GO when ARM is 0xA5, and disarms it otherwise. -/
  | thmResetArm (op : RegOp) (t : Dword)
  /-- THM_RESET_GO (R553). A write with GO 1 resets the module when GO is armed, and is ignored otherwise. -/
  | thmResetGo (op : RegOp) (t : Dword)
  /-- THM_RESET_ARM_EXPIRY (R553). GO disarms 1 ms after it was armed. -/
  | thmResetArmExpiry (t : Dword)
  /-- THIMBLE_WATCHDOG_EXPIRY (R554). The 2 s watchdog expires, and the module resets with cause 3. -/
  | thimbleWatchdogExpiry (sinceUs : Nat)
  /-- SET_ENDPOINT_ID (R562). Assigns the MCTP endpoint ID. -/
  | setEndpointId (fault : BusFault) (eid : Byte)
  /-- GET_ENDPOINT_ID (R562). Returns the MCTP endpoint ID. -/
  | getEndpointId (fault : BusFault)
  /-- GET_MCTP_VERSION_SUPPORT (R562). Returns the supported MCTP versions. -/
  | getMctpVersionSupport (fault : BusFault)
  /-- GET_MESSAGE_TYPE_SUPPORT (R562). Returns the supported message types. -/
  | getMessageTypeSupport (fault : BusFault)
  /-- GET_TID (R562). Returns the PLDM terminus ID. -/
  | getTid (fault : BusFault)
  /-- GET_PLDM_VERSION (R562). Returns the PLDM versions. -/
  | getPldmVersion (fault : BusFault) (pldmType : Nat)
  /-- GET_PLDM_TYPES (R562). Returns the PLDM types. -/
  | getPldmTypes (fault : BusFault)
  /-- GET_PLDM_COMMANDS (R562). Returns the PLDM commands. -/
  | getPldmCommands (fault : BusFault) (pldmType : Nat)
  /-- GET_SENSOR_READING (R563). Returns a numeric sensor reading. -/
  | getSensorReading (fault : BusFault) (sensor : Nat)
  /-- GET_STATE_SENSOR_READINGS (R563). Returns state sensor readings. -/
  | getStateSensorReadings (fault : BusFault) (sensor : Nat)
  /-- SET_STATE_EFFECTER_STATES (R563). Effecter 1 in state 2 requests a module reset. -/
  | setStateEffecterStates (fault : BusFault) (effecter state : Nat)
  /-- GET_PDR (R563). Returns PDR repository records. -/
  | getPdr (fault : BusFault) (handle : Nat)
  /-- SET_EVENT_RECEIVER (R562). Sets the receiver of platform event messages. -/
  | setEventReceiver (fault : BusFault) (receiver : Nat) (enable : Bool)
  /-- PLDM_FIRMWARE_UPDATE (R564). A PLDM update command transfers, checks, writes or activates a firmware component. -/
  | pldmFirmwareUpdate (fault : BusFault) (cmd : FwUpdate)
  /-- BYPASS (R566). Selects the bypass register. -/
  | bypass
  /-- IDCODE (R566). Selects the IDCODE register, 0x1B0B_0A3D. -/
  | idcode
  /-- SAMPLE_PRELOAD (R566). Samples or preloads the boundary register. -/
  | samplePreload (pins : BitVec 64)
  /-- EXTEST (R567). Drives the boundary pins while PERST# holds reset, and acts as BYPASS otherwise. -/
  | extest
  /-- CLAMP (R567). Clamps the outputs under reset, and acts as BYPASS otherwise. -/
  | clamp
  /-- HIGHZ (R567). Places the outputs in high impedance under reset, and acts as BYPASS otherwise. -/
  | highz
  /-- REGULATOR_OVERTEMP (R574). A regulator above 110 °C for 1 ms triggers the thermal trip. -/
  | regulatorOvertemp (regulator heldUs : Nat)
  /-- REGULATOR_OVERVOLTAGE (R574). An output 15 % high for 10 µs triggers the thermal trip. -/
  | regulatorOvervoltage (regulator heldUs : Nat)
  /-- FW_ACTIVATION_COMPLETE (R545). The new firmware image starts within 2 ms: publication resumes, the new bank becomes the boot bank, and FW_ACTIVATE ends in STATE 5 with record 0x0C01. -/
  | fwActivationComplete (t : Dword)
  /-- COMPLETION_TIMEOUT (R384). A host read made by the module gets no completion within the completion timeout (default 50 ms), so the ring stops, or the request or load fails with code 0x008. -/
  | completionTimeout (fn ring : Nat) (seq : Option Nat)
  /-- IDE_KM (R380). An IDE_KM message over PF0's DOE mailbox programs or starts IDE stream keys, which moves a stream to the Secure state and releases the function it covers. -/
  | ideKm (session : Nat) (m : IdeMsg)
  /-- SETDASA (R562). The I3C SETDASA command assigns the management target its dynamic address from its static address. -/
  | setdasa (static dynamic : BitVec 7)
  /-- ENTDAA (R562). The I3C ENTDAA procedure assigns the management target a dynamic address. -/
  | entdaa (dynamic : BitVec 7)
  /-- TAP_RESET (R567). The test access port returns to Test-Logic-Reset through TRST# or TMS, leaving EXTEST, CLAMP or HIGHZ and releasing a module reset that the TAP held. -/
  | tapReset
  /-- DROOP_END (R478). The island supply recovers from its droop, the clock stops stretching and the island returns to Running, which breaks the stretch run that the droop limit counts. -/
  | droopEnd (island : Nat) (t : Dword)
  /-- REVOKE_CLIENT_COMPLETE (R405). After the client's sequences close and its stacked KV pages are zeroed, its demotion pages are unmapped and its key is erased from the Thimble and every controller. -/
  | revokeClientComplete (client : BitVec 12)
  deriving DecidableEq, Repr

end Sys2Proof
end

