-- ==== Sys2Proof/Decode.lean ====
section
/-! DEFINITION. The decoder over the rows of the table that give bits. The table gives none: its rows are accesses, messages
and events of a block, so no word spells a command. -/

namespace Sys2Proof

/-- The command that a word spells by the table's bits: no row of the table gives bits. -/
def decodeTableWord (_nbits _w : Nat) : Option Instr := none

end Sys2Proof
end

