-- ==== Sys2Proof/Machine/Crypto.lean ====
section
/-! DEFINITION. The standards that R1 names and whose results the block's state shows: SHA-512 (FIPS 180-4), verification of an
ECDSA signature on P-521 (FIPS 186-5) and CRC-32C. -/

namespace Sys2Proof.Machine

/-! ## SHA-512 (FIPS 180-4) -/

/-- The round constants: the first 64 bits of the fractional parts of the cube roots of the first 80 primes. -/
def shaK0 : List Nat :=
  [0x428A2F98D728AE22, 0x7137449123EF65CD, 0xB5C0FBCFEC4D3B2F, 0xE9B5DBA58189DBBC,
   0x3956C25BF348B538, 0x59F111F1B605D019, 0x923F82A4AF194F9B, 0xAB1C5ED5DA6D8118,
   0xD807AA98A3030242, 0x12835B0145706FBE, 0x243185BE4EE4B28C, 0x550C7DC3D5FFB4E2,
   0x72BE5D74F27B896F, 0x80DEB1FE3B1696B1, 0x9BDC06A725C71235, 0xC19BF174CF692694]
def shaK1 : List Nat :=
  [0xE49B69C19EF14AD2, 0xEFBE4786384F25E3, 0x0FC19DC68B8CD5B5, 0x240CA1CC77AC9C65,
   0x2DE92C6F592B0275, 0x4A7484AA6EA6E483, 0x5CB0A9DCBD41FBD4, 0x76F988DA831153B5,
   0x983E5152EE66DFAB, 0xA831C66D2DB43210, 0xB00327C898FB213F, 0xBF597FC7BEEF0EE4,
   0xC6E00BF33DA88FC2, 0xD5A79147930AA725, 0x06CA6351E003826F, 0x142929670A0E6E70]
def shaK2 : List Nat :=
  [0x27B70A8546D22FFC, 0x2E1B21385C26C926, 0x4D2C6DFC5AC42AED, 0x53380D139D95B3DF,
   0x650A73548BAF63DE, 0x766A0ABB3C77B2A8, 0x81C2C92E47EDAEE6, 0x92722C851482353B,
   0xA2BFE8A14CF10364, 0xA81A664BBC423001, 0xC24B8B70D0F89791, 0xC76C51A30654BE30,
   0xD192E819D6EF5218, 0xD69906245565A910, 0xF40E35855771202A, 0x106AA07032BBD1B8]
def shaK3 : List Nat :=
  [0x19A4C116B8D2D0C8, 0x1E376C085141AB53, 0x2748774CDF8EEB99, 0x34B0BCB5E19B48A8,
   0x391C0CB3C5C95A63, 0x4ED8AA4AE3418ACB, 0x5B9CCA4F7763E373, 0x682E6FF3D6B2B8A3,
   0x748F82EE5DEFB2FC, 0x78A5636F43172F60, 0x84C87814A1F0AB72, 0x8CC702081A6439EC,
   0x90BEFFFA23631E28, 0xA4506CEBDE82BDE9, 0xBEF9A3F7B2C67915, 0xC67178F2E372532B]
def shaK4 : List Nat :=
  [0xCA273ECEEA26619C, 0xD186B8C721C0C207, 0xEADA7DD6CDE0EB1E, 0xF57D4F7FEE6ED178,
   0x06F067AA72176FBA, 0x0A637DC5A2C898A6, 0x113F9804BEF90DAE, 0x1B710B35131C471B,
   0x28DB77F523047D84, 0x32CAAB7B40C72493, 0x3C9EBE0A15C9BEBC, 0x431D67C49C100D4C,
   0x4CC5D4BECB3E42B6, 0x597F299CFC657E2A, 0x5FCB6FAB3AD6FAEC, 0x6C44198C4A475817]
def shaK : List Nat := shaK0 ++ shaK1 ++ shaK2 ++ shaK3 ++ shaK4

/-- The initial hash value: the first 64 bits of the fractional parts of the square roots of the first eight primes. -/
def shaH : List Nat :=
  [0x6A09E667F3BCC908, 0xBB67AE8584CAA73B, 0x3C6EF372FE94F82B, 0xA54FF53A5F1D36F1,
   0x510E527FADE682D1, 0x9B05688C2B3E6C1F, 0x1F83D9ABFB41BD6B, 0x5BE0CD19137E2179]

def w64 (n : Nat) : Nat := n % 2 ^ 64
def rotr64 (x n : Nat) : Nat := (x >>> n) ||| w64 (x <<< (64 - n))
def shaBig0 (x : Nat) : Nat := rotr64 x 28 ^^^ rotr64 x 34 ^^^ rotr64 x 39
def shaBig1 (x : Nat) : Nat := rotr64 x 14 ^^^ rotr64 x 18 ^^^ rotr64 x 41
def shaSmall0 (x : Nat) : Nat := rotr64 x 1 ^^^ rotr64 x 8 ^^^ (x >>> 7)
def shaSmall1 (x : Nat) : Nat := rotr64 x 19 ^^^ rotr64 x 61 ^^^ (x >>> 6)

/-- The bytes of a big-endian number of n bytes, and the number of bytes. -/
def beBytes (n v : Nat) : List Byte := (List.range n).map fun i => BitVec.ofNat 8 (v >>> (8 * (n - 1 - i)))
def beNat (b : List Byte) : Nat := b.foldl (fun a x => a * 256 + x.toNat) 0

/-- The message padded to whole blocks of 128 bytes. -/
def shaPad (m : List Byte) : List Byte :=
  m ++ [0x80] ++ List.replicate ((239 - m.length % 128) % 128) 0 ++ beBytes 16 (8 * m.length)

/-- The message schedule, latest word first. -/
def shaSchedule : Nat → List Nat → List Nat
  | 0, w => w
  | k + 1, w =>
    let at_ (i : Nat) : Nat := w.getD i 0
    shaSchedule k (w64 (shaSmall1 (at_ 1) + at_ 6 + shaSmall0 (at_ 14) + at_ 15) :: w)

/-- The working variables a to h. -/
structure ShaVars where
  a : Nat
  b : Nat
  c : Nat
  d : Nat
  e : Nat
  f : Nat
  g : Nat
  h : Nat
  deriving DecidableEq, Repr

def ShaVars.list (v : ShaVars) : List Nat := [v.a, v.b, v.c, v.d, v.e, v.f, v.g, v.h]
def shaVars (l : List Nat) : ShaVars :=
  let at_ (i : Nat) : Nat := l.getD i 0
  ⟨at_ 0, at_ 1, at_ 2, at_ 3, at_ 4, at_ 5, at_ 6, at_ 7⟩

/-- One round, with K and W of the round. -/
def shaRound (v : ShaVars) (kw : Nat × Nat) : ShaVars :=
  let ch := (v.e &&& v.f) ^^^ ((v.e ^^^ (2 ^ 64 - 1)) &&& v.g)
  let t1 := v.h + shaBig1 v.e + ch + kw.1 + kw.2
  let maj := (v.a &&& v.b) ^^^ (v.a &&& v.c) ^^^ (v.b &&& v.c)
  ⟨w64 (t1 + shaBig0 v.a + maj), v.a, v.b, v.c, w64 (v.d + t1), v.e, v.f, v.g⟩

/-- The hash value after one block. -/
def shaBlock (h : List Nat) (block : List Byte) : List Nat :=
  let w := (shaSchedule 64 ((List.range 16).map fun i => beNat ((block.drop (8 * i)).take 8)).reverse).reverse
  let v := (shaK.zip w).foldl shaRound (shaVars h)
  (h.zip v.list).map fun x => w64 (x.1 + x.2)

def shaBlocks : Nat → List Nat → List Byte → List Nat
  | 0, h, _ => h
  | n + 1, h, m => shaBlocks n (shaBlock h (m.take 128)) (m.drop 128)

/-- The 64 bytes of the digest. -/
def sha512Bytes (m : List Byte) : List Byte :=
  let p := shaPad m
  (shaBlocks (p.length / 128) shaH p).flatMap (beBytes 8)

/-- The digest as a 512-bit value whose bytes, lowest first, are the digest's in order. -/
def sha512 (m : List Byte) : BitVec 512 := BitVec.ofNat 512 (beNat (sha512Bytes m).reverse)

/-! ## ECDSA on P-521 (FIPS 186-5) -/

/-- Field prime, order of the group, base point. -/
def ecP : Nat := 2 ^ 521 - 1
def ecN : Nat :=
  0x1FFFFFFFFFFFFFFFFFFFFFFFFFFFFFFFFFFFFFFFFFFFFFFFFFFFFFFFFFFFFFFFFFA51868783BF2F966B7FCC0148F709A5D03BB5C9B8899C47AEBB6FB71E91386409
def ecGx : Nat :=
  0xC6858E06B70404E9CD9E3ECB662395B4429C648139053FB521F828AF606B4D3DBAA14B5E77EFE75928FE1DC127A2FFA8DE3348B3C1856A429BF97E7E31C2E5BD66
def ecGy : Nat :=
  0x11839296A789A3BC0045C8A5FB42C7D1BD998F54449579B446817AFBD17273E662C97EE72995EF42640C550B9013FAD0761353C7086A272C24088BE94769FD16650
def ecB : Nat :=
  0x51953EB9618E1C9A1F929A21A0B68540EEA2DA725B99B315F3B8B489918EF109E156193951EC7E937B1652C0BD3BB1BF073573DF883D2C34F1EF451FD46B503F00

/-- b^e modulo m, for e of at most `fuel` bits. -/
def powMod (m : Nat) : Nat → Nat → Nat → Nat
  | 0, _, _ => 1
  | fuel + 1, b, e => (if e % 2 == 1 then b else 1) * powMod m fuel (b * b % m) (e / 2) % m

/-- A point in Jacobian coordinates; Z = 0 is the neutral element. -/
structure EcPoint where
  x : Nat
  y : Nat
  z : Nat
  deriving DecidableEq, Repr

/-- a − b in the field, for b below the prime. -/
def ecSub (a b : Nat) : Nat := (a + ecP - b) % ecP

def EcPoint.double (p : EcPoint) : EcPoint :=
  let zz := p.z * p.z % ecP
  let yy := p.y * p.y % ecP
  let s := 4 * p.x * yy % ecP
  let m := 3 * (ecSub p.x zz * (p.x + zz) % ecP) % ecP
  let x := ecSub (m * m % ecP) (2 * s % ecP)
  ⟨x, ecSub (m * ecSub s x % ecP) (8 * yy * yy % ecP), 2 * p.y * p.z % ecP⟩

def EcPoint.add (p q : EcPoint) : EcPoint :=
  if p.z == 0 then q
  else if q.z == 0 then p
  else
    let zz := p.z * p.z % ecP
    let ww := q.z * q.z % ecP
    let u1 := p.x * ww % ecP
    let u2 := q.x * zz % ecP
    let s1 := p.y * ww * q.z % ecP
    let s2 := q.y * zz * p.z % ecP
    if u1 == u2 then (if s1 == s2 then p.double else ⟨0, 1, 0⟩)
    else
      let h := ecSub u2 u1
      let r := ecSub s2 s1
      let hh := h * h % ecP
      let hhh := hh * h % ecP
      let v := u1 * hh % ecP
      let x := ecSub (ecSub (r * r % ecP) hhh) (2 * v % ecP)
      ⟨x, ecSub (r * ecSub v x % ecP) (s1 * hhh % ecP), p.z * q.z * h % ecP⟩

/-- k times a point, for k of at most `fuel` bits. -/
def EcPoint.times : Nat → Nat → EcPoint → EcPoint
  | 0, _, _ => ⟨0, 1, 0⟩
  | fuel + 1, k, p => (if k % 2 == 1 then p else ⟨0, 1, 0⟩).add (EcPoint.times fuel (k / 2) p.double)

/-- Whether (r, s) is a signature of a 512-bit hash value under the public key (x, y). -/
def ecdsaOk (x y hash r s : Nat) : Bool :=
  let onCurve := decide (x < ecP) && decide (y < ecP) && y * y % ecP == (x * x * x + (ecP - 3) * x + ecB) % ecP
  if !onCurve || r == 0 || ecN ≤ r || s == 0 || ecN ≤ s then false
  else
    let w := powMod ecN 521 s (ecN - 2)
    let p := (EcPoint.times 521 (hash * w % ecN) ⟨ecGx, ecGy, 1⟩).add (EcPoint.times 521 (r * w % ecN) ⟨x, y, 1⟩)
    let zz := p.z * p.z % ecP
    p.z != 0 && (r * zz % ecP == p.x || (decide (r + ecN < ecP) && (r + ecN) * zz % ecP == p.x))

/-! ## CRC-32C -/

/-- One bit of the reflected Castagnoli polynomial 0x1EDC6F41. -/
def crcBit : Nat → Nat → Nat
  | 0, c => c
  | n + 1, c => crcBit n (if c % 2 == 1 then (c >>> 1) ^^^ 0x82F63B78 else c >>> 1)

/-- CRC-32C of bytes: initial value and final inversion all ones, bits reflected. -/
def crc32c (b : List Byte) : Word :=
  BitVec.ofNat 32 ((b.foldl (fun c x => crcBit 8 (c ^^^ x.toNat)) 0xFFFFFFFF) ^^^ 0xFFFFFFFF)

end Sys2Proof.Machine
end

