-- ==== Sys2Proof/Config.lean ====
section
/-! DEFINITION. What one module fixes (its ordering code, its pattern, its keys) and the free values: constants without a body,
of which nothing can be proved but that they are some value. The log entries name each. -/

namespace Sys2Proof.Config

/-- Free 64-bit values, one for each number the machine's own counter gives (log entry 3). -/
opaque freeDword : Nat → Dword
/-- Free choices among finitely many ways, the number of ways given second (log entry 3). -/
opaque freeChoice : Nat → Nat → Nat
/-- What happens of itself in an idle step: faults of arrays, numbered as Ambient numbers them, with two numbers that place them (log
entry 1). -/
opaque ambient : Nat → Nat × Nat × Nat
/-- Bytes of a scratch that lost its supply: number of the loss and address (R480; log entry 3). -/
opaque lostByte : Nat → Nat → Byte
/-- The special-function unit's choice within its bound: operation and operand (R99; log entry 5). -/
opaque sfuChoice : Nat → Word → Word
/-- Edges an island's clock would have made by a global time, had it always run (R481; log entry 6). -/
opaque edges : Nat → Dword → Nat
/-- How far an island's sample of global time stands from it, as a number of which the remainder by 7 less 3 is in ns (R483; log entry 101). -/
opaque sampleLag : Nat → Nat → Nat
/-- What counter k of a record would have counted by a global time, had it always been enabled (R503, R508; log entry 24). -/
opaque slots : Nat → Nat → Dword → BitVec 48

/-- Burst or block slots of a strand's or a port's record begun by a time (R503). -/
opaque burstSlots : Nat → Dword → Nat
/-- Ordering code: no LPDDR6, 256 GiB or 512 GiB (R584; log entry 7). -/
opaque orderingCode : Fin 3
/-- GiB of LPDDR6 fitted (R584). -/
def lpddrGiB : Nat :=
  match orderingCode with
  | 0 => 0
  | 1 => 256
  | 2 => 512
/-- Bytes of LPDDR6 fitted. -/
def lpddrBytes : Nat :=
  match orderingCode with
  | 0 => 0
  | 1 => 0x4000000000
  | 2 => 0x8000000000
/-- General Category number, 0 to 29, of a code point under a Unicode version (R288; log entry 8). -/
opaque category : Nat → Nat → Nat
/-- Whether the hub firmware holds a Unicode version (R288; log entry 8). -/
opaque unicodeKnown : Nat → Bool
/-- The device key's ECDSA P-521 signature of a digest (R412, R417; log entry 9). -/
opaque deviceSign : BitVec 512 → BitVec 1056
/-- The unique device secret in OTP, which only the Thimble ROM reads (R412; log entry 9). -/
opaque uds : BitVec 512
/-- The secret that a layer derives from its own for the code of the next: HKDF-SHA-512 over the secret and the digest of that code,
whose other inputs the manual does not give (R412; log entry 9). -/
opaque nextSecret : BitVec 512 → BitVec 512 → BitVec 512
/-- The signature of an SPDM transcript under the Alias key that comes from CDI1 (R412, R413; log entry 9). -/
opaque aliasSign : BitVec 512 → List Byte → List Byte
/-- The certificate chain of slot 0, whose last certificate is of the Alias key that comes from CDI1 (R412, R413; log entry 9). -/
opaque certChain : BitVec 512 → List Byte
/-- Value type of a measurement block, seven bits, by its index (R414; log entry 65). -/
opaque measureType : Nat → Nat
/-- SPDM capability, algorithm and key-exchange bytes beyond what R413 names (log entry 9). -/
opaque spdmBytes : Nat → List Byte
/-- Digest of the Thimble ROM (R414; log entry 9). -/
opaque romDigest : BitVec 512
/-- Pattern value of a calibration item, in the unit of its kind (R492, R502; log entry 10). -/
opaque patternValue : Nat → Int
/-- Safe range of a calibration item (R493; log entry 10). -/
opaque patternLow : Nat → Int
opaque patternHigh : Nat → Int
/-- Frequency in MHz of an island at a V-F point other than a core's point 15 (R490; log entry 10). -/
opaque vfMhz : Nat → Nat → Nat
/-- Byte of an LPDDR6 line read under a key that did not write it: address, key that wrote it, key that reads (R242;
log entry 11). -/
opaque unrelatedByte : Nat → Nat → Nat → Byte
/-- Strands a bring-up finds untrained etc. are operands; the vendor ID bytes of configuration space (R397; log entry 9). -/
opaque vendorId : BitVec 16
/-- Whether selective IDE stream k covers function fn: the host's configuration space says so (R380; log entry 22). -/
opaque ideCovers : Nat → Nat → Bool
/-- Width and generation that the host link trained to, each as the number of steps below x16 and 128 GT/s (R359; log entry 54). -/
opaque hostLink : Nat × Nat

/-- Whether the Denfold root certifies a requester key (R395; log entry 9). -/
opaque factoryKey : BitVec 512 → Bool

/-- KV page numbers that firmware gives a partition as it is formed (R297; log entry 23). -/
opaque kvPool : Nat → List Nat

/-- PDR repository records (R563; log entry 12). -/
opaque pdr : Nat → List Byte
/-- TID and versions of the management controller that R562 does not number (log entry 12). -/
opaque mgmtBytes : Nat → List Byte

/-- The number of the PLDM completion code VERIFY_ERROR (R564; log entry 12). -/
opaque verifyError : Byte

/-- Source and source code of the record of another member's failed load, which R532 does not list (R439; log entry 85). -/
opaque memberFailCode : Nat × Nat

end Sys2Proof.Config
end

