-- ==== Sys2Proof/Machine/Bits.lean ====
section
/-! DEFINITION. Bit fields, byte order and saturating counts, used by every other operation. -/

namespace Sys2Proof.Machine

/-- Bits [hi:lo] of a value (the manual's notation). -/
def bits {n : Nat} (v : BitVec n) (hi lo : Nat) : BitVec (hi - lo + 1) := v.extractLsb' lo (hi - lo + 1)

/-- Bit i as a truth value. -/
def bit {n : Nat} (v : BitVec n) (i : Nat) : Bool := v.getLsbD i

/-- Bits [hi:lo] of a natural number. -/
def nbits (v hi lo : Nat) : Nat := v / 2 ^ lo % 2 ^ (hi - lo + 1)

/-- Bits [hi:lo] replaced. -/
def setBits {n : Nat} (v : BitVec n) (hi lo : Nat) (f : Nat) : BitVec n :=
  let m : BitVec n := BitVec.ofNat n ((2 ^ (hi - lo + 1) - 1) * 2 ^ lo)
  (v &&& ~~~m) ||| (BitVec.ofNat n (f * 2 ^ lo) &&& m)

/-- A field value placed at bit lo of a 64-bit register. -/
def fld (f lo : Nat) : Dword := BitVec.ofNat 64 (f * 2 ^ lo)

/-- A truth value as 0 or 1. -/
def b2n (b : Bool) : Nat := if b then 1 else 0

/-- Little-endian bytes of a value (R2). -/
def toBytes (n v : Nat) : List Byte := (List.range n).map fun i => BitVec.ofNat 8 (v / 2 ^ (8 * i))

/-- The value of little-endian bytes (R2). -/
def ofBytes : List Byte → Nat
  | [] => 0
  | b :: r => b.toNat + 256 * ofBytes r

/-- Bytes [i, i + n) of a list, 0 beyond its end. -/
def slice (l : List Byte) (i n : Nat) : List Byte := (List.range n).map fun k => (l[i + k]?).getD 0

/-- The little-endian field of n bytes at byte i. -/
def leAt (l : List Byte) (i n : Nat) : Nat := ofBytes (slice l i n)

/-- Whether bytes [i, i + n) are all 0. -/
def zeroAt (l : List Byte) (i n : Nat) : Bool := (slice l i n).all (· == 0)

/-- A saturating increment by k. -/
def satAdd {n : Nat} (v : BitVec n) (k : Nat) : BitVec n := BitVec.ofNat n (min (v.toNat + k) (2 ^ n - 1))

/-- Saturation of a count at 32 bits. -/
def sat32 (n : Nat) : Nat := min n 0xFFFFFFFF

/-- A signed value read from n bits. -/
def signed (n v : Nat) : Int := if v % 2 ^ n < 2 ^ (n - 1) then (v % 2 ^ n : Int) else (v % 2 ^ n : Int) - 2 ^ n

/-- A lane's bit in a mask. -/
def laneBit (l : Nat) : Mask := BitVec.ofNat 32 (2 ^ l)

/-- The lanes of a mask in ascending order. -/
def lanesOf (m : Mask) : List Nat := (List.range 32).filter fun l => m.getLsbD l

/-- The mask of a list of lanes. -/
def maskOf (ls : List Nat) : Mask := ls.foldl (fun m l => m ||| laneBit l) 0

/-- Number of 1 bits. -/
def popc {n : Nat} (v : BitVec n) : Nat := ((List.range n).filter fun i => v.getLsbD i).length

/-- ⌈a ÷ b⌉. -/
def ceilDiv (a b : Nat) : Nat := (a + b - 1) / b

/-- floor(log2 n) for n above 0. -/
def log2 (n : Nat) : Nat := Nat.log2 n

/-- A list with element i replaced (nothing where i is beyond its end). -/
def upd {α : Type} (l : List α) (i : Nat) (f : α → α) : List α :=
  match l, i with
  | [], _ => []
  | a :: r, 0 => f a :: r
  | a :: r, i + 1 => a :: upd r i f

/-- Element i of a list, d beyond its end. -/
def nth {α : Type} (d : α) (l : List α) (i : Nat) : α := (l[i]?).getD d

/-- The first element's index at which p holds. -/
def findIdx {α : Type} (p : α → Bool) : List α → Option Nat
  | [] => none
  | a :: r => if p a then some 0 else (findIdx p r).map (· + 1)

/-- A list without its element i. -/
def dropAt {α : Type} (l : List α) (i : Nat) : List α := l.take i ++ l.drop (i + 1)

/-- `n` steps of a function. -/
def iter {α : Type} : Nat → (α → α) → α → α
  | 0, _, a => a
  | n + 1, f, a => iter n f (f a)

end Sys2Proof.Machine
end

