-- ==== Sys2Proof/Machine/State.lean ====
section
/-! DEFINITION. The state of the Kalob module as plain data, the reasons a step can stop, and the state after reset.
Sparse tables are lists of (key, value) with rising keys and no entry equal to the value an unlisted key has. -/

namespace Sys2Proof.Machine

/-- A sparse table: keys strictly rising, no entry holding the table's default. -/
abbrev SMap (α : Type) := List (Nat × α)

/-! ## Time (chapter 15) -/

/-- Global time. -/
structure TimeSt where
  /-- Global time in ns, 64 bits, 0 at the release of module reset (R482, R500). -/
  now : Dword := 0
  /-- Whether the release of module reset has started global time (R482, R555). -/
  running : Bool := false
  /-- What the slews of R485 have added, in ns, and what of the last offset they have still to take up (log entry 95). -/
  skew : Int := 0
  slewLeft : Int := 0
  /-- When each core was last seen with what keeps its clock running (R479). -/
  busyAt : SMap Dword := []
  /-- The MODEL'S OWN counter of free values taken so far; not the spec's (log entry 3). -/
  free : Nat := 0
  deriving DecidableEq, Repr

/-! ## Skeins (chapter 2) -/

/-- STATE of a skein slot (R76). -/
inductive SkeinSt where
  | free | loading | running | excHalted | abortHalted | debugHalted | ending
  deriving DecidableEq, Repr

/-- A result that has been issued and not yet written (R47, R120, R121): the register, whether it comes from memory, and the
value of each lane that writes (for a u register, one value under lane 0); whether its data has been read, and whether it
comes from a Stay region (R260). -/
structure Pending where
  dest : RegName
  fromMem : Bool
  vals : List (Nat × Dword)
  ready : Bool := true
  stay : Bool := false
  deriving DecidableEq, Repr

/-- A stitch-counter wait of some threads (R197); `started` once its SWAIT has started, from when its counter is compared
(R113, R264). -/
structure SWait where
  lanes : Mask
  counter : Nat
  target : Dword
  diff : Bool
  satisfied : Bool
  started : Bool := true
  deriving DecidableEq, Repr

/-- State of one thread's xoshiro128** generator (R134). -/
structure Gen where
  s0 : Word := 0
  s1 : Word := 0
  s2 : Word := 0
  s3 : Word := 0
  deriving DecidableEq, Repr

/-- Scope of an outstanding fence (R264). -/
inductive Scope where
  | core | module | system
  deriving DecidableEq, Repr

/-- One skein slot with the skein it holds (R32, R76). -/
structure Skein where
  /-- STATE (R76), reset free. -/
  st : SkeinSt := .free
  /-- BUNDLE (R76). -/
  bundle : BitVec 6 := 0
  /-- INDEX within the bundle (R76). -/
  index : BitVec 5 := 0
  /-- Register units, 1 to 32; UNITS_M1 of R76 is one less; 0 before any skein held the slot. -/
  units : Nat := 0
  /-- CAUSE (R76, R63). -/
  cause : Byte := 0
  /-- EXC_MASK (R76). -/
  excMask : Mask := 0
  /-- SKN_EXC_PC (R77). -/
  excPc : Dword := 0
  /-- SKN_EXC_ADDR (R77). -/
  excAddr : Dword := 0
  /-- Lanes that hold a thread (R38 LAST_THREADS). -/
  lanes : Mask := 0
  /-- EXITED of SKN_THREADS (R77). -/
  exited : Mask := 0
  /-- Threads waiting at a knot, KNOT_WAIT of SKN_THREADS (R77), with the knot (0 to 15 of the core) and the KNOT.WAIT's
  program counter (R61). -/
  knotWait : SMap (Nat × Dword) := []
  /-- Threads held by a second arrival in one phase (R58): knot, whether KNOT.WAIT, the program counter. -/
  knotHeld : SMap (Nat × Bool × Dword) := []
  /-- Program counters, 64 bits per lane (R32, R77). -/
  pc : SMap Dword := []
  /-- Thread registers, 32 bits, key lane × 256 + register (R33, R34). -/
  x : SMap Word := []
  /-- Uniform registers u0 to u63, 64 bits (R53). -/
  u : SMap Dword := []
  /-- Predicates p0 to p7 of a lane as bits 0 to 7 (R54). -/
  p : SMap Byte := []
  /-- Generators by lane (R134). -/
  gen : SMap Gen := []
  /-- Starvation counts by lane (R48). -/
  starve : SMap Nat := []
  /-- Yield back-off: issue opportunities left by lane (R50). -/
  backoff : SMap Nat := []
  /-- Lanes held by a stall hint, with the core cycle count at which they are runnable again (R50). -/
  stall : List (Mask × Dword) := []
  /-- Results issued and not written, oldest first (R47, R120). -/
  pend : List Pending := []
  /-- Stitch-counter waits (R197). -/
  waits : List SWait := []
  /-- The outstanding fence (R264, R113). -/
  fence : Option Scope := none
  /-- Lanes held by an INVAL of L2 (R113). -/
  invalHold : Mask := 0
  /-- Decoded instructions by program counter (R46, R230). -/
  decoded : List (Dword × IWord) := []
  /-- LOST of SKN_FLAGS (R78). -/
  lost : Bool := false
  /-- Dead modules for which this skein has written its record (R281). -/
  lostTo : List Nat := []
  /-- The bundle was aborted and this skein has not yet reached its next issue boundary (R64). -/
  abortPending : Bool := false
  /-- Lanes whose BRK at the present program counter acts as NOP after RESUME (R91). -/
  brkPass : Mask := 0
  deriving DecidableEq, Repr

/-! ## Launches, bundles, knots (chapter 2) -/

/-- A queued launch (R37): who wrote it, the descriptor address, and the partition whose step the Order Book engine
launched it for, if it did (R304). -/
structure LaunchReq where
  writer : LaunchWriter
  desc : Dword
  /-- The Order Book engine's: the partition and the step that it is for (R304). -/
  ob : Option (Nat × Word) := none
  deriving DecidableEq, Repr

/-- A launch descriptor that was read and passed its check (R38, R39), with the uniform values of its UINIT block. -/
structure LaunchDesc where
  desc : Dword
  entry : Dword
  skeins : Nat
  lastThreads : Nat
  regUnits : Nat
  knots : Nat
  uinit : List Dword
  counter : Nat
  counterEn : Bool
  add : Word
  wdogUs : Nat
  endAddr : Dword
  deriving DecidableEq, Repr

/-- BSTATE (R74). -/
inductive BSt where
  | free | running | aborted
  deriving DecidableEq, Repr

/-- A bundle ID with the bundle it names (R39, R74). -/
structure Bundle where
  st : BSt := .free
  /-- CAUSE (R74). -/
  cause : Byte := 0
  /-- FIRST_SLOT (R74). -/
  firstSlot : SlotId := 0
  /-- LAUNCH_SEQ (R74). -/
  seq : Word := 0
  /-- The descriptor of the present or last bundle under this ID (R38); SKEINS_M1 shows its SKEINS − 1. -/
  desc : Option LaunchDesc := none
  /-- Aborted, and the end of R43 (end word, knots, counter) still to come. -/
  aborting : Bool := false
  /-- The Order Book engine launched it for a list of this partition's step of this number (R304, R321). -/
  obPart : Option (Nat × Word) := none
  deriving DecidableEq, Repr

/-- One knot (R56, R73). -/
structure Knot where
  /-- ALLOC and OWNER (R73). -/
  owner : Option (BitVec 6) := none
  /-- The number the bundle knows the knot by (R56). -/
  local_ : Nat := 0
  phase : Bool := false
  wdogUs : BitVec 16 := 0x2710
  participants : Nat := 0
  /-- Threads arrived in this phase, key slot × 32 + lane; ARRIVED of R73 is their number (R57, R58). -/
  arrived : List Nat := []
  /-- EXITED (R73). -/
  exited : Nat := 0
  /-- Global time of the first arrival of the phase (R61). -/
  firstAt : Option Dword := none
  /-- Time elapsed before the present pause, and the start of the pause (R61). -/
  pausedAt : Option Dword := none
  deriving DecidableEq, Repr

/-! ## M-slot queue and store buffer (chapters 3 and 8) -/

/-- One lane's access of an M-slot operation: where it goes, under which LPDDR6 key, the region's TYPE (0 Normal, 1 Stream,
2 Stay, 3 own scratch, 4 another module, whose address is global), and the bytes it stores. Addresses are otherwise local.
`later` marks a part of a store that is an access of its own after the one before it (R260, R273): other agents' accesses may come
between. -/
structure LaneAcc where
  lane : Nat
  addr : Nat
  key : Nat
  typ : Nat
  data : List Byte := []
  later : Bool := false
  deriving DecidableEq, Repr

/-- What an M-slot operation does at its start, once its checks have passed (R109). -/
inductive MAct where
  /-- load: register, size in bytes, sign-extend, the lanes in order, hint -/
  | load (dest : RegName) (size : Nat) (signed : Bool) (accs : List LaneAcc) (hint : Nat)
  /-- store: size in bytes, the lanes in order, hint -/
  | store (size : Nat) (accs : List LaneAcc) (hint : Nat)
  /-- atomic: MOP, 64-bit, MSUB, MD; each lane's operand bytes (for CAS, compare value before the new one) -/
  | atom (mop : Nat) (wide : Bool) (msub : BitVec 3) (md : BitVec 8) (accs : List LaneAcc)
  /-- fence (R264) -/
  | fence (scope : Scope)
  /-- stitch counter addition (R109) -/
  | scadd (counter : Nat) (value : Dword)
  /-- stitch-counter wait (R197): threads, counter, target, DIFF -/
  | swait (lanes : Mask) (counter : Nat) (target : Dword) (diff : Bool)
  /-- prefetch (R111, R229): target, local addresses and hint -/
  | pref (target : Nat) (addrs : List Nat) (hint : Nat)
  /-- invalidate (R230): target -/
  | inval (target : Nat)
  deriving DecidableEq, Repr

/-- An entry of a core's M-slot queue (R113); `started` when a part of its store has been performed (R284). -/
structure MEntry where
  slot : SlotId
  act : MAct
  started : Bool := false
  deriving DecidableEq, Repr

/-- A load that has started and whose data has not all been read (R224, R257, R273). -/
structure LoadEnt where
  slot : SlotId
  /-- PARTITION byte of its core, the owner tag of its fills (R226). -/
  part : Nat
  dest : RegName
  size : Nat
  signed : Bool
  hint : Nat
  accs : List LaneAcc
  /-- Parts read so far: lane, offset within the access, bytes. -/
  got : List (Nat × Nat × List Byte) := []
  /-- An INVAL of L1D came while it was outstanding: its data does not allocate there (R230). -/
  noFill : Bool := false
  deriving DecidableEq, Repr

/-- A prefetch whose fill is outstanding (R229): owner, line, target and hint. -/
structure PrefFill where
  part : Nat
  line : Nat
  target : Nat
  hint : Nat
  deriving DecidableEq, Repr

/-- One store-buffer entry: a 128-byte line at a global physical address (R253, R254). -/
structure SbEntry where
  /-- Entry number, 0 to 31, that ETAG carries (R427). -/
  no : Nat
  /-- Global address ÷ 128 (module ID included). -/
  line : Nat
  /-- Bytes held, (offset, byte). -/
  bytes : SMap Byte
  /-- Open to further stores (R254). -/
  isOpen : Bool
  /-- Slots whose stores it holds. -/
  slots : List Nat
  /-- LPDDR6 key of the store that allocated it: 0 the module key, else the number of a client's key (R242); and by offset, the
  keys of bytes stored under another. -/
  key : Nat
  keys : SMap Nat := []
  /-- The core's cycle count when it was allocated (R254). -/
  since : Dword := 0
  /-- MHINT of the store that allocated it (R228), and whether the region is Normal. -/
  hint : Nat
  normal : Bool
  deriving DecidableEq, Repr

/-- A remote write of a core that has been sent and not yet acknowledged (R428, R264). -/
structure Unacked where
  /-- Store-buffer entry number of its ETAG (R427). -/
  no : Nat
  slots : List Nat
  dst : Nat
  addr : Nat
  /-- Time at which it was sent (R435). -/
  at_ : Dword := 0
  deriving DecidableEq, Repr

/-- A leaf of a partition's translation (R216): page address and size, TYPE, W, X, and the key its LPDDR6 accesses use
(0 the module key). -/
structure Leaf where
  addr : Nat
  size : Nat
  typ : Nat
  w : Bool
  x : Bool
  key : Nat
  deriving DecidableEq, Repr

/-! ## Caches (chapter 7) -/

/-- A way of a set: tag, and for L1I the 128 data bytes (R221) with the key that read them (R242); for L2 owner tag and dirty
(R226). -/
structure Way where
  tag : Nat
  data : List Byte := []
  key : Nat := 0
  owner : Nat := 16
  dirty : Bool := false
  /-- What memory still holds under a dirty line: its bytes, and the key that wrote them (R226, R242, R243). -/
  mem : List Byte := []
  memKey : Nat := 0
  /-- Cores that may hold the line in L1D: up to four exact IDs, beyond that one bit for each group of 16 cores (R223). -/
  sharers : List Nat := []
  groups : BitVec 64 := 0
  deriving DecidableEq, Repr

/-- A set: its ways and its tree bits b[1] to b[7] (R227). -/
structure CacheSet where
  ways : SMap Way := []
  tree : Byte := 0
  deriving DecidableEq, Repr

/-- A cache: its sets and its 16-bit LFSR, 0xACE1 at reset (R227). -/
structure Cache where
  sets : SMap CacheSet := []
  lfsr : BitVec 16 := 0xACE1
  deriving DecidableEq, Repr

/-! ## Hoops (chapters 4 and 5) -/

/-- State of a weight plane (R180). -/
inductive PlaneSt where
  | empty | loading | loaded | failed
  deriving DecidableEq, Repr

/-- A patch entry (R146). -/
structure Patch where
  row : Nat
  col : Nat
  value : BitVec 16
  deriving DecidableEq, Repr

/-- A weight plane (R154). -/
structure Plane where
  st : PlaneSt := .empty
  /-- HFMT of the last HWLD (R180). -/
  fmt : BitVec 3 := 0
  /-- Codebook slot copied, and its 16 entries (R177). -/
  cbSlot : BitVec 4 := 0
  cb : List (BitVec 16) := []
  /-- Element codes, key row × 64 + column (R155). -/
  w : SMap (BitVec 16) := []
  /-- Block exponents, key 2 × row + block (R145, R159). -/
  exps : SMap Byte := []
  patches : List Patch := []
  /-- Address of the last tile loaded (R183). -/
  tile : Nat := 0
  deriving DecidableEq, Repr

/-- Mode of a bank (R170). -/
inductive BankMode where
  | none | fp32 | int32
  deriving DecidableEq, Repr

/-- An accumulator bank: cells, key j × 32 + n (R154). -/
structure Bank where
  /-- State failed (R183); idle, filling and draining follow from the operations queued and running. -/
  failed : Bool := false
  mode : BankMode := .none
  cells : SMap Word := []
  deriving DecidableEq, Repr

/-- A queued or started hoop operation (R163, R165). -/
inductive HKind where
  | wld | patch | passG | passX | drain
  deriving DecidableEq, Repr

/-- A hoop operation with what it took at issue. -/
structure HOp where
  kind : HKind
  fmt : BitVec 3
  bank : BitVec 1
  plane : BitVec 1
  acc : Bool
  rows : Nat
  addr : Nat
  pitch : Nat
  /-- HAUX. -/
  aux : BitVec 16
  /-- A pass across the grain on a K4 plane, which has both banks as destinations (R155, R164). -/
  two : Bool := false
  /-- Codebook copied at issue of a K4 HWLD (R177). -/
  cb : List (BitVec 16) := []
  /-- Exponent shadow base at issue (R181). -/
  expBase : Nat
  /-- Skein slot and bundle that issued it (R184). -/
  slot : SlotId
  bundle : BitVec 6
  /-- Issue order within the hoop (R175). -/
  seq : Nat
  deriving DecidableEq, Repr

/-- A feeder tile buffer that holds the rows of a decoded HPASS not yet issued: which one, and the tile's address (R167). -/
structure Feed where
  slot : SlotId
  pc : Dword
  addr : Nat
  /-- Address of an uncorrectable activation row (R183). -/
  ue : Option Nat := none
  deriving DecidableEq, Repr

/-- A joined hoop (sub-hoop 0), or one 16×16 sub-hoop (R175). -/
structure SubHoop where
  /-- LAST_WAIT of its HOOP_STATE (R168, R180). -/
  lastWait : BitVec 6 := 0
  plane0 : Plane := {}
  plane1 : Plane := {}
  bankA : Bank := {}
  bankB : Bank := {}
  /-- Queued operations, at most four, oldest first (R163). -/
  queue : List HOp := []
  /-- Started operations, oldest first (R165). -/
  running : List HOp := []
  /-- Feeder tile buffers in use, at most two (R154, R167). -/
  feeder : List Feed := []
  deriving DecidableEq, Repr

/-- One hoop (R154). -/
structure Hoop where
  split : Bool := false
  quar : Bool := false
  subs : List SubHoop := [{}, {}, {}, {}]
  /-- Times of faults under R183 within the window of R536. -/
  faults : List Dword := []
  /-- H-slot operations issued to the hoop. -/
  issued : Nat := 0
  deriving DecidableEq, Repr

/-! ## Shuttles (chapter 6) -/

/-- A shuttle descriptor (R186). -/
structure Desc where
  src : Dword
  dst : Dword
  xbytes : Nat
  ycount : Nat
  zcount : Nat
  systride : Int
  szstride : Int
  dystride : Int
  dzstride : Int
  dcnt : Dword
  add : Word
  scnt : Nat
  skind : Nat
  dkind : Nat
  dmode : Nat
  scntEn : Bool
  tag : BitVec 16
  deriving DecidableEq, Repr

/-- A granule of a local copy that has been issued and has not landed (R190): its number, its place (local address, key, TYPE), and
its source bytes. -/
structure Flight where
  gran : Nat
  addr : Nat
  key : Nat
  typ : Nat
  data : List Byte
  deriving DecidableEq, Repr

/-- A queued descriptor and how far it has come (R191, R193). -/
structure ShEntry where
  desc : Desc
  /-- Partition it was issued from (its translation). -/
  part : Nat
  /-- Queue slot, 0 to 15, that ETAG carries (R427). -/
  slotNo : Nat
  started : Bool := false
  /-- Granules issued so far; those that landed; those sent to another module and not answered, oldest first; those that the
  destination refused (R190, R428). -/
  issued : Nat := 0
  landed : List Nat := []
  out : List Nat := []
  /-- Times at which the packets of `out` were sent (R435). -/
  outAt : List Dword := []
  refused : List Nat := []
  flight : List Flight := []
  /-- The DONE addition is made or sent; of a faulted descriptor, its settlement (R189, R201, R262). -/
  done : Bool := false
  /-- The source counter's addition is made (R189). -/
  srcDone : Bool := false
  /-- Fault found: code and address (R200). -/
  fault : Option (Nat × Dword) := none
  deriving DecidableEq, Repr

/-- One queue of an engine (R191, R206). -/
structure ShQueue where
  entries : List ShEntry := []
  discarded : BitVec 16 := 0
  faults : BitVec 16 := 0
  refused : BitVec 16 := 0
  lastRefusal : Byte := 0
  deriving DecidableEq, Repr

/-- One shuttle engine (R191, R207). -/
structure Engine where
  queues : List ShQueue := [{}, {}, {}, {}]
  faultTag : BitVec 16 := 0
  faultCode : Byte := 0
  faultQueue : BitVec 2 := 0
  faultAddr : Dword := 0
  quar : Bool := false
  deriving DecidableEq, Repr

/-- One core (R11). -/
structure Core where
  /-- Launch queue, at most 16 (R37). -/
  launchQ : List LaunchReq := []
  /-- Stay stores of skeins waiting for a queue entry (R37). -/
  launchWait : List LaunchReq := []
  /-- The head launch once read and checked, with its request (R39). -/
  head : Option LaunchDesc := none
  /-- LAST_REFUSAL and REFUSED (R70). -/
  lastRefusal : Byte := 0
  refused : BitVec 16 := 0
  /-- Admissions since reset (R74). -/
  launchSeq : Word := 0
  knots : List Knot := List.replicate 16 {}
  bundles : SMap Bundle := []
  skeins : SMap Skein := []
  /-- Slot selected last (R45). -/
  lastSlot : SlotId := 63
  mq : List MEntry := []
  /-- Loads started and not yet read, oldest first, and prefetches with their fills outstanding (R224, R229). -/
  lq : List LoadEnt := []
  prefs : List PrefFill := []
  sb : List SbEntry := []
  /-- Remote stores awaiting acknowledgement (R264). -/
  unacked : List Unacked := []
  l1d : Cache := {}
  l1i : Cache := {}
  /-- Cached translations of the core, at most 256: virtual page of 64 KiB, and the leaf (R218; log entry 14). -/
  tlb : List (Nat × Leaf) := []
  hoops : List Hoop := [{}, {}, {}, {}]
  /-- BASE of HOOP_EXP_BASE (R181). -/
  expBase : BitVec 15 := 0x5D00
  /-- Codebook entries, key slot × 16 + entry (R141, R182). -/
  cb : SMap (BitVec 16) := []
  /-- Stitch counters and FAULT bits (R196). -/
  cnt : SMap Dword := []
  cntFault : BitVec 256 := 0
  /-- Remote module of the last remote addition, by counter, plus one (R522). -/
  cntRemote : SMap Nat := []
  engines : List Engine := [{}, {}]
  /-- CORE_QUAR and HELD of ERR_QMAP (R549). -/
  quar : Bool := false
  held : Bool := false
  /-- Time the core was held for quarantine (R537). -/
  quarAt : Option Dword := none
  /-- Uncorrectable events within the window of R536. -/
  ues : List Dword := []
  /-- A core reset drains: its start, M-slot operations and launches discarded (R284). -/
  draining : Option (Dword × Nat × Nat) := none
  /-- Its registers hold no defined state since it was gated, until a scrub or core reset (R480). -/
  uninit : Bool := false
  /-- Its scratch likewise, until a scrub; the number of the free values it holds (log entry 3). -/
  lostScratch : Option Nat := none
  deriving DecidableEq, Repr

/-! ## Memory system (chapter 7) -/

/-- One strand (R231 to R238, R248). -/
structure Strand where
  /-- HELD for a recalibration, and for fitting (R234, R248, R542). -/
  held : Bool := false
  fitHeld : Bool := false
  /-- Address of the block that the controller reads once more after the recalibration it asked for (R234). -/
  retry : Option Nat := none
  hot : Bool := false
  lastUe : BitVec 36 := 0
  /-- Did not train (R559). -/
  failed : Bool := false
  deriving DecidableEq, Repr

/-- One LPDDR6 channel (R239, R249). -/
structure LpdChan where
  size : BitVec 2 := 0
  rate : BitVec 2 := 0
  ready : Bool := false
  powerDown : Bool := false
  /-- Time of its last access, and self-refresh: before training and while its island is gated (R239; log entry 96). -/
  lastAt : Dword := 0
  selfRefresh : Bool := true
  deriving DecidableEq, Repr

/-- The memory system. -/
structure MemSt where
  /-- Bytes of stacked memory, LPDDR6 and scratch by local address; unlisted reads 0 (log entry 4). -/
  bytes : List Host.Cell := []
  /-- Writes and write-backs to stacked memory whose transfer may still fail, newest first, at most 64: address of the 64-byte block, what
  the block held before, owner tag of the write (R233 to R235). -/
  writes : List (Nat × List Byte × Nat) := []
  /-- Addresses ÷ 8 of words that cannot be corrected (R211, R243). -/
  damaged : List Nat := []
  /-- Key that wrote an LPDDR6 line, by line: 0 the module key, else the number of a client's key (R242, R404). -/
  lineKey : SMap Nat := []
  /-- L2 slices (R225). -/
  l2 : SMap Cache := []
  /-- L2 ways under test (R542): slice and way. -/
  l2Test : Option (Nat × Nat) := none
  strands : SMap Strand := []
  lpd : List LpdChan := List.replicate 16 {}
  /-- A channel did not train: the module runs without LPDDR6 (R559). -/
  lpdOff : Bool := false
  /-- STR_ILV and whether its first write has come (R246). -/
  ilv : Dword := 0
  ilvSet : Bool := false
  /-- STR_ARB weights (W1, W2, W3) of each die (R247). -/
  arb : List (Byte × Byte × Byte) := List.replicate 4 (8, 4, 4)
  deriving DecidableEq, Repr

/-! ## Order Book (chapters 9 and 10) -/

/-- ESTATE (R294). -/
inductive ESt where
  | free | admission | queued | prefill | decode | preempted | closing
  deriving DecidableEq, Repr

/-- Why a sequence was pre-empted (R343). -/
inductive Trigger where
  | host | pages
  deriving DecidableEq, Repr

/-- A copy of KV pages in progress for a sequence (R346, R348). -/
inductive CopySt where
  | none | demoting | promoting
  deriving DecidableEq, Repr

/-- One Order Book entry (R292) with the hub's record beside it (R343). -/
structure Entry where
  st : ESt := .free
  priority : BitVec 4 := 0
  client : BitVec 12 := 0
  part : BitVec 4 := 0
  /-- FLAGS (R293). -/
  toileNext : Bool := false
  toileUsed : Bool := false
  wasPreempted : Bool := false
  truncated : Bool := false
  cancelPending : Bool := false
  pageHold : Bool := false
  strike : Bool := false
  textIn : Bool := false
  tag : Word := 0
  statusAddr : Dword := 0
  outTokAddr : Dword := 0
  outTxtAddr : Dword := 0
  outTokCap : Nat := 0
  outTxtCap : Nat := 0
  firstDl : Dword := 0
  interDl : Nat := 0
  maxTokens : Nat := 0
  position : Nat := 0
  /-- TREE_N node words of nodes 1 to 31, key node (R309); TREE_N and TREE_DEPTH of POS. -/
  treeN : Nat := 0
  treeDepth : Nat := 0
  tree : SMap Word := []
  promptLen : Nat := 0
  kvdir : Dword := 0
  sideAddr : Dword := 0
  temp : Word := 0
  topP : Word := 0
  topK : Nat := 0
  /-- SIDE_N (R292). -/
  sideN : BitVec 16 := 0
  lastToken : Nat := 0
  accTokens : Nat := 0
  accToile : Nat := 0
  accWait : Nat := 0
  preempts : Nat := 0
  lag : Nat := 0
  admitTime : Dword := 0
  lastTime : Dword := 0
  /-- Hub record: trigger of the pre-emption (R343). -/
  trigger : Option Trigger := none
  /-- Resumed by the engine and no token written since (R344). -/
  freshResume : Bool := false
  /-- KV page copy in progress (R346, R348). -/
  copy : CopySt := .none
  /-- Host asked to resume (R348). -/
  resumeAsked : Bool := false
  /-- Pool pages taken for its demoted pages as it resumes (R348). -/
  targets : List Nat := []
  /-- Pre-emption decided while a step runs (R322). -/
  preemptPending : Bool := false
  /-- Main pages by j and the directory page, local addresses (R298); KV_PAGES of R292 is the number of main pages. -/
  pages : SMap Nat := []
  treePages : List Nat := []
  /-- Size of its side area in KiB (R294); 0 while it has none. -/
  sideKib : Nat := 0
  /-- Prompt text, and whether its tokens are known; prompt token IDs (R289). -/
  text : List Byte := []
  prompt : List Nat := []
  /-- Parameter block bytes 0 to 839 for the side block (R295, R371). -/
  sideBytes : List Byte := []
  /-- Text stream of the sequence so far, for stop strings (R291). -/
  stream : List Byte := []
  /-- Time the present wait began (R351). -/
  waitFrom : Option Dword := none
  /-- Order in which sequences reached QUEUED (R308). -/
  queuedSeq : Nat := 0
  /-- Status word last written, and when (R376). -/
  status : Dword := 0
  statusAt : Dword := 0
  /-- Ending code of a pending cancel (R320, R322). -/
  endCode : Nat := 0
  /-- Function whose ring it came from. -/
  fn : Nat := 0
  deriving DecidableEq, Repr

/-- A client account (R350). -/
structure Account where
  waitTotal : Dword := 0
  waitMax : Word := 0
  preempts : Word := 0
  tokens : Dword := 0
  toileTokens : Dword := 0
  firstMisses : Word := 0
  interMisses : Word := 0
  ended : Word := 0
  hist : SMap Word := []
  since : Dword := 0
  deriving DecidableEq, Repr

/-- One prediction entry (R336, R357). -/
structure Pred where
  seen : Bool := false
  run : Nat := 0
  pred : Nat := 0
  deriving DecidableEq, Repr

/-- One row of a cutting list (R301). -/
structure Row where
  seq : Nat
  kind : Nat
  sample : Bool
  toile : Bool
  position : Nat
  node : Nat
  parent : Nat
  depth : Nat
  token : Nat
  base : Nat
  deriving DecidableEq, Repr

/-- A published list: LKIND, its rows, its publication time and P of its key (R300, R336). -/
structure CutList where
  /-- RESULT_ADDR, and the list's step (R300). -/
  result : Nat
  lkind : Nat
  rows : List Row
  publishAt : Dword
  deriving DecidableEq, Repr

/-- Phase of a partition's step (R330). -/
inductive StepPhase where
  | idle | draft | main | updating
  deriving DecidableEq, Repr

/-- The Order Book's and monitor's state of one partition (R328 to R332, R355 to R358). -/
structure PtnOb where
  stepLimitMs : BitVec 16 := 0
  passesM1 : BitVec 5 := 31
  treeRows : BitVec 6 := 1
  solo : Bool := false
  soloAuto : Bool := false
  soloSeq : BitVec 14 := 0
  listBase : Dword := 0
  resultBase : Dword := 0
  step : Word := 0
  phase : StepPhase := .idle
  rows : Nat := 0
  aborts : BitVec 16 := 0
  /-- Free pool pages, local addresses (R297, R332). -/
  pool : List Nat := []
  /-- The running list, and the main list of a step whose draft list runs (R304). -/
  running : Option CutList := none
  mainNext : List Row := []
  /-- Which of the two buffers the next list takes (R300, R329). -/
  toggle : Bool := false
  /-- TREE, TREE_N and TREE_DEPTH before the step's draft list, by sequence: an aborted step leaves them so (R321). -/
  backup : List (Nat × SMap Word × Nat × Nat) := []
  /-- TREE_ROWS and the step limit in ms as the step's lists were built (R328). -/
  listTree : Nat := 1
  listLimit : Nat := 100
  /-- PASSES of the step's draft list and its measured segment in ns (R337). -/
  draftSeg : Option (Nat × Nat) := none
  /-- A step aborted and the cores are being reset; nothing is published until no launched bundle runs (R321). -/
  waitBundles : Bool := false
  /-- Sequences listed in the present step (R321). -/
  listed : List Nat := []
  /-- The running segment spans a forward step of global time and is discarded (R486). -/
  segSkewed : Bool := false
  /-- OB_PTN_DEMOTE (R358). -/
  demotePages : BitVec 16 := 0
  demoteBase : BitVec 27 := 0
  /-- The window as read at the last pre-emption: PAGES and the virtual base (R358). -/
  winPages : Nat := 0
  winBase : Nat := 0
  /-- Demotion pages in use: window index, sequence, local address (R346). -/
  demoteUsed : List (Nat × Nat × Nat) := []
  /-- DLM_PTN_CFG (R355). -/
  marginUs : BitVec 16 := 0x64
  cold : BitVec 12 := 0x14
  hyst : BitVec 4 := 8
  /-- HYST as the last evaluation took it (R355). -/
  hystNow : BitVec 4 := 8
  nofall : Bool := false
  /-- DLM_PTN_STAT (R356). -/
  demoted : BitVec 16 := 0
  misses : BitVec 16 := 0
  fallbacks : BitVec 20 := 0
  lastPred : BitVec 12 := 0
  /-- Prediction entries by the index of R353. -/
  preds : SMap Pred := []
  /-- Barrier of the step after the last go: children that arrived, own arrival sent; the last step that go named (R441). -/
  barrierKids : List Nat := []
  barrierSent : Bool := false
  goStep : Word := 0
  deriving DecidableEq, Repr

/-- PHASE of OB_IMAGE_STATE (R29). -/
inductive ImgPhase where
  | empty | staging | active | draining | switching | failed
  deriving DecidableEq, Repr

/-- A running LOAD_IMAGE (R23, R374). -/
structure Load where
  fn : Nat
  tag : Word
  src : Dword
  length : Nat
  id : BitVec 32
  drainMs : Nat
  /-- Drain first, then stage (R26). -/
  drainFirst : Bool
  drainAt : Option Dword := none
  staged : Option ModelImage := none
  /-- An FLR of PF0 ended the command; the switch completes without it (R382). -/
  orphan : Bool := false
  deriving DecidableEq, Repr

/-- The Order Book engine (R287 to R332) and client accounts. -/
structure ObSt where
  entries : SMap Entry := []
  ptn : List PtnOb := List.replicate 16 {}
  phase : ImgPhase := .empty
  lastCode : BitVec 12 := 0
  image : Option ModelImage := none
  /-- LENGTH of the active image (R26). -/
  imageLen : Nat := 0
  load : Option Load := none
  /-- How the loads of the members of the group stand, by local ID, as last heard (R439). -/
  memberLoads : List MemberLoad := []
  /-- OB_SIDE (R327) and whether its first write has come. -/
  sideSize : BitVec 24 := 0
  sideBase : BitVec 30 := 0
  sideSizeSet : Bool := false
  sideBaseSet : Bool := false
  peekSel : BitVec 14 := 0
  peek : Entry := {}
  acctSel : BitVec 12 := 0
  acctPeek : Account := {}
  accts : SMap Account := []
  /-- Numbers given to sequences as they reach QUEUED (R308). -/
  queuedCtr : Nat := 0
  /-- Publication held by a firmware activation (R545). -/
  hold : Bool := false
  deriving DecidableEq, Repr

/-! ## Host interface (chapter 11) -/

/-- A ring (R367, R388). -/
structure Ring where
  base : BitVec 52 := 0
  log2 : BitVec 4 := 4
  enable : Bool := false
  tail : BitVec 12 := 0
  head : BitVec 12 := 0
  consumed : Word := 0
  err : Bool := false
  deriving DecidableEq, Repr

/-- One function's page (R385, R386, R387). -/
structure FnSt where
  exc : Bool := false
  lost : Bool := false
  abort : Bool := false
  violations : BitVec 16 := 0
  exceptions : BitVec 16 := 0
  lastCause : Byte := 0
  vbase : BitVec 18 := 0
  bar2En : Bool := false
  /-- VF enabled (R360); PF0 once configuration space is ready (R557). -/
  enabled : Bool := false
  /-- In D3hot: it answers configuration requests only (R359, R383). -/
  d3hot : Bool := false
  /-- Limits set in its configuration space, in bytes, and the completion timeout range, 0 the default of 50 ms (R359). -/
  maxPayload : Nat := 128
  maxRead : Nat := 512
  timeoutRange : Nat := 0
  /-- Advisory errors that AER holds: UR and CA (R384). -/
  aerUr : Bool := false
  aerCa : Bool := false
  req : Ring := {}
  cmd : Ring := {}
  deriving DecidableEq, Repr

/-- An entry read from a ring and not yet acted on (R368). -/
structure InEntry where
  fn : Nat
  ring : Nat
  /-- Host address of the entry. -/
  addr : Nat
  bytes : List Byte
  deriving DecidableEq, Repr

/-- What a live command is (R373). -/
inductive CmdKind where
  | reduce | loadImage | fit | calibrate | measure | tangle | fwActivate
  deriving DecidableEq, Repr

/-- A live long command and its status word (R373, R375). -/
structure LiveCmd where
  fn : Nat
  tag : Word
  kind : CmdKind
  statusAddr : Dword
  state : BitVec 4
  code : BitVec 12
  count : Word
  statusAt : Dword
  deriving DecidableEq, Repr

/-- What the module sends to the host, newest first. -/
inductive HostOut where
  /-- posted Memory Write of function fn (R376, R377) -/
  | write (fn : Nat) (addr : Dword) (bytes : List Byte)
  /-- MSI-X message (R379) -/
  | msix (fn vector : Nat)
  /-- completion of a BAR or configuration request: status 0 success, 1 UR, 2 CA, 3 Request Retry (R384, R557) -/
  | completion (fn : Nat) (status : Nat) (bytes : List Byte)
  deriving DecidableEq, Repr

/-- A vector's hold-off: the time its 10 µs interval ends, and whether an event fell within it (R379). -/
structure MsixSt where
  until_ : Option Dword := none
  merged : Bool := false
  deriving DecidableEq, Repr

/-- State of an IDE stream (R380). -/
inductive IdeSt where
  | insecure | keyed | secure
  deriving DecidableEq, Repr

/-- The PCI Express controller (R359 to R389). -/
structure HifSt where
  fns : List FnSt := List.replicate 17 {}
  win : BitVec 5 := 0
  bar2Base : BitVec 17 := 0
  /-- Aperture sizes in GiB: PF0 4, VFs 1 at reset (R363). -/
  bar2Size : Nat := 4
  vfBar2Size : Nat := 1
  inbox : List InEntry := []
  cmds : List LiveCmd := []
  out : List HostOut := []
  /-- Hold-off by fn × 16 + vector (R379). -/
  msix : SMap MsixSt := []
  ide : List IdeSt := List.replicate 5 .insecure
  /-- Configuration space of PF0 is ready (R557). -/
  configReady : Bool := false
  deriving DecidableEq, Repr

/-! ## Partitions and the Thimble (chapter 12) -/

/-- PSTATE of a partition (R419). -/
inductive PSt where
  | unformed | formed | draining | scrubbing
  deriving DecidableEq, Repr

/-- An admission range (R408, R419). -/
structure Admit where
  en : Bool := false
  hi : BitVec 17 := 0
  lo : BitVec 17 := 0
  deriving DecidableEq, Repr

/-- A landing window (R446, R448). -/
structure Landing where
  en : Bool := false
  base : BitVec 26 := 0
  limit : BitVec 26 := 0
  deriving DecidableEq, Repr

/-- An UNBIND in progress: its start (R394). -/
structure UnbindSt where
  since : Dword
  drained : Bool
  deriving DecidableEq, Repr

/-- One partition (R390, R419, R244, R446). -/
structure Ptn where
  st : PSt := .unformed
  /-- SEALED of PTN_SCRATCH_MODE (R212, R244). -/
  sealed_ : Bool := false
  /-- SEALED as firmware has written it in PSTATE 3, before the zeroing that it waits for (R213, R244). -/
  sealedNext : Option Bool := none
  /-- The quadrants of its mask (R390). -/
  quads : BitVec 16 := 0
  bound : Bool := false
  optin : Bool := false
  sendEn : Bool := false
  admission : List Admit := List.replicate 8 {}
  land : List Landing := List.replicate 4 {}
  xlatBase : Dword := 0
  xlatBusy : Bool := false
  /-- Valid leaves that firmware has replaced or removed since the last invalidation: virtual address and leaf. A core or a shuttle may
  still use one (R218; log entry 14). -/
  oldLeaves : List (Nat × Leaf) := []
  /-- Tenant credential: SHA-512 of the key (R395). -/
  tenantKey : Option (BitVec 512) := none
  unbind : Option UnbindSt := none
  /-- The partition log: slots, WRITTEN, PTN_RECORDS (R534, R549). -/
  written : Word := 0
  ptnRecords : BitVec 4 := 0
  deriving DecidableEq, Repr

/-- A FORM in progress (R392). -/
structure FormSt where
  masks : List (BitVec 16)
  sealed_ : List Bool
  drainMs : Nat
  since : Dword
  affected : List Nat
  scrubbing : Bool
  deriving DecidableEq, Repr

/-- Lifetime storage: one-time-programmable bits (R400, R402, R410, R492, R495). Survives everything (R551). -/
structure Otp where
  /-- Owner key slots written, oldest first; all ones is released (R400). -/
  owners : List (BitVec 512) := []
  /-- Debug policy: 0 open, 1 restricted, 2 sealed (R415). -/
  debug : Nat := 0
  /-- MIN_SVN: fuses blown (R410). -/
  minSvn : Nat := 0
  /-- SHA-512 of the persisted alteration sets, oldest first (R495). -/
  alterHash : List (BitVec 512) := []
  /-- PERSIST_GEOMETRY done so far (R402). -/
  geoms : Nat := 0
  /-- Factory lock fuse and the pattern (R492). -/
  locked : Bool := false
  pattern : Option (BitVec 512) := none
  deriving DecidableEq, Repr

/-- A ledger entry (R417). -/
structure LedgerEntry where
  seq : Nat
  time : Dword
  role : Byte
  result : Byte
  opcode : Byte
  part : Byte
  remaining : Word
  old : BitVec 256
  new_ : BitVec 256
  prev : BitVec 512
  actor : BitVec 512
  sig : BitVec 1056
  deriving DecidableEq, Repr

/-- A firmware bank: SVNs of its Thimble and hub images and whether each verifies (R409, R560). -/
structure Bank2 where
  thimbleSvn : Nat := 0
  hubSvn : Nat := 0
  thimbleOk : Bool := true
  hubOk : Bool := true
  thimbleDigest : BitVec 512 := 0
  hubDigest : BitVec 512 := 0
  deriving DecidableEq, Repr

/-- The Thimble's flash (R401, R402, R417, R495, R539, R560). Survives everything (R551). -/
structure Flash where
  policy : BitVec 5 := 0
  policyKeys : List (BitVec 512) := []
  /-- The device key's signatures of the policy record and of the alteration set (R401, R412, R495). -/
  policySig : BitVec 1056 := 0
  altersSig : BitVec 1056 := 0
  /-- The ledger, newest first, and UNLOGGED (R417). -/
  ledger : List LedgerEntry := []
  unlogged : BitVec 16 := 0
  /-- Persisted alterations: (item key, offset) (R495). -/
  alters : SMap Int := []
  altersHash : BitVec 512 := 0
  /-- Persisted default geometry: masks and modes (R402). -/
  geom : Option (List (BitVec 16) × List Bool) := none
  /-- Quarantined cores, hoops and engines (R539). -/
  quarCores : List Nat := []
  quarHoops : List Nat := []
  quarEngines : List Nat := []
  banks : List Bank2 := [{}, {}]
  bootBank : Nat := 0
  /-- Records kept in flash (R491, R554): class, source, code, unit. -/
  records : List (Nat × Nat × Nat × Nat) := []
  deriving DecidableEq, Repr

/-- An SPDM session (R396, R413). -/
structure Session where
  id : Nat
  /-- SHA-512 of the requester's public key, when mutually authenticated. -/
  key : Option (BitVec 512)
  established : Bool
  lastAt : Dword
  keyGen : Nat
  deriving DecidableEq, Repr

/-- A granted client (R404). -/
structure Client where
  id : BitVec 12
  part : Nat
  demotePages : Nat
  /-- Number of its key: keys are free values (R404). -/
  key : Nat
  /-- A key the tenant supplied (R406). -/
  imported : Option (BitVec 512) := none
  revoking : Bool := false
  deriving DecidableEq, Repr

/-- What the Thimble sends, newest first. -/
inductive ThmOut where
  /-- response to a Thimble request: opcode, REQ_ID, result, returned ledger entries (R397, R399) -/
  | result (opcode : Byte) (reqId : Word) (code : Byte) (entries : List LedgerEntry)
  /-- SPDM response: request code name, and its bytes (R413) -/
  | spdm (code : Byte) (bytes : List Byte)
  /-- SPDM ERROR with its code (R414) -/
  | spdmError (code : Byte)
  deriving DecidableEq, Repr

/-- The security controller (R395 to R417). -/
structure ThmSt where
  otp : Otp := {}
  flash : Flash := {}
  /-- CDI1 and CDI2, and whether the ROM has hidden the unique device secret (R412). -/
  cdi1 : BitVec 512 := 0
  cdi2 : BitVec 512 := 0
  udsHidden : Bool := false
  /-- Operator key (R395, R398); OPERATOR of `THM_OWNER` is 0 at reset (R419). -/
  operatorKey : Option (BitVec 512) := none
  sessions : List Session := []
  nextSession : Nat := 1
  clients : List Client := []
  nextKey : Nat := 1
  /-- Module key: number of the reset that created it (R407). -/
  moduleKey : Nat := 0
  form : Option FormSt := none
  formLast : Byte := 0
  forms : Word := 0
  /-- SPDM connection: version agreed, capabilities exchanged, algorithms agreed (R413). -/
  spdm : Nat := 0
  out : List ThmOut := []
  deriving DecidableEq, Repr

/-! ## Links (chapter 13) -/

/-- PSTATE of a port (R448). -/
inductive PortSt where
  | disabled | training | up | retraining | down | miswired
  deriving DecidableEq, Repr

/-- A block kept until acknowledged (R423): its SEQ, packets and how often it was resent. -/
structure TxBlock where
  seq : BitVec 12
  packets : List Packet
  resends : Nat
  deriving DecidableEq, Repr

/-- A packet waiting in a seam queue and the time its hold ends (R458). -/
structure SeamQ where
  p : Packet
  holdUntil : Dword
  deriving DecidableEq, Repr

/-- One Walolken port (R421 to R448). -/
structure Port where
  st : PortSt := .disabled
  width : BitVec 2 := 0
  first : BitVec 3 := 0
  laneOk : BitVec 8 := 0
  peer : BitVec 17 := 0
  peerPort : BitVec 4 := 0
  bypass : Bool := false
  enable : Bool := false
  retrains : BitVec 16 := 0
  naksSent : BitVec 16 := 0
  naksRcvd : BitVec 16 := 0
  violations : BitVec 16 := 0
  /-- Retry buffer, oldest first, at most 512 (R423). -/
  retry : List TxBlock := []
  nextSeq : BitVec 12 := 0
  /-- SEQ values sent since the port was enabled, counted to 4,096 (R445). -/
  seqSent : Nat := 0
  /-- Next SEQ expected, and whether any block was accepted (R423). -/
  expect : BitVec 12 := 0
  accepted : Bool := false
  /-- NAK sent for the present gap (R423). -/
  nakSent : Bool := false
  /-- Credits held for the next module, 16-byte units, by channel (R431). -/
  credits : List Nat := List.replicate 6 2048
  /-- Units received and not yet returned as credits, by channel (R422, R431). -/
  owed : List Nat := List.replicate 6 0
  /-- Packets waiting to be sent (R430). -/
  queue : List Packet := []
  /-- Seam queue, at most 256 (R458). -/
  seamQ : List SeamQ := []
  /-- SEAM_PORT_CNT (R474). -/
  combined : Word := 0
  converted : Word := 0
  /-- The retraining under way may widen the port: a CALIBRATE or a fitting asked for it (R425, R542). -/
  renew : Bool := false
  /-- Lanes that this end, and the peer, trained in the present training (R424, R426); whether its IDENT matched (R432). -/
  ownLanes : Option (BitVec 8) := none
  peerLanes : Option (BitVec 8) := none
  met : Bool := false
  /-- Time of the last accepted data block, of the last retraining start, of retry exhaustion, whether a PROBE_REPLY is awaited, and the
  time of the last PROBE (R424, R433, R434). -/
  lastBlockAt : Dword := 0
  retrainAt : Dword := 0
  downAt : Option Dword := none
  probes : Bool := false
  probedAt : Dword := 0
  /-- Blocks sent on this port, newest first (R422, R426). -/
  sent : List Block := []
  /-- Times of the last TIME sent and of the last one received; and the four timestamps of an exchange not yet used (R426, R442). -/
  timeSent : Option Dword := none
  timeRecv : Option Dword := none
  stamps : Option TimeStamps := none
  deriving DecidableEq, Repr

/-- GSTATE (R447). -/
inductive GSt where
  | none | forming | formed | degraded | stopped | refused
  deriving DecidableEq, Repr

/-- The link layer and the coupled group (R429 to R447). -/
structure WlkSt where
  ports : List Port := List.replicate 12 {}
  /-- L0 to L5 (R447). -/
  shape : List Nat := [0, 0, 0, 0, 0, 0]
  moduleId : BitVec 17 := 0
  gstate : GSt := .none
  localId : BitVec 17 := 0
  w : BitVec 8 := 1
  d : BitVec 8 := 1
  m : BitVec 17 := 1
  parts : BitVec 16 := 0
  tableAddr : BitVec 47 := 0
  anchor : BitVec 17 := 0
  deputy : BitVec 17 := 0
  failed : BitVec 17 := 0
  parent : BitVec 4 := 0xF
  timeHold : Bool := false
  timeHoldAt : Dword := 0
  depth : Byte := 0
  offset : BitVec 16 := 0
  /-- Modules marked dead, newest first (R434); COUNT of WLK_DEAD counts the marks. -/
  dead : List Nat := []
  /-- Modules marked whose effects on stores, shuttles, the group and reductions this command still applies. -/
  deadPending : List Nat := []
  deadCount : BitVec 16 := 0
  deadLast : BitVec 17 := 0
  /-- FORM written at (R438). -/
  formAt : Option Dword := none
  /-- Members lost since formation with their times (R440). -/
  lostMembers : List (Nat × Dword) := []
  /-- Members with list writes of this anchor not yet answered, one entry a write (R428, R439; log entry 19). -/
  listOut : List Nat := []
  /-- Times of the marks, newest first (R435). -/
  deadTimes : List Dword := []
  /-- The acting anchor, and the deputy, lost at, since the last change of anchor (R440). -/
  anchorLost : Option Dword := none
  deputyLost : Option Dword := none
  deriving DecidableEq, Repr

/-! ## Seam reduction (chapter 14) -/

/-- A bucket: first element and element count (R452). -/
structure Bucket where
  first : Nat
  elems : Nat
  deriving DecidableEq, Repr

/-- An owned share of (step, bucket) (R461). -/
structure Share where
  step : Word
  bucket : Nat
  openAt : Dword
  expect_ : Nat
  closed : Bool := false
  published : Bool := false
  deriving DecidableEq, Repr

/-- A parameter packet to be resent to a member (R467). -/
structure HeldResend where
  p : Packet
  dst : Nat
  at_ : Dword
  deriving DecidableEq, Repr

/-- A running REDUCE (R449 to R471). -/
structure Reduce where
  fn : Nat
  tag : Word
  buckets : List Bucket
  mode : Nat
  fmt : Nat
  n : Nat
  firstStep : Word
  steps : Nat
  deadlineUs : Nat
  noteCore : CoreId
  postCnt : Nat
  optCnt : Nat
  paramCnt : Nat
  commitCnt : Nat
  grad : Dword
  param0 : Dword
  param1 : Dword
  acc : Dword
  aux : Dword
  close : Dword
  /-- Posts waiting, oldest first, and posts done: (step, bucket) (R455). -/
  posts : List (Word × Nat) := []
  posted : List (Word × Nat) := []
  shares : List Share := []
  /-- Close records written for a step: (step, number) (R463). -/
  closeN : List (Word × Nat) := []
  /-- Landed 64-element parameter ranges: (step, bucket, first ÷ 32) (R466). -/
  landed : List (Word × Nat × Nat) := []
  /-- Boundary written: highest step starting (R469). -/
  boundary : Word := 0
  /-- Owners (module IDs) that have ended their reduction (R470, R471). -/
  gone : List Nat := []
  held : List HeldResend := []
  /-- OPT_CNT additions that wait for the owner's commit (R463): steps. -/
  optWait : List Word := []
  deriving DecidableEq, Repr

/-- A partition's seam registers and REDUCE (R474). -/
structure PtnSeam where
  active : Bool := false
  committed : Word := 0
  late : BitVec 16 := 0
  short : BitVec 16 := 0
  writes : BitVec 16 := 0
  void : BitVec 16 := 0
  /-- Non-finite events of one-bit mode (R456); no register shows them (log entry 99). -/
  nonFinite : Nat := 0
  reduce : Option Reduce := none
  deriving DecidableEq, Repr

/-- The seam engine (R449 to R474). -/
structure SeamSt where
  holdNs : BitVec 12 := 0x0C8
  ptn : List PtnSeam := List.replicate 16 {}
  deriving DecidableEq, Repr

/-! ## Clocks, power, calibration (chapter 15) -/

/-- CSTATE (R477). -/
inductive CSt where
  | running | stretching | stopped | gated | held
  deriving DecidableEq, Repr

/-- One island (R477, R478, R491, R500). -/
structure Island where
  st : CSt := .running
  point : BitVec 4 := 15
  tlimit : BitVec 4 := 15
  dlimit : BitVec 4 := 15
  freq : BitVec 11 := 0
  temp : BitVec 10 := 0
  /-- Start of the present unbroken stretch, moved on by 100 µs at each lowering; end of the last stretch, moved on by 10 ms at
  each raising (R478). -/
  stretchAt : Option Dword := none
  calmAt : Dword := 0
  /-- Moved last by the thermal response at (R491). -/
  thermAt : Dword := 0
  /-- The island cycle counter (R481): edges counted up to `cycFrom`; while the clock runs, the edges since then add to it. -/
  cyc : Dword := 0
  cycFrom : Dword := 0
  deriving DecidableEq, Repr

/-- Power manager (R487 to R491, R501). -/
structure PwrSt where
  volt : BitVec 16 := 0
  power : BitVec 16 := 0
  cap : BitVec 12 := 0xA28
  emerg : Bool := false
  /-- Band of the last sample: 0 normal, 1 emergency, 2 high, 3 out of range (R487). -/
  band : Nat := 0
  gateUnassigned : Bool := true
  idleUs : BitVec 16 := 0x000A
  ptnCap : List (BitVec 12) := List.replicate 16 0
  ptnPower : List (BitVec 12) := List.replicate 16 0
  ptnLimit : List (BitVec 4) := List.replicate 16 15
  /-- The limit of a partition's own cap (R489) and of the module cap on it (R488), and when each last moved. LIMIT of
  `PWR_PTN` shows the lower. -/
  ptnStep : List Dword := List.replicate 16 0
  modLimit : List (BitVec 4) := List.replicate 16 15
  modStep : List Dword := List.replicate 16 0
  /-- Input present (R555): at or above 44 V. -/
  inputOk : Bool := false
  /-- Bands of the junction and stack sensors as last read, by island (R491): 0 below every threshold. -/
  junctionBand : SMap Nat := []
  stackBand : SMap Nat := []
  /-- The input was below 44 V when last sampled (R568). -/
  low : Bool := false
  deriving DecidableEq, Repr

/-- Calibration registers and alterations (R493, R502). -/
structure CalSt where
  kind : BitVec 4 := 1
  field : BitVec 4 := 0
  index : BitVec 24 := 0
  /-- Volatile alterations by item key (R494). -/
  alters : SMap Int := []
  loaded : Bool := false
  mismatch : Bool := false
  /-- Running CALIBRATE: fn, tag, first unit, count, done, next (R497). -/
  job : Option (Nat × Word × Nat × Nat) := none
  jobNext : Nat := 0
  deriving DecidableEq, Repr

/-! ## Counters, measures, tangle (chapter 16) -/

/-- The native counters of an engine class (R503, R507, R510): the spans of global time it was enabled for since its last reset,
oldest first, the start of the present one while it is enabled, and the epoch. What each counter counts in a span is a free value
(log entry 24). -/
structure ClassRun where
  runs : List (Dword × Dword) := []
  since : Option Dword := some 0
  epoch : BitVec 16 := 0
  /-- Slots counted in idle steps, by record × 16 + counter (R504; log entry 24). -/
  counts : SMap (BitVec 48) := []
  deriving DecidableEq, Repr

/-- An engine class: its counters, and as they stood before the reset made at a time (R511). -/
structure ClassCnt where
  cur : ClassRun := {}
  before : Option (Dword × ClassRun) := none
  deriving DecidableEq, Repr

/-- Always-on slots of a record (R508). -/
structure Aon where
  a1 : BitVec 48 := 0
  a2 : BitVec 48 := 0
  a3 : BitVec 48 := 0
  deriving DecidableEq, Repr

/-- A latched image (R509, R511, R514): the repeat index, time, ENABLE, the classes, the always-on slots, the island cycle
counters, and the records that are stopped, quarantined or not fitted. -/
structure Latch where
  fn : Nat
  tag : Word
  index : Nat
  t : Dword
  enable : BitVec 5
  classes : List ClassRun
  aon : SMap Aon
  ptnRun : ClassRun
  cycles : List Dword
  stopped : List Nat
  quar : List Nat
  notfit : List Nat
  reset : Bool
  deriving DecidableEq, Repr

/-- A running MEASURE (R516, R517). -/
structure MeasureJob where
  fn : Nat
  tag : Word
  t : Dword
  dst : Dword
  reset : Bool
  repeat_ : Nat
  periodUs : Nat
  latched : Nat := 0
  written : Nat := 0
  deriving DecidableEq, Repr

/-- A node of the tangle graph (R521): KIND, unit ID, the 24 detail bytes. -/
structure TNode where
  kind : Nat
  unit : Nat
  detail : List Byte
  deriving DecidableEq, Repr

/-- A running TANGLE, and the graph its latch gave (R519 to R524). -/
structure TangleJob where
  fn : Nat
  tag : Word
  t : Dword
  dst : Dword
  cap : Nat
  parts : BitVec 16
  graph : Option (List TNode × List (Nat × Nat)) := none
  deriving DecidableEq, Repr

/-- Measurement state (R503 to R527). -/
structure MsrSt where
  enable : BitVec 5 := 0x1F
  /-- ENABLE as it stood before its last write, and when that was (R525). -/
  enableOld : BitVec 5 := 0x1F
  enableAt : Dword := 0
  /-- Engine classes: thread pipeline, hoop, shuttle, strand, port; always-on slots by record number (R513). -/
  classes : List ClassCnt := List.replicate 5 {}
  aon : SMap Aon := []
  /-- The always-on slots of the partitions' cores (R508). -/
  ptnRun : ClassRun := {}
  images : Word := 0
  jobs : List MeasureJob := []
  latches : List Latch := []
  tangle : Option TangleJob := none
  tglCycles : BitVec 16 := 0
  tglNodes : Word := 0
  /-- The power and temperature block: registers by offset ÷ 4 from + 0x1000 (R527). -/
  alken : SMap Word := [(0, 0x00030B0B), (12, 2600)]
  deriving DecidableEq, Repr

/-! ## Error records (chapter 17) -/

/-- An error record (R529). DETAIL is kept without the zeros that fill its 48 bytes. -/
structure ErrRec where
  time : Dword
  unit : Nat
  cls : Nat
  source : Nat
  code : Nat
  part : Nat
  detail : List Byte
  deriving DecidableEq, Repr

/-- Fitting in progress (R540 to R542). -/
structure FitJob where
  fn : Nat
  tag : Word
  cls : Nat
  next : Nat
  last : Nat
  release : Bool
  quarantine : Bool
  /-- The unit held, since when, and whether its test runs; of a strand or an LPDDR6 channel, the holds made so far (R542). -/
  held : Option (Nat × Dword × Bool) := none
  holds : Nat := 0
  deriving DecidableEq, Repr

/-- Error logs, quarantine and fitting (R529 to R549). -/
structure ErrSt where
  /-- Module log by slot, WRITTEN, SUPPRESSED, MODULE_FAULT (R533, R549). -/
  log : SMap ErrRec := []
  written : Word := 0
  suppressed : BitVec 16 := 0
  moduleFault : Bool := false
  /-- Partition logs by partition × 64 + slot (R534). -/
  plog : SMap ErrRec := []
  /-- Records counted in the present second: (counter key, number) and the second (R531). -/
  second : Nat := 0
  counts : SMap Nat := []
  fit : Option FitJob := none
  deriving DecidableEq, Repr

/-! ## Bring-up and management (chapter 18) -/

/-- A firmware activation in progress (R545). -/
structure FwAct where
  /-- The command that asked for it; none for the update over the management bus. -/
  fn : Option Nat
  tag : Word
  /-- Targets (0 hub, 1 Thimble) with their images. -/
  images : List (Nat × FwCheck)
  since : Dword
  deriving DecidableEq, Repr

/-- Boot state (R550 to R569). -/
structure BootSt where
  /-- PHASE of THM_BOOT, 0 to 7 (R555). -/
  phase : Nat := 0
  /-- The work of PHASE 0 is done and the Thimble holds for PERST# (R555). -/
  hold : Bool := false
  recovery : Bool := false
  lastCode : BitVec 7 := 0
  cause : BitVec 4 := 0
  bootMs : Word := 0
  /-- PERST# asserted (R550). -/
  perst : Bool := true
  /-- The Thimble has power and runs (R555). -/
  powered : Bool := false
  /-- GO armed at (R553). -/
  armedAt : Option Dword := none
  /-- Global time at which the present phase started (R555). -/
  phaseAt : Dword := 0
  act : Option FwAct := none
  /-- SVN and digest of the Thimble and hub images that run (R410, R412, R545). -/
  thimble : Nat × BitVec 512 := (0, 0)
  hub : Nat × BitVec 512 := (0, 0)
  deriving DecidableEq, Repr

/-- What the management controller sends, newest first (R562 to R565). -/
inductive MgmtOut where
  | nack
  | mctp (cmd : Byte) (bytes : List Byte)
  | pldm (ptype cmd completion : Byte) (bytes : List Byte)
  | event (sensor : Nat) (reading : Int)
  deriving DecidableEq, Repr

/-- State of a PLDM firmware update (R564). -/
structure UpdateSt where
  active : Bool := false
  component : Option Nat := none
  received : Nat := 0
  verified : Option FwCheck := none
  applied : List (Nat × FwCheck) := []
  deriving DecidableEq, Repr

/-- Management controller (R562 to R565). -/
structure MgmtSt where
  /-- I3C dynamic address (R562). -/
  dynAddr : Option (BitVec 7) := none
  /-- ADDR[1:0] straps (R550). -/
  strap : BitVec 2 := 3
  eid : Byte := 0
  receiver : Option Nat := none
  update : UpdateSt := {}
  /-- Messages seen in a second, and which second (R565). -/
  second : Nat := 0
  count : Nat := 0
  /-- Readings of the numeric sensors 1 to 8, as last refreshed (R563). -/
  readings : SMap Int := []
  out : List MgmtOut := []
  /-- Sensor bands last reported (R563). -/
  bands : SMap Nat := []
  deriving DecidableEq, Repr

/-- TAP instruction (R566). -/
inductive TapIr where
  | bypass | idcode | sample | extest | clamp | highz | internalScan
  deriving DecidableEq, Repr

/-- Test access port (R566, R567). -/
structure TapSt where
  ir : TapIr := .idcode
  /-- Boundary register (R566). -/
  boundary : BitVec 64 := 0
  /-- EXTEST, CLAMP or HIGHZ drives the pins (R567). -/
  driving : Bool := false
  /-- PERST# was released while one of them drove: the module stays in reset (R567). -/
  holds : Bool := false
  /-- Last value shifted out: the selected data register. -/
  tdo : Word := 0
  /-- Whether the code that the tester gives for the row BYPASS is one of Denfold's internal scan codes: an input (R566; log entry 93). -/
  scanCode : Bool := false
  deriving DecidableEq, Repr

/-! ## The machine -/

/-- The state of the module. -/
structure State where
  /-- Commands that wait, oldest first. -/
  pending : List Instr := []
  time : TimeSt := {}
  cores : SMap Core := []
  mem : MemSt := {}
  ob : ObSt := {}
  hif : HifSt := {}
  ptn : List Ptn := List.replicate 16 {}
  thm : ThmSt := {}
  wlk : WlkSt := {}
  seam : SeamSt := {}
  /-- Islands by number (R475). -/
  islands : SMap Island := []
  pwr : PwrSt := {}
  cal : CalSt := {}
  msr : MsrSt := {}
  err : ErrSt := {}
  boot : BootSt := {}
  mgmt : MgmtSt := {}
  tap : TapSt := {}
  deriving DecidableEq, Repr

/-- Why a step stops with a fault. No meaning of this model raises one: the type stands for the interface. -/
inductive Fault where
  /-- Raised by nothing: every command of the table has an effect (safe). -/
  | none
  deriving DecidableEq, Repr

/-- Why a step refuses a command. -/
inductive Refusal where
  /-- An arm of exec without a meaning yet, by its mnemonic (safe: the machine stops). -/
  | notModelled (mnemonic : String)
  deriving DecidableEq, Repr

/-- What a command answers. -/
abbrev Out := Host.Outcome State Fault Refusal

/-- The machine right after power has come and before the input has been seen in range: every field at the value the
chapters give for module reset (R551, R552), one-time and flash contents as shipped (log entry 2), no command waiting. -/
def State.reset : State := {}

end Sys2Proof.Machine
end

