-- ==== Sys2Proof/Machine/Tables.lean ====
section
/-! DEFINITION. Sparse tables: reading, writing and the canonical form (keys strictly rising, no default listed). -/

namespace Sys2Proof.Machine

/-- The value under a key, d where it is not listed. -/
def tget {α : Type} (d : α) (m : SMap α) (k : Nat) : α :=
  match m with
  | [] => d
  | (j, v) :: r => if j == k then v else tget d r k

/-- Insertion in key order into a table without the key. -/
def tinsert {α : Type} (m : SMap α) (k : Nat) (v : α) : SMap α :=
  match m with
  | [] => [(k, v)]
  | (j, w) :: r => if k < j then (k, v) :: (j, w) :: r else (j, w) :: tinsert r k v

/-- A table without a key. -/
def terase {α : Type} (m : SMap α) (k : Nat) : SMap α := m.filter fun e => !(e.1 == k)

/-- The table with v under k; writing the default removes the entry. -/
def tset {α : Type} [DecidableEq α] (d : α) (m : SMap α) (k : Nat) (v : α) : SMap α :=
  if v = d then terase m k else tinsert (terase m k) k v

/-- The table with the value under k changed. -/
def tmod {α : Type} [DecidableEq α] (d : α) (m : SMap α) (k : Nat) (f : α → α) : SMap α := tset d m k (f (tget d m k))

/-- The canonical form: keys strictly rising and no default listed. -/
def TWf {α : Type} [DecidableEq α] (d : α) (m : SMap α) : Bool :=
  match m with
  | [] => true
  | (k, v) :: r => !decide (v = d) && r.all (fun e => decide (k < e.1)) && TWf d r

end Sys2Proof.Machine
end

