-- ==== Sys2Proof/Machine/Ops.lean ====
section
/-! DEFINITION. The named operations over the machine's parts: cores, skeins, time, memory bytes, error records, MSI-X messages
and what the module writes to the host. -/

namespace Sys2Proof.Machine

/-! ## Parts of the state -/

/-- A core by its ID. -/
def State.core (s : State) (c : Nat) : Core := tget {} s.cores c
/-- A core changed. -/
def State.modCore (s : State) (c : Nat) (f : Core → Core) : State := { s with cores := tmod {} s.cores c f }
/-- A skein slot of a core. -/
def Core.skein (k : Core) (n : Nat) : Skein := tget {} k.skeins n
def Core.modSkein (k : Core) (n : Nat) (f : Skein → Skein) : Core := { k with skeins := tmod {} k.skeins n f }
def State.skein (s : State) (c n : Nat) : Skein := (s.core c).skein n
def State.modSkein (s : State) (c n : Nat) (f : Skein → Skein) : State := s.modCore c fun k => k.modSkein n f
/-- A bundle of a core by its bundle ID. -/
def Core.bundle (k : Core) (b : Nat) : Bundle := tget {} k.bundles b
def Core.modBundle (k : Core) (b : Nat) (f : Bundle → Bundle) : Core := { k with bundles := tmod {} k.bundles b f }
def Core.modKnot (k : Core) (n : Nat) (f : Knot → Knot) : Core := { k with knots := upd k.knots n f }
/-- A hoop and a sub-hoop of a core. -/
def Core.hoop (k : Core) (h : Nat) : Hoop := nth {} k.hoops h
def Core.modHoop (k : Core) (h : Nat) (f : Hoop → Hoop) : Core := { k with hoops := upd k.hoops h f }
def Hoop.subAt (h : Hoop) (n : Nat) : SubHoop := nth {} h.subs n
def Hoop.modSub (h : Hoop) (n : Nat) (f : SubHoop → SubHoop) : Hoop := { h with subs := upd h.subs n f }
def State.modHoop (s : State) (c h : Nat) (f : Hoop → Hoop) : State := s.modCore c fun k => k.modHoop h f
def State.modSub (s : State) (c h n : Nat) (f : SubHoop → SubHoop) : State := s.modHoop c h fun x => x.modSub n f
/-- A shuttle engine and a queue of it. -/
def Core.engine (k : Core) (e : Nat) : Engine := nth {} k.engines e
def Engine.queue (e : Engine) (q : Nat) : ShQueue := nth {} e.queues q
def State.modEngine (s : State) (c e : Nat) (f : Engine → Engine) : State :=
  s.modCore c fun k => { k with engines := upd k.engines e f }
def State.modQueue (s : State) (c e q : Nat) (f : ShQueue → ShQueue) : State :=
  s.modEngine c e fun g => { g with queues := upd g.queues q f }
/-- A partition, its Order Book state, its seam registers. -/
def State.part (s : State) (p : Nat) : Ptn := nth {} s.ptn p
def State.modPart (s : State) (p : Nat) (f : Ptn → Ptn) : State := { s with ptn := upd s.ptn p f }
def State.obPart (s : State) (p : Nat) : PtnOb := nth {} s.ob.ptn p
def State.modOb (s : State) (f : ObSt → ObSt) : State := { s with ob := f s.ob }
def State.modObPart (s : State) (p : Nat) (f : PtnOb → PtnOb) : State := s.modOb fun o => { o with ptn := upd o.ptn p f }
def State.entry (s : State) (q : Nat) : Entry := tget {} s.ob.entries q
def State.modEntry (s : State) (q : Nat) (f : Entry → Entry) : State :=
  s.modOb fun o => { o with entries := tmod {} o.entries q f }
def State.seamPart (s : State) (p : Nat) : PtnSeam := nth {} s.seam.ptn p
def State.modSeamPart (s : State) (p : Nat) (f : PtnSeam → PtnSeam) : State :=
  { s with seam := { s.seam with ptn := upd s.seam.ptn p f } }
/-- The host interface, a function page, a ring of it. -/
def State.modHif (s : State) (f : HifSt → HifSt) : State := { s with hif := f s.hif }
def State.fn (s : State) (n : Nat) : FnSt := nth {} s.hif.fns n
def State.modFn (s : State) (n : Nat) (f : FnSt → FnSt) : State := s.modHif fun h => { h with fns := upd h.fns n f }
def FnSt.ring (f : FnSt) (r : Nat) : Ring := if r == 0 then f.req else f.cmd
def FnSt.modRing (f : FnSt) (r : Nat) (g : Ring → Ring) : FnSt :=
  if r == 0 then { f with req := g f.req } else { f with cmd := g f.cmd }
/-- A port, the link layer, an island, a strand. -/
def State.port (s : State) (p : Nat) : Port := nth {} s.wlk.ports p
def State.modWlk (s : State) (f : WlkSt → WlkSt) : State := { s with wlk := f s.wlk }
def State.modPort (s : State) (p : Nat) (f : Port → Port) : State := s.modWlk fun w => { w with ports := upd w.ports p f }
def State.island (s : State) (i : Nat) : Island := tget {} s.islands i
def State.modIsland (s : State) (i : Nat) (f : Island → Island) : State := { s with islands := tmod {} s.islands i f }
def State.modMem (s : State) (f : MemSt → MemSt) : State := { s with mem := f s.mem }
def State.modStrand (s : State) (n : Nat) (f : Strand → Strand) : State :=
  s.modMem fun m => { m with strands := tmod {} m.strands n f }
def State.modThm (s : State) (f : ThmSt → ThmSt) : State := { s with thm := f s.thm }
def State.modMsr (s : State) (f : MsrSt → MsrSt) : State := { s with msr := f s.msr }
def State.modErr (s : State) (f : ErrSt → ErrSt) : State := { s with err := f s.err }
def State.modBoot (s : State) (f : BootSt → BootSt) : State := { s with boot := f s.boot }
def State.modMgmt (s : State) (f : MgmtSt → MgmtSt) : State := { s with mgmt := f s.mgmt }
def State.modPwr (s : State) (f : PwrSt → PwrSt) : State := { s with pwr := f s.pwr }

/-- f applied for every element of a list, in order. -/
def State.each {α : Type} (s : State) (l : List α) (f : State → α → State) : State := l.foldl f s

/-- f applied when a condition holds. -/
def State.when (s : State) (b : Bool) (f : State → State) : State := if b then f s else s

/-! ## Free values (log entry 3) -/

/-- The counter of free values advanced. -/
def State.bump (s : State) : State := { s with time := { s.time with free := s.time.free + 1 } }

/-! ## Global time (R482) -/

/-- Global time now, in ns. -/
def State.now (s : State) : Nat := s.time.now.toNat

/-- What a slew adds while n ns pass: what is left of the offset, at a rate within ±100 ppm (R485). -/
def TimeSt.slew (t : TimeSt) (n : Nat) : Int :=
  let most : Int := (n / 10000 : Nat)
  max (-most) (min most t.slewLeft)

/-- Global time moves on to t and by what is slewed meanwhile. -/
def TimeSt.move (x : TimeSt) (t : Dword) : TimeSt :=
  let d := x.slew (t - x.now).toNat
  { x with now := t + BitVec.ofInt 64 d, skew := x.skew + d, slewLeft := x.slewLeft - d }

/-- Whether a bundle runs on the core. -/
def Core.busy (k : Core) : Bool := k.bundles.any fun e => e.2.st == .running

/-- Whether a core has nothing of what keeps its clock (R479). -/
def Core.idle (k : Core) : Bool :=
  !k.busy && k.launchQ.isEmpty && k.launchWait.isEmpty && k.sb.isEmpty
    && (k.engines.all fun g => g.queues.all fun q => q.entries.isEmpty)
    && (k.hoops.all fun h => h.subs.all fun x => x.queue.isEmpty && x.running.isEmpty)

/-- When each core was last busy, after time has moved to a value: the cores that are busy now have been till then (R479). -/
def State.busyTimes (s : State) (now : Dword) : SMap Dword :=
  s.cores.foldl (fun m c => if c.2.idle then m else tset 0 m c.1 now) s.time.busyAt

/-- Global time moves to a later time, never backward. -/
def State.moveTime (s : State) (t : Dword) : State :=
  if s.time.running && decide (s.time.now < t) then
    let x := s.time.move t
    { s with time := { x with busyAt := s.busyTimes x.now } }
  else s

/-- The state at the time that a command carries: the global time that the module would show without its slews, to which they are
added (R485; log entry 95). -/
def State.at_ (s : State) (t : Dword) : State := s.moveTime (BitVec.ofInt 64 (max 0 ((t.toNat : Int) + s.time.skew)))

/-- One ns of global time passes while it runs. -/
def State.tick (s : State) : State := s.moveTime (s.time.now + 1)

/-- Whether an island's clock runs (R477): running, stretching or held. -/
def CSt.clocked : CSt → Bool
  | .running | .stretching | .held => true
  | .stopped | .gated => false

/-- The value of an island's cycle counter (R481). -/
def State.cycles (s : State) (i : Nat) : Dword :=
  let k := s.island i
  if k.st.clocked && s.time.running then k.cyc + BitVec.ofNat 64 (Config.edges i s.time.now - Config.edges i k.cycFrom) else k.cyc

/-- Global time as an island samples it: within 3 ns, and never less than a sample before it; which within that is free (R483, R484; log
entry 101). -/
def State.sampledTime (s : State) (i : Nat) : Dword :=
  let t := s.now
  BitVec.ofNat 64 (((List.range 7).map fun k => if k ≤ t then t - k + Config.sampleLag i (t - k) % 7 - 3 else 0).foldl max 0)

/-- An island put into a state, with its cycle counter settled at this moment (R477, R481). -/
def State.setIsland (s : State) (i : Nat) (st : CSt) : State :=
  let c := s.cycles i
  s.modIsland i fun k => { k with st := st, cyc := c, cycFrom := s.time.now }

/-! ## Places (R11, R14, R17, R18, R390) -/

/-- The quadrant of a core (R14). -/
def quadOf (c : Nat) : Nat := c / 256 * 4 + c / 128 % 2 * 2 + c / 8 % 2

/-- The cores of a quadrant mask. -/
def coresOf (quads : BitVec 16) : List Nat := (List.range 1024).filter fun c => quads.getLsbD (quadOf c)

/-- The partition of a core: the one whose mask holds its quadrant, if any (R390). -/
def State.partOf (s : State) (c : Nat) : Option Nat :=
  (List.range 16).find? fun p => (s.part p).quads.getLsbD (quadOf c)

/-- Local ranges (R18). -/
def stackTop : Nat := 0x4000000000
def lpdBase : Nat := 0x10000000000
def lpdTop : Nat := lpdBase + Config.lpddrBytes
def scratchBase : Nat := 0x20000000000
def scratchTop : Nat := 0x20080000000
def regBase : Nat := 0x30000000000
def regTop : Nat := 0x30100000000
/-- Bytes of scratch of a core (R208). -/
def scratchLen : Nat := 0x180000

def isStack (a : Nat) : Bool := decide (a < stackTop)
def isLpd (a : Nat) : Bool := decide (lpdBase ≤ a ∧ a < lpdTop)
def isScratchRange (a : Nat) : Bool := decide (scratchBase ≤ a ∧ a < scratchTop)
def isReg (a : Nat) : Bool := decide (regBase ≤ a ∧ a < regTop)
/-- A populated scratch-window address (R18). -/
def isScratch (a : Nat) : Bool := isScratchRange a && decide ((a - scratchBase) % 0x200000 < scratchLen)
/-- An LPDDR6 address of a module whose channels trained (R241, R559). -/
def State.lpdHere (s : State) (a : Nat) : Bool := isLpd a && !s.mem.lpdOff
/-- The core whose window holds a scratch address. -/
def scratchCore (a : Nat) : Nat := (a - scratchBase) / 0x200000
/-- The local address of an offset of a core's scratch. -/
def scratchAt (c o : Nat) : Nat := scratchBase + c * 0x200000 + o

/-- Module ID and local address of a global physical address (R17). -/
def modOf (g : Nat) : Nat := g / 2 ^ 47
def locOf (g : Nat) : Nat := g % 2 ^ 47
/-- Module and local line of a store-buffer entry's line number. -/
def lineModule (line : Nat) : Nat := line / 2 ^ 40

/-- A unit ID (R14, R15). -/
def unitId (cls idx : Nat) : Nat := cls * 2 ^ 24 + idx

/-- Home die of a stacked or LPDDR6 address (R231, R240). -/
def State.homeDie (s : State) (a : Nat) : Nat :=
  if isStack a then (if bit s.mem.ilv (nbits a 37 32) then nbits a 13 12 else nbits a 31 30)
  else (nbits a 15 12 ^^^ nbits a 19 16) / 4

/-- Die offset of a stacked address (R231), and the LPDDR6 channel of an address (R240). -/
def State.dieOffset (s : State) (a : Nat) : Nat :=
  let b := nbits a 37 32
  if bit s.mem.ilv b then b * 2 ^ 30 + nbits a 31 14 * 2 ^ 12 + nbits a 11 0 else b * 2 ^ 30 + nbits a 29 0
def lpdChannel (a : Nat) : Nat := nbits a 15 12 ^^^ nbits a 19 16

/-- Where a byte of stacked memory stands (R231, R232): die, strand of the die, bank, row, byte of the row. -/
structure StackPlace where
  die : Nat
  strand : Nat
  bank : Nat
  row : Nat
  column : Nat
  deriving DecidableEq, Repr

/-- The place of a stacked address. -/
def State.stackPlace (s : State) (a : Nat) : StackPlace :=
  let d := s.dieOffset a
  { die := s.homeDie a, strand := nbits d 17 8, bank := nbits d 25 21 ^^^ nbits d 30 26, row := nbits d 35 26
    column := nbits d 20 18 * 256 + nbits d 7 0 }

/-- Where a byte of a core's scratch stands (R208): bank, row of the bank, byte of the row. -/
structure ScratchPlace where
  bank : Nat
  row : Nat
  column : Nat
  deriving DecidableEq, Repr

/-- The strand ID of a stacked address (R14, R232). -/
def State.strandOf (s : State) (a : Nat) : Nat := (s.stackPlace a).die * 1024 + (s.stackPlace a).strand

/-- The place of a scratch offset. -/
def scratchPlace (o : Nat) : ScratchPlace := { bank := o / 128 % 24, row := o / 128 / 24, column := o % 128 }

/-! ## Memory bytes (log entry 4) -/

/-- What an address that nothing has written reads as. -/
def unlisted : Byte := 0
/-- The canonical form of memory: addresses strictly rising, no entry equal to what an unlisted address reads as. -/
abbrev Memory.wf (m : SMap Byte) : Bool := TWf unlisted m

/-- A byte. Scratch of a core that has been gated and not scrubbed since holds free values where nothing is listed (R480). -/
def State.byteAt (s : State) (a : Nat) : Byte :=
  match if isScratch a then (s.core (scratchCore a)).lostScratch else none with
  | some n => if s.mem.bytes.any fun c => c.1 == a then tget unlisted s.mem.bytes a else Config.lostByte n a
  | none => tget unlisted s.mem.bytes a

def State.bytesAt (s : State) (a n : Nat) : List Byte := (List.range n).map fun i => s.byteAt (a + i)
/-- The little-endian value of n bytes at a (R2). -/
def State.natAt (s : State) (a n : Nat) : Nat := ofBytes (s.bytesAt a n)

/-- A byte list written at an address of a byte table. -/
def writeList (m : SMap Byte) (a : Nat) : List Byte → SMap Byte
  | [] => m
  | b :: r => writeList (tset unlisted m a b) (a + 1) r

/-- Whether a byte of the range lies on a strand that did not train: every access to it is uncorrectable (R559). -/
def State.failedStrand (s : State) (a n : Nat) : Bool :=
  isStack a && (s.mem.strands.any fun x => x.2.failed)
    && (List.range ((a + n - 1) / 256 + 1 - a / 256)).any fun k => (tget {} s.mem.strands (s.strandOf ((a / 256 + k) * 256))).failed

/-- Whether a word of the range cannot be corrected (R211, R243). -/
def State.damagedAt (s : State) (a n : Nat) : Bool :=
  (s.mem.damaged.any fun w => decide (w * 8 < a + n ∧ a < w * 8 + 8)) || s.failedStrand a n

/-- The address of the first byte of a range that cannot be corrected (R243, R248). -/
def State.badAt (s : State) (a n : Nat) : Nat :=
  a + (((List.range n).find? fun i => s.damagedAt (a + i) 1).getD 0)

/-- Bytes that one code word covers: 64 of stacked memory, 8 of scratch, 32 of LPDDR6 (R211, R233, R239). -/
def codeSize (a : Nat) : Nat := if isStack a then 64 else if isScratchRange a then 8 else 32

/-- Bytes set at a local address, whatever the state of the code over them. -/
def State.setBytes (s : State) (a : Nat) (bs : List Byte) : State := s.modMem fun m => { m with bytes := writeList m.bytes a bs }

/-- Bytes written at a local address. What one code word covers is whole again when it is written whole. -/
def State.poke (s : State) (a : Nat) (bs : List Byte) : State :=
  s.modMem fun m => { m with
    bytes := writeList m.bytes a bs
    damaged := m.damaged.filter fun w =>
      let b := w * 8 / codeSize (w * 8) * codeSize (w * 8)
      !decide (a ≤ b ∧ b + codeSize (w * 8) ≤ a + bs.length) }

/-- Runs of adjacent bytes. -/
def runsOf : SMap Byte → List (Nat × List Byte)
  | [] => []
  | (o, b) :: r =>
    match runsOf r with
    | (p, bs) :: t => if p == o + 1 then (o, b :: bs) :: t else (o, [b]) :: (p, bs) :: t
    | [] => [(o, [b])]

/-- A range set to zero: its listed bytes are erased, and its check bits set (R213, R393). -/
def State.zeroRange (s : State) (a n : Nat) : State :=
  s.modMem fun m => { m with
    bytes := m.bytes.filter fun c => !decide (a ≤ c.1 ∧ c.1 < a + n)
    damaged := m.damaged.filter fun w => !decide (a ≤ w * 8 ∧ w * 8 < a + n)
    lineKey := m.lineKey.filter fun c => !decide (a ≤ c.1 * 128 ∧ c.1 * 128 < a + n) }

/-- A word marked as not correctable. -/
def State.damage (s : State) (a : Nat) : State :=
  s.modMem fun m => { m with damaged := if m.damaged.contains (a / 8) then m.damaged else (a / 8) :: m.damaged }

/-- The bytes that one code word covers, at an address, cannot be corrected. -/
def State.damageBlock (s : State) (a : Nat) : State :=
  s.each (List.range (codeSize a / 8)) fun s i => s.damage (a / codeSize a * codeSize a + 8 * i)

/-- An access of an LPDDR6 channel: it leaves power-down, and its idle time starts anew (R239). -/
def State.lpdWake (s : State) (a : Nat) : State :=
  if isLpd a then s.modMem fun m => { m with lpd := upd m.lpd (lpdChannel a) fun c => { c with powerDown := false, lastAt := s.time.now } } else s

/-! ### LPDDR6 encryption (R242): a line remembers the key that wrote it -/

/-- A byte of LPDDR6 read under a key. -/
def State.lpdByte (s : State) (key a : Nat) : Byte :=
  let w := tget 0 s.mem.lineKey (a / 128)
  if w == key then s.byteAt a else Config.unrelatedByte a w key

/-- A byte read under a key: outside LPDDR6 the key plays no part. -/
def State.keyByte (s : State) (key a : Nat) : Byte := if isLpd a then s.lpdByte key a else s.byteAt a

def State.keyBytes (s : State) (key a n : Nat) : List Byte := (List.range n).map fun i => s.keyByte key (a + i)

/-- An LPDDR6 line taken over by a key: its other bytes become what that key reads there (a write reads, changes and
encrypts the 128-byte data unit). -/
def State.rekeyLine (s : State) (key line : Nat) : State :=
  if tget 0 s.mem.lineKey line == key then s
  else
    let bs := s.keyBytes key (line * 128) 128
    (s.setBytes (line * 128) bs).modMem fun m => { m with lineKey := tset 0 m.lineKey line key }

/-- Bytes written under a key. -/
def State.keyPoke (s : State) (key a : Nat) (bs : List Byte) : State :=
  if bs.isEmpty || !isLpd a then s.poke a bs
  else
    let first := a / 128
    let last := (a + bs.length - 1) / 128
    (s.each ((List.range (last + 1 - first)).map (first + ·)) fun s l => s.rekeyLine key l).poke a bs

/-! ## Error records (R529 to R534) -/

/-- Class of a record (R530). -/
inductive RecCls where
  | corrected | absorbed | contained | partition | module
  deriving DecidableEq, Repr

def RecCls.code : RecCls → Nat
  | .corrected => 0
  | .absorbed => 1
  | .contained => 2
  | .partition => 3
  | .module => 4

/-- Whom an absorbed record counts against (R531). -/
inductive Acct where
  | fn (n : Nat)
  | port (n : Nat)
  | module
  deriving DecidableEq, Repr

def Acct.key : Acct → Nat
  | .fn n => n
  | .port n => 32 + n
  | .module => 64

/-- One more MSI-X event on a vector: sent, or merged while the 10 µs interval of the last message runs (R379). -/
def State.msix (s : State) (fn vector : Nat) : State :=
  let key := fn * 16 + vector
  let m := tget ({} : MsixSt) s.hif.msix key
  let busy := match m.until_ with
    | some t => decide (s.time.now < t)
    | none => false
  if busy then s.modHif fun h => { h with msix := tset {} h.msix key { m with merged := true } }
  else s.modHif fun h => { h with
    out := .msix fn vector :: h.out
    msix := tset {} h.msix key { until_ := some (s.time.now + 10000), merged := false } }

/-- An always-on slot of a record raised by k (R508, R513): slots 1, 2, 3. -/
def State.aonAdd (s : State) (rec slot k : Nat) : State :=
  s.modMsr fun m => { m with aon := tmod {} m.aon rec fun a =>
    if slot == 1 then { a with a1 := a.a1 + BitVec.ofNat 48 k }
    else if slot == 2 then { a with a2 := a.a2 + BitVec.ofNat 48 k }
    else { a with a3 := a.a3 + BitVec.ofNat 48 k } }

/-- Record numbers of the counter image (R513). -/
def recCore (c : Nat) : Nat := 1 + c
def recHoop (h : Nat) : Nat := 1025 + h
def recShuttle (e : Nat) : Nat := 5121 + e
def recSlice (x : Nat) : Nat := 7169 + x
def recStrand (x : Nat) : Nat := 7425 + x
def recLpd (x : Nat) : Nat := 11521 + x
def recPort (x : Nat) : Nat := 11537 + x
def recPtn (x : Nat) : Nat := 11549 + x

/-- PARTITION of an event that belongs to no partition (R529). -/
def noPart : Nat := 255

/-- The key and limit per second under which a record may be suppressed (R531). -/
def recLimit (cls : RecCls) (unit : Nat) (acct : Acct) : Option (Nat × Nat) :=
  match cls with
  | .corrected => some (128 + unit, 1)
  | .absorbed => some (acct.key, 1000)
  | _ => none

/-- A PlatformEventMessage to the requester that enabled events, if any (R562, R563): sensor and reading. -/
def State.platformEvent (s : State) (sensor : Nat) (reading : Int) : State :=
  if s.mgmt.receiver.isSome then s.modMgmt fun m => { m with out := .event sensor reading :: m.out } else s

/-- A record written: the module log, the partition log's copy (R534), the flags and the MSI-X message of its class. -/
def State.writeRecord (s : State) (cls : RecCls) (acct : Acct) (r : ErrRec) : State :=
  let slot := s.err.written.toNat % 2048
  let s := s.modErr fun e => { e with
    log := e.log.filter (fun x => !(x.1 == slot))
    written := e.written + 1 }
  let s := s.when (!s.err.moduleFault && decide (cls = .module)) fun s => s.platformEvent 10 1
  let s := s.modErr fun e => { e with moduleFault := e.moduleFault || decide (cls = .module), log := tinsert e.log slot r }
  let s := s.aonAdd 0 1 1
  let logPart : Option Nat := match cls with
    | .contained | .partition => if r.part < 16 then some r.part else none
    | .absorbed => match acct with
      | .fn n => if 1 ≤ n ∧ n ≤ 16 then some (n - 1) else none
      | _ => none
    | _ => none
  let s := match logPart with
    | some p =>
      let k := p * 64 + (s.part p).written.toNat % 64
      (s.modErr fun e => { e with plog := tinsert (terase e.plog k) k r }).modPart p fun x => { x with written := x.written + 1 }
    | none => s
  match cls with
  | .corrected => s
  | .absorbed | .contained => s.msix 0 1
  | .partition =>
    let s := s.msix 0 0
    if r.part < 16 then
      (s.modPart r.part fun x => { x with ptnRecords := satAdd x.ptnRecords 1 }).when (s.fn (r.part + 1)).enabled fun s => s.msix (r.part + 1) 1
    else s
  | .module => s.msix 0 0

/-- An event that writes an error record: written, or counted as suppressed beyond the limit of its second (R531). -/
def State.record (s : State) (cls : RecCls) (acct : Acct) (unit source code part : Nat) (detail : List Byte) : State :=
  let second := s.now / 1000000000
  let s := if s.err.second == second then s else s.modErr fun e => { e with second := second, counts := [] }
  let r : ErrRec := { time := s.time.now, unit := unit, cls := cls.code, source := source, code := code, part := part,
                      detail := detail }
  let s := s.when (decide (cls = .absorbed) && (source == 6 || source == 7 || unit == unitId 0x0D 2)) fun s => s.aonAdd 0 2 1
  match recLimit cls unit acct with
  | none => s.writeRecord cls acct r
  | some (key, limit) =>
    let n := tget 0 s.err.counts key
    if n < limit then (s.modErr fun e => { e with counts := tset 0 e.counts key (n + 1) }).writeRecord cls acct r
    else s.modErr fun e => { e with suppressed := satAdd e.suppressed 1 }

/-- An absorbed record of a refused register write whose rule names no other source (R532 source 0x0F). -/
def State.refusedWrite (s : State) (unit part addr : Nat) (acct : Acct) : State :=
  s.record .absorbed acct unit 0x0F 1 part (toBytes 8 addr)

/-! ## Event bits of the functions (R386) -/

/-- The three event bits. -/
inductive FnBit where
  | exc | lost | abort
  deriving DecidableEq, Repr

def FnSt.hasBit (f : FnSt) : FnBit → Bool
  | .exc => f.exc
  | .lost => f.lost
  | .abort => f.abort

def FnSt.setBit (f : FnSt) : FnBit → FnSt
  | .exc => { f with exc := true }
  | .lost => { f with lost := true }
  | .abort => { f with abort := true }

/-- The messages of a bit of HIF_FN_STATE that changed from 0 to 1: PF0 vector 7, and a VF's vector 0 (R379). -/
def State.bitMsix (s : State) (fn : Nat) : State :=
  let s := s.msix 0 7
  if fn == 0 then s else s.when (s.fn fn).enabled fun s => s.msix fn 0

/-- An event bit of one function. -/
def State.fnEvent (s : State) (fn : Nat) (b : FnBit) : State :=
  if (s.fn fn).hasBit b then s else (s.modFn fn fun f => f.setBit b).bitMsix fn

/-- An event of a partition, shown on its VF and on PF0 (R386). -/
def State.partEvent (s : State) (part : Nat) (b : FnBit) : State := (s.fnEvent (part + 1) b).fnEvent 0 b

/-! ## What the module writes to the host (R376, R377) -/

/-- A posted write to host memory. -/
def State.hostWrite (s : State) (fn : Nat) (addr : Dword) (bs : List Byte) : State :=
  s.modHif fun h => { h with out := .write fn addr bs :: h.out }

/-- A completion sent for a host read. -/
def State.complete (s : State) (fn status : Nat) (bs : List Byte) : State :=
  s.modHif fun h => { h with out := .completion fn status bs :: h.out }

/-- A status word (R375). -/
def statusWord (state flags code : Nat) (tag : Word) (count : Nat) : Dword :=
  fld state 60 ||| fld flags 56 ||| fld code 44 ||| fld (tag.toNat % 4096) 32 ||| fld count 0

/-- A host violation: the absorbed record of R384 and one more in VIOLATIONS. -/
def State.hostViolation (s : State) (fn row cls addr : Nat) : State :=
  let part := if fn == 0 then noPart else fn - 1
  (s.record .absorbed (.fn fn) (unitId 0x0C fn) 0x06 cls part (toBytes 8 row ++ toBytes 8 addr)).modFn fn fun f =>
    { f with violations := satAdd f.violations 1 }

end Sys2Proof.Machine
end

