-- ==== Sys2Proof/Machine/Blocks.lean ====
section
/-! DEFINITION. The 256-byte blocks of a port: their layout and CRC, the packets that a data block holds, and the contents of a
control block (R422, R426 to R428, R457). -/

namespace Sys2Proof.Machine

/-! ## Packets as bytes (R427, R428, R457) -/

/-- The header unit of a packet as a 128-bit number (R427). -/
def packetHead (p : Packet) : Nat :=
  p.kind.toNat * 2 ^ 124 + p.vc.toNat * 2 ^ 121 + p.dir.toNat * 2 ^ 120 + p.msk.toNat * 2 ^ 119 + p.rsv118.toNat * 2 ^ 118
    + p.dst.toNat * 2 ^ 101 + p.src.toNat * 2 ^ 84 + p.part.toNat * 2 ^ 80 + p.gaddr.toNat * 2 ^ 39 + p.core.toNat * 2 ^ 29
    + p.cnt.toNat * 2 ^ 21 + p.cen.toNat * 2 ^ 20 + p.rsv19.toNat * 2 ^ 19 + p.etag.toNat

/-- The packet of a header unit and of the units after it. -/
def packetOf (v : Nat) (body : List Byte) : Packet :=
  let f (w lo : Nat) : BitVec w := BitVec.ofNat w (v / 2 ^ lo)
  { kind := f 4 124, vc := f 3 121, dir := f 1 120, msk := f 1 119, rsv118 := f 1 118, dst := f 17 101, src := f 17 84, part := f 4 80
    gaddr := f 41 39, core := f 10 29, cnt := f 8 21, cen := f 1 20, rsv19 := f 1 19, etag := f 19 0, body := body }

/-- A packet as its units. -/
def packetBytes (p : Packet) : List Byte := toBytes 16 (packetHead p) ++ p.body

/-- The units that a header announces: those of its kind; a reserved kind has its header alone (R428, R457). -/
def unitsAt (p : Packet) : Nat :=
  match p.kind.toNat with
  | 1 => 5 + p.msk.toNat
  | 2 | 5 | 6 | 8 => 2
  | 9 | 0xA => 10
  | 0xB => if p.etag.toNat / 512 % 4 == 0 then 10 else 2
  | _ => 1

/-- The packets of the units of a data block, at most n; empty units, in which every bit is 0, hold none (R422, R423). -/
def packetsIn : Nat → List Byte → List Packet
  | 0, _ => []
  | n + 1, bs =>
    if bs.length < 16 then []
    else
      let v := leAt bs 0 16
      if v == 0 then packetsIn n (bs.drop 16)
      else
        let units := unitsAt (packetOf v [])
        packetOf v ((bs.drop 16).take (16 * (units - 1))) :: packetsIn n (bs.drop (16 * units))

end Sys2Proof.Machine

namespace Sys2Proof

/-! ## Blocks as bytes (R422) -/

/-- The first 8 bytes of a block as a number. -/
def Block.head (b : Block) : Nat :=
  b.bkind.toNat * 2 ^ 60 + b.seq.toNat * 2 ^ 48 + b.ack.toNat * 2 ^ 36 + b.ackv.toNat * 2 ^ 35 + b.nak.toNat * 2 ^ 34
    + b.cvc.toNat * 2 ^ 31 + b.credits.toNat * 2 ^ 20 + b.rsv.toNat

/-- The bytes that the CRC covers: bytes 0 to 251. -/
def Block.covered (b : Block) : List Byte :=
  Machine.toBytes 8 b.head ++ Machine.slice b.payload 0 240 ++ Machine.toBytes 4 b.tail.toNat

/-- The 256 bytes of a block. -/
def Block.bytes (b : Block) : List Byte := b.covered ++ Machine.toBytes 4 b.crc.toNat

/-- Whether the CRC of a block is good, and the block with its CRC. -/
def Block.crcOk (b : Block) : Bool := Machine.crc32c b.covered == b.crc
def Block.withCrc (b : Block) : Block := { b with crc := Machine.crc32c b.covered }

/-- The packets that a data block holds. -/
def Block.packets (b : Block) : List Packet := Machine.packetsIn 15 (b.payload.take 240)

/-- CKIND of a control block (R426). -/
def Block.ckind (b : Block) : Nat := Machine.leAt b.payload 0 1

/-- Whether a block is a control block of a kind. -/
def Block.isCtl (b : Block) (ckind : Nat) : Bool := b.bkind == 2 && b.ckind == ckind

end Sys2Proof

namespace Sys2Proof.Machine

/-! ## Control blocks (R426; the places of their contents DESIGN CHOICE, log entry 94) -/

/-- Bytes of content after CKIND. -/
def ctlLen (ckind : Nat) : Nat :=
  match ckind with
  | 1 => 9
  | 2 => 1
  | 3 => 16
  | _ => 0

/-- Whether the reserved fields of a block are 0, those of its content among them (R422, R426, R445). -/
def reservedOk (b : Block) : Bool :=
  b.rsv == 0 && b.tail == 0 &&
    (b.bkind != 2 || (zeroAt b.payload (1 + ctlLen b.ckind) (239 - ctlLen b.ckind)
      && (b.ckind != 1 || (leAt b.payload 1 8 / 2 ^ 60 == 0 && leAt b.payload 1 8 / 2 ^ 17 % 2 ^ 27 == 0 && decide (leAt b.payload 9 1 < 16)))))

/-- Whether a block is good: its CRC, its kind, a control block's kind, its channel and its reserved fields. -/
def blockOk (b : Block) : Bool :=
  b.crcOk && b.bkind.toNat ≤ 2 && (b.bkind != 2 || decide (1 ≤ b.ckind ∧ b.ckind ≤ 4)) && reservedOk b && b.cvc.toNat ≤ 5

/-- The contents of IDENT: the fields of WLK_SYS as that register holds them, and the port ID. -/
def identPayload (sysWord port : Nat) : List Byte := [1#8] ++ toBytes 8 sysWord ++ toBytes 1 port

/-- An IDENT read. -/
def identOf (b : Block) : IdentMsg :=
  let v := leAt b.payload 1 8
  { module := BitVec.ofNat 17 v, port := leAt b.payload 9 1 % 16
    shape := (List.range 5).map (fun d => nbits v (46 + 3 * d) (44 + 3 * d)) ++ [nbits v 59 59] }

/-- The contents of LANES, and the mask of one read. -/
def lanesPayload (mask : BitVec 8) : List Byte := [2#8, mask]
def trainedOf (b : Block) : BitVec 8 := nth 0 b.payload 1

/-- The contents of TIME, and the times of one read: at send, and at receipt of the peer's last. -/
def timePayload (sent received : Nat) : List Byte := [3#8] ++ toBytes 8 sent ++ toBytes 8 received
def timesOf (b : Block) : Dword × Dword := (BitVec.ofNat 64 (leAt b.payload 1 8), BitVec.ofNat 64 (leAt b.payload 9 8))

/-- The contents of DOWN. -/
def downPayload : List Byte := [4#8]

end Sys2Proof.Machine
end

