-- ==== Sys2Proof/Machine/Counters.lean ====
section
/-! DEFINITION. Stitch counters: additions, writes, FAULT bits, and the waits they satisfy (R196, R197, R204, R269). -/

namespace Sys2Proof.Machine

/-- The value of a counter. -/
def Core.cntVal (k : Core) (n : Nat) : Dword := tget 0 k.cnt n

/-- Whether a value satisfies a wait: GE unsigned, or DIFF as a signed difference (R197). -/
def swaitMet (diff : Bool) (value target : Dword) : Bool :=
  if diff then !(value - target).msb else decide (target ≤ value)

/-- Waits on a counter compared with its value; one that is satisfied stays so. -/
def Skein.compareWaits (k : Skein) (n : Nat) (v : Dword) : Skein :=
  { k with waits := k.waits.map fun w =>
      if w.started && w.counter == n && swaitMet w.diff v w.target then { w with satisfied := true } else w }

/-- A counter set to a value, and the waits on it compared (R196, R204). -/
def State.cntSet (s : State) (c n : Nat) (v : Dword) : State :=
  s.modCore c fun k => { k with
    cnt := tset 0 k.cnt n v
    skeins := k.skeins.map fun e => (e.1, e.2.compareWaits n v) }

/-- An addition to a counter, modulo 2^64 (R196). -/
def State.cntAdd (s : State) (c n : Nat) (v : Nat) : State :=
  s.cntSet c n ((s.core c).cntVal n + BitVec.ofNat 64 v)

/-- The FAULT bit of a counter set (R201). -/
def State.cntFault (s : State) (c n : Nat) : State :=
  s.modCore c fun k => { k with cntFault := k.cntFault ||| BitVec.ofNat 256 (2 ^ n) }

/-- The module of the last remote addition to a counter remembered (R522). -/
def State.cntFrom (s : State) (c n module : Nat) : State :=
  s.modCore c fun k => { k with cntRemote := tset 0 k.cntRemote n (module + 1) }

end Sys2Proof.Machine
end

