-- ==== Sys2Proof/Machine/Cache.lean ====
section
/-! DEFINITION. L1D, L1I and L2: indices, replacement, the directory, fills and invalidations (R221 to R230). L1D and L2 hold
tags only, since both stay coherent; L1I holds the bytes it fetched. -/

namespace Sys2Proof.Machine

/-- Set index of L1D and L1I (R221). -/
def l1Set (a : Nat) : Nat := (nbits a 13 7 ^^^ nbits a 20 14) ^^^ nbits a 27 21

/-- Slice on the home die and set of L2 (R225). -/
def l2Slice (a : Nat) : Nat := (List.range 7).foldl (fun s k => s ^^^ (a / 2 ^ (7 + 6 * k) % 64)) 0
def l2Set (a : Nat) : Nat := a / 2 ^ 13 % 768

/-- L2 slice ID of an address (R14). -/
def State.sliceOf (s : State) (a : Nat) : Nat := s.homeDie a * 64 + l2Slice a

/-! ## Replacement (R227) -/

/-- The way a tree of L levels points to, as a pair number. -/
def treePair (tree : Byte) : Nat → Nat → Nat
  | 0, n => n
  | l + 1, n => treePair tree l (2 * n + b2n (bit tree n))

/-- The victim way and the LFSR after it: the lowest invalid way, else by the tree and the LFSR. -/
def victim (levels ways : Nat) (set : CacheSet) (usable : Nat → Bool) (lfsr : BitVec 16) : Nat × BitVec 16 :=
  match (List.range ways).find? fun w => usable w && !(set.ways.any fun e => e.1 == w) with
  | some w => (w, lfsr)
  | none =>
    let pair := treePair set.tree levels 1 - 2 ^ levels
    let fb := b2n (bit lfsr 0 != bit lfsr 2) != b2n (bit lfsr 3 != bit lfsr 5)
    (2 * pair + b2n (bit lfsr 0), (lfsr >>> 1) ||| (if fb then 0x8000#16 else 0))

/-- touch(set, way, depth). -/
def touchTree (levels way : Nat) : Nat → Nat → Nat → Byte → Byte
  | 0, _, _, t => t
  | d + 1, level, n, t =>
    let half := way / 2 ^ (levels + 1 - level) % 2
    touchTree levels way d (level + 1) (2 * n + half) (setBits t n n (1 - half))

def CacheSet.touch (levels way depth : Nat) (s : CacheSet) : CacheSet := { s with tree := touchTree levels way depth 1 1 s.tree }

/-- The way that holds a line. -/
def CacheSet.find (s : CacheSet) (tag : Nat) : Option Nat := (s.ways.find? fun e => e.2.tag == tag).map (·.1)

def Cache.set (c : Cache) (i : Nat) : CacheSet := tget {} c.sets i
def Cache.modSet (c : Cache) (i : Nat) (f : CacheSet → CacheSet) : Cache := { c with sets := tmod {} c.sets i f }

/-- A line taken out of a set. -/
def CacheSet.drop (s : CacheSet) (tag : Nat) : CacheSet := { s with ways := s.ways.filter fun e => !(e.2.tag == tag) }

/-- A line filled into a cache: the victim's line leaves (answered second), and touch follows at a depth. -/
def Cache.fill (c : Cache) (levels ways i depth : Nat) (usable : Nat → Bool) (w : Way) : Cache × Option Way :=
  let set := c.set i
  let (v, lfsr) := victim levels ways set usable c.lfsr
  let old := (set.ways.find? fun e => e.1 == v).map (·.2)
  let set := { set with ways := tinsert (terase set.ways v) v w }
  ({ (c.modSet i fun _ => set.touch levels v depth) with lfsr := lfsr }, old)

/-! ## Lines of the module -/

/-- A line leaves a core's L1D. -/
def State.dropL1d (s : State) (c line : Nat) : State :=
  s.modCore c fun k => { k with l1d := k.l1d.modSet (l1Set (line * 128)) fun x => x.drop line }

/-- The L2 slice of an address. -/
def State.sliceCache (s : State) (n : Nat) : Cache := tget {} s.mem.l2 n
def State.modSlice (s : State) (n : Nat) (f : Cache → Cache) : State := s.modMem fun m => { m with l2 := tmod {} m.l2 n f }

/-- The L2 entry of a line changed, where the line is held. -/
def State.modLine (s : State) (line : Nat) (f : Way → Way) : State :=
  s.modSlice (s.sliceOf (line * 128)) fun c => c.modSet (l2Set (line * 128)) fun x =>
    { x with ways := x.ways.map fun e => if e.2.tag == line then (e.1, f e.2) else e }

/-- The L2 entry of a line. -/
def State.lineAt (s : State) (line : Nat) : Option Way :=
  (((s.sliceCache (s.sliceOf (line * 128))).set (l2Set (line * 128))).ways.find? fun e => e.2.tag == line).map (·.2)

/-- A line taken out of L2. -/
def State.dropLine (s : State) (line : Nat) : State :=
  s.modSlice (s.sliceOf (line * 128)) fun c => c.modSet (l2Set (line * 128)) fun x => x.drop line

/-! ## The directory (R223) -/

/-- Whether an entry names a core. -/
def Way.names (w : Way) (c : Nat) : Bool := w.sharers.contains c || w.groups.getLsbD (c / 16)

/-- The groups of 16 cores that some cores fall into. -/
def groupsOf (l : List Nat) : BitVec 64 := l.foldl (fun g c => g ||| (1#64 <<< (c / 16))) 0

/-- A core recorded: as one of four exact IDs, beyond that by its group. -/
def Way.share (w : Way) (c : Nat) : Way :=
  if w.names c then w
  else if w.groups != 0 then { w with groups := w.groups ||| groupsOf [c] }
  else if w.sharers.length < 4 then { w with sharers := c :: w.sharers }
  else { w with sharers := [], groups := groupsOf (c :: w.sharers) }

/-- The line of an entry leaves every L1D that the entry names. -/
def State.unshare (s : State) (w : Way) : State := s.each ((s.cores.map (·.1)).filter w.names) fun s c => s.dropL1d c w.tag

/-- A core recorded in the directory entry of a line. -/
def State.dirAdd (s : State) (c line : Nat) : State := s.modLine line fun w => w.share c

/-- Blocks of stacked memory under way, newest first: address, bytes before, owner tag. -/
def State.writing (s : State) (l : List (Nat × List Byte × Nat)) : State := s.modMem fun m => { m with writes := (l ++ m.writes).take 64 }

/-- A line leaves L2, after every L1D the directory names; a dirty one is written back, on a stack with two transfers that may still
fail (R223, R234). -/
def State.evict (s : State) (w : Way) : State :=
  let a := w.tag * 128
  (s.unshare w).when (w.dirty && isStack a) fun s => s.writing [(a, w.mem.take 64, w.owner), (a + 64, w.mem.drop 64, w.owner)]

/-- The L1D copies of the lines of a written range invalidated, the writer's own among them. -/
def State.invalDir (s : State) (a n : Nat) : State :=
  if n == 0 then s
  else s.each ((List.range ((a + n - 1) / 128 + 1 - a / 128)).map (a / 128 + ·)) fun s line =>
    match s.lineAt line with
    | none => s
    | some w => (s.unshare w).modLine line fun w => { w with sharers := [], groups := 0 }

/-! ## Accesses (R220, R225 to R228, R243) -/

/-- Depth of an L2 fill by hint (R228). -/
def l2Depth (hint : Nat) : Nat := if hint == 1 then 0 else if hint == 2 then 3 else 1

/-- The ways of a slice that may hold lines: all but one under test (R542). -/
def State.usableWay (s : State) (slice way : Nat) : Bool := !(s.mem.l2Test == some (slice, way))

/-- A line touched in L2 where it is held: every hit, whatever the access (R227). -/
def State.l2Touch (s : State) (line : Nat) : State :=
  let sl := s.sliceOf (line * 128)
  let i := l2Set (line * 128)
  match ((s.sliceCache sl).set i).find line with
  | some w => s.modSlice sl fun c => c.modSet i fun x => x.touch 3 w 3
  | none => s

/-- The owner tag of an agent, by its PARTITION byte: 16 for the hub, PF0 and firmware (R226). -/
def ownerTag (part : Nat) : Nat := min part 16

/-- A line brought into L2 at its home die, or touched there (R225 to R228). One with data that cannot be corrected is not
allocated (R243). -/
def State.l2Access (s : State) (line owner hint : Nat) : State :=
  let sl := s.sliceOf (line * 128)
  let i := l2Set (line * 128)
  if (((s.sliceCache sl).set i).find line).isSome then s.l2Touch line
  else if s.damagedAt (line * 128) 128 then s
  else
    let (c, old) := (s.sliceCache sl).fill 3 16 i (l2Depth hint) (s.usableWay sl) { tag := line, owner := ownerTag owner }
    let s := s.modSlice sl fun _ => c
    match old with
    | some w => s.evict w
    | none => s

/-- The lines of a range of stacked memory or LPDDR6 as an agent other than a core's L1 reads them: through a Normal mapping they
are allocated, else touched where held (R220, R227); an LPDDR6 channel wakes. -/
def State.agentRead (s : State) (normal : Bool) (owner a n : Nat) : State :=
  if n == 0 || !(isStack a || isLpd a) then s
  else s.each ((List.range ((a + n - 1) / 128 + 1 - a / 128)).map (a / 128 + ·)) fun s line =>
    let s := s.lpdWake (line * 128)
    if normal then s.l2Access line owner 0 else s.l2Touch line

/-- The way of a core's L1D that holds a line. -/
def State.l1dWay (s : State) (c line : Nat) : Option Nat := ((s.core c).l1d.set (l1Set (line * 128))).find line

/-- A line touched in a core's L1D where it is held (R227). -/
def State.l1dTouch (s : State) (c line : Nat) : State :=
  match s.l1dWay c line with
  | some w => s.modCore c fun k => { k with l1d := k.l1d.modSet (l1Set (line * 128)) fun x => x.touch 3 w 3 }
  | none => s

/-- A Normal load's line, by hint; `fill` false where an INVAL came since (R220, R228, R230). -/
def State.normalLoad (s : State) (c part a hint : Nat) (fill : Bool) : State :=
  let line := a / 128
  if (s.l1dWay c line).isSome then s.l1dTouch c line
  else
    let s := s.l2Access line part hint
    if hint == 1 || !fill || s.damagedAt (line * 128) 128 then s
    else
      let r := (s.core c).l1d.fill 3 16 (l1Set a) (if hint == 2 then 3 else 1) (fun _ => true) { tag := line }
      (s.modCore c fun k => { k with l1d := r.1 }).dirAdd c line

/-- A held line made dirty: what memory holds below it is kept (R226, R243). -/
def State.dirty (s : State) (line : Nat) : State :=
  match s.lineAt line with
  | some w =>
    if w.dirty then s
    else
      let bs := s.bytesAt (line * 128) 128
      let key := tget 0 s.mem.lineKey line
      s.modLine line fun w => { w with dirty := true, mem := bs, memKey := key }
  | none => s

/-- A write that does not allocate: it goes into a line that L2 holds, else to memory, on a stack with a transfer that may still
fail (R233, R234). -/
def State.passWrite (s : State) (owner a n : Nat) : State :=
  if n == 0 || !(isStack a || isLpd a) then s
  else s.each ((List.range ((a + n - 1) / 64 + 1 - a / 64)).map (a / 64 + ·)) fun s b =>
    if (s.lineAt (b / 2)).isSome then (s.l2Touch (b / 2)).dirty (b / 2)
    else if isStack a then
      s.writing [(b * 64, s.bytesAt (b * 64) 64, owner)]
    else s

/-- A write performed at its home by an agent (R223, R251): directory copies go, then the bytes stand under the key. -/
def State.homeWrite (s : State) (part key a : Nat) (bs : List Byte) : State :=
  (((s.invalDir a bs.length).lpdWake a).passWrite (ownerTag part) a bs.length).keyPoke key a bs

/-- A Normal write within one line: the line is brought into L2 and dirty, then written (R220, R226). -/
def State.normalWrite (s : State) (part hint key a : Nat) (bs : List Byte) : State :=
  let s := (s.lpdWake a).l2Access (a / 128) part hint
  if (s.lineAt (a / 128)).isSome then ((s.dirty (a / 128)).invalDir a bs.length).keyPoke key a bs
  else s.homeWrite part key a bs

/-- A write of the hub or firmware: line by line as a Normal one, under owner tag 16 (R226; DEDUCED, log entry 32). -/
def State.hubWrite (s : State) (a : Nat) (bs : List Byte) : State :=
  if bs.isEmpty then s
  else s.each (List.range ((a + bs.length - 1) / 128 + 1 - a / 128)) fun s i =>
    let lo := max a ((a / 128 + i) * 128)
    let hi := min (a + bs.length) ((a / 128 + i + 1) * 128)
    s.normalWrite 16 0 0 lo (slice bs (lo - a) (hi - lo))

/-! ## Prefetches and invalidations (R229, R230) -/

/-- The lines whose L1D fill is outstanding on a core (R224). -/
def Core.l1dFills (k : Core) : List Nat :=
  let loads := k.lq.flatMap fun e => if e.hint == 1 then [] else (e.accs.filter fun a => a.typ == 0).map fun a => a.addr / 128
  ((loads ++ (k.prefs.filter fun p => p.target == 0).map (·.line)).filter fun l => ((k.l1d.set (l1Set (l * 128))).find l).isNone).eraseDups

/-- Whether the fills that a load needs are among those outstanding, or fit beside them: 64 at most (R224). -/
def Core.fillsFit (k : Core) (hint : Nat) (accs : List LaneAcc) : Bool :=
  let old := k.l1dFills
  let new := ((accs.filter fun a => a.typ == 0).map fun a => a.addr / 128).filter fun l =>
    ((k.l1d.set (l1Set (l * 128))).find l).isNone && !old.contains l
  hint == 1 || decide (old.length + new.eraseDups.length ≤ 64)

/-- A line of a PREF: dropped where its target holds it, where its fill is outstanding already, and where it would be the 49th
fill outstanding on the core (R229). -/
def State.prefetch (s : State) (c part a target hint : Nat) : State :=
  let line := a / 128
  let k := s.core c
  let held := if target == 0 then (s.l1dWay c line).isSome else (s.lineAt line).isSome
  if held || k.l1dFills.contains line || (k.prefs.any fun p => p.line == line)
      || 48 ≤ k.l1dFills.length + (k.prefs.filter fun p => p.target != 0).length then s
  else s.modCore c fun k => { k with prefs := k.prefs ++ [{ part := part, line := line, target := target, hint := hint }] }

/-- The oldest outstanding prefetch of a core is filled; target 2 also takes the line out of every L1D (R229). -/
def State.prefDone (s : State) (c : Nat) : State :=
  match (s.core c).prefs with
  | [] => s
  | p :: r =>
    let s := (s.modCore c fun k => { k with prefs := r }).lpdWake (p.line * 128)
    if p.target == 0 then (if (s.l1dWay c p.line).isSome then s else s.normalLoad c p.part (p.line * 128) p.hint true)
    else
      let s := s.l2Access p.line p.part p.hint
      if p.target == 2 then s.invalDir (p.line * 128) 128 else s

/-- INVAL of L1D: its lines go, and what is outstanding does not allocate (R230). -/
def Core.invalL1d (k : Core) : Core :=
  { k with
    l1d := { k.l1d with sets := k.l1d.sets.map fun x => (x.1, { x.2 with ways := [] }) }
    lq := k.lq.map fun e => { e with noFill := true }
    prefs := k.prefs.map fun p => if p.target == 0 then { p with target := 1 } else p }

/-- INVAL of L2 for a partition: its lines are written back and leave (R230). -/
def State.invalL2 (s : State) (part : Nat) : State :=
  let gone := s.mem.l2.flatMap fun c => c.2.sets.flatMap fun x => (x.2.ways.map (·.2)).filter fun w => w.owner == part
  let s := s.each gone fun s w => s.evict w
  s.modMem fun m => { m with l2 := m.l2.map fun c =>
    (c.1, { c.2 with sets := c.2.sets.map fun x => (x.1, { x.2 with ways := x.2.ways.filter fun e => !(e.2.owner == part) }) }) }

end Sys2Proof.Machine
end

