-- ==== Sys2Proof/Machine/Xlat.lean ====
section
/-! DEFINITION. Translation (R215 to R218, R242), the reach of an address (R18, R19, R212, R275), and what each access of a
core may meet. -/

namespace Sys2Proof.Machine

/-- This module's ID. -/
def State.myId (s : State) : Nat := s.wlk.moduleId.toNat

/-- Whether a client holds a key, and its number (R242, R404). -/
def State.clientKey (s : State) (c : Nat) : Option Nat := (s.thm.clients.find? fun x => x.id.toNat == c).map (·.key)

/-- The two words of a table entry (R216). -/
def State.pte (s : State) (table idx : Nat) : Nat × Nat := (s.natAt (table + idx * 16) 8, s.natAt (table + idx * 16 + 8) 8)

/-- The local address of this module's stacked memory that a global address names, aligned to n (R215). -/
def State.ownStack (s : State) (g n : Nat) : Option Nat :=
  if modOf g == s.myId && isStack (locOf g) && g % n == 0 then some (locOf g) else none

/-- A valid table pointer: V only, naming this module's stacked memory, aligned to its table (R217). -/
def State.ptrOk (s : State) (e : Nat × Nat) (size : Nat) : Option Nat := if e.2 == 1 then s.ownStack e.1 size else none

/-- A valid leaf but for its key: the leaf under the module key, and the CLIENT whose key it asks for, if any (R217). -/
def State.leafForm (s : State) (e : Nat × Nat) (size : Nat) : Option (Leaf × Option Nat) :=
  let w := e.2
  let ksel := nbits w 6 6
  let client := nbits w 19 8
  let ownLpd := modOf e.1 == s.myId && isLpd (locOf e.1)
  if nbits w 1 0 != 3 || w / 2 ^ 20 != 0 || nbits w 7 7 != 0 || nbits w 3 2 == 3 || e.1 % size != 0
      || ((ksel != 0 || client != 0) && !ownLpd) || (client != 0 && ksel == 0) then none
  else
    some ({ addr := e.1, size := size, typ := nbits w 3 2, w := nbits w 4 4 == 1, x := nbits w 5 5 == 1, key := 0 },
      if ksel == 0 then none else some client)

/-- A valid leaf (R217, and R242 for its key). -/
def State.leafOk (s : State) (e : Nat × Nat) (size : Nat) : Option Leaf :=
  match s.leafForm e size with
  | none => none
  | some (l, none) => some l
  | some (l, some client) => (s.clientKey client).map fun key => { l with key := key }

/-- The walk of three levels (R215). -/
def State.walk (s : State) (part va : Nat) : Option Leaf :=
  let base := (s.part part).xlatBase.toNat
  if 2 ^ 48 ≤ va || base == 0 then none
  else
    match s.ownStack base 0x10000 with
    | none => none
    | some t1 =>
      match s.ptrOk (s.pte t1 (nbits va 47 36)) 0x80000 with
      | none => none
      | some t2 =>
        let e := s.pte t2 (nbits va 35 21)
        if nbits e.2 1 1 == 1 then s.leafOk e 0x200000
        else
          match s.ptrOk e 512 with
          | none => none
          | some t3 =>
            let l := s.pte t3 (nbits va 20 16)
            if nbits l.2 1 1 == 1 then s.leafOk l 0x10000 else none

/-- Whether the key that a translation selects is one in force: the module key, or a key that a client holds now (R242). -/
def State.keyHeld (s : State) (key : Nat) : Bool := key == 0 || s.thm.clients.any fun x => x.key == key

/-- The translation that one access of a core uses: the tables as they stand, or one still cached or that firmware has replaced; which
of them, while they differ, is free until the invalidation completes (R218). A cached one under a key that no client holds any more is not used
(R242). `n` tells the accesses of one instruction apart. -/
def State.coreLeaf (s : State) (c part va n : Nat) : Option Leaf :=
  let old := (((s.core c).tlb.filter fun e => e.1 == va / 0x10000)
    ++ (s.part part).oldLeaves.filter fun e => e.1 / e.2.size == va / e.2.size).map (·.2)
  let old := (old.filter fun l => s.keyHeld l.key).eraseDups
  let now := s.walk part va
  match old.filter fun l => !(some l == now) with
  | [] => now
  | l :: r =>
    let k := Config.freeChoice (s.time.free + n) (r.length + 2) % (r.length + 2)
    if k == 0 then now else some (nth l (l :: r) (k - 1))

/-- A translation that an access of a core used stays in its cache; of 256 cached ones, a free one makes room (R218). -/
def State.keepLeaf (s : State) (c va : Nat) (l : Leaf) : State :=
  let n := Config.freeChoice s.time.free 256 % 256
  s.modCore c fun k =>
    if k.tlb.contains (va / 0x10000, l) then k
    else { k with tlb := (va / 0x10000, l) :: if k.tlb.length < 256 then k.tlb else dropAt k.tlb n }

/-- The global address that a leaf gives a virtual address. -/
def Leaf.at_ (l : Leaf) (va : Nat) : Nat := l.addr + va % l.size

/-- Where a local address lies, for an agent other than the owning core (R18, R19, R212). -/
inductive Place where
  | stack | lpd
  | window (core : Nat)
  | sealed_
  | reg
  | unmapped
  deriving DecidableEq, Repr

def State.place (s : State) (a : Nat) : Place :=
  if isStack a then .stack
  else if s.lpdHere a then .lpd
  else if isReg a then .reg
  else if isScratchRange a then
    match s.partOf (scratchCore a) with
    | none => .unmapped
    | some p => if !isScratch a then .unmapped else if (s.part p).sealed_ then .sealed_ else .window (scratchCore a)
  else .unmapped

/-- The kinds of core access that raise different causes. -/
inductive AccKind where
  | load | store | atomic
  deriving DecidableEq, Repr

/-- What one lane's access reaches: a local address under a key as Normal (0), Stream (1) or Stay (2), or a store to another
module at a global address. -/
inductive Reach where
  | mem (addr key typ : Nat)
  | remote (g : Nat)
  deriving DecidableEq, Repr

/-- Whether a local range of another module may be stored to (R275). -/
def remoteStorable (g : Nat) : Bool := isStack (locOf g) || isScratchRange (locOf g)

/-- The causes an access of a partition through a leaf raises (R63, R110, R211 to R220, R243, R275; R408 for SEND_EN), and what
it reaches. -/
def State.leafCauses (s : State) (part : Nat) (kind : AccKind) (l : Leaf) (va size : Nat) : List Nat × Option Reach :=
  let g := l.at_ va
  let a := locOf g
  let perm := if kind != .load && !l.w then [5] else []
  if modOf g != s.myId then
    match kind with
    | .load => ([3], none)
    | .atomic => (perm ++ [7], none)
    | .store => if l.typ != 2 && remoteStorable g && (s.part part).sendEn then (perm, some (.remote g)) else (3 :: perm, none)
  else
    let ue := if kind != .store && s.damagedAt a size then [9] else []
    match s.place a with
    | .stack | .lpd =>
      if kind == .atomic && l.typ != 0 then (perm ++ [7], none) else (perm ++ ue, some (.mem a l.key l.typ))
    | .window _ => if kind == .atomic then (perm ++ [7], none) else (perm ++ ue, some (.mem a 0 1))
    | .sealed_ => (perm ++ (if kind == .atomic then [7, 8] else [8]), none)
    | .reg =>
      if kind == .atomic then (perm ++ [7], none)
      else if size < 4 || 8 < size then (perm ++ [6], none) else (perm, some (.mem a 0 2))
    | .unmapped => (3 :: perm, none)

/-- The causes of one lane's access at a virtual address, the lowest of which counts (R63, R108). -/
def State.vaCauses (s : State) (c part : Nat) (kind : AccKind) (va size n : Nat) : List Nat × Option Reach × Option Leaf :=
  let mis := if va % size != 0 then [6] else []
  match s.coreLeaf c part va n with
  | none => (4 :: mis, none, none)
  | some l => let r := s.leafCauses part kind l va size; (mis ++ r.1, r.2, some l)

/-- The causes of one lane's access to the core's own scratch (R107). -/
def State.ownCauses (s : State) (c : Nat) (kind : AccKind) (o size : Nat) : List Nat × Option Reach × Option Leaf :=
  let mis := if o % size != 0 then [6] else []
  if scratchLen ≤ o then (3 :: mis, none, none)
  else
    let a := scratchAt c o
    (mis ++ (if kind != .store && s.damagedAt a size then [9] else []), some (.mem a 0 3), none)

/-- The lowest of a list of causes. -/
def lowest (l : List Nat) : Option Nat := l.foldl (fun m c => match m with
  | none => some c
  | some d => some (min c d)) none

end Sys2Proof.Machine
end

