-- ==== Sys2Proof/Machine/Faults.lean ====
section
/-! DEFINITION. Faults of units: records of uncorrectable data (R243), quarantine (R536, R537), and what halts a skein: the
precise exception with the abort of its bundle (R62 to R66). -/

namespace Sys2Proof.Machine

/-- PARTITION byte of a core. -/
def State.partByte (s : State) (c : Nat) : Nat := (s.partOf c).getD noPart

/-! ## Quarantine (R536, R537, R539) -/

/-- The record and message of an entry into quarantine or a release: code 1 threshold, 2 failed fitting, 3 forced,
4 released. -/
def State.quarRecord (s : State) (cls idx core code faults : Nat) : State :=
  (s.record .contained .module (unitId cls idx) 0x0B code (s.partByte core) (toBytes 4 faults)).msix 0 6

def State.modFlash (s : State) (f : Flash → Flash) : State := s.modThm fun t => { t with flash := f t.flash }

/-- A core that runs is held: HELD, and its island's CSTATE; a gated island stays so (R477, R537, R542). -/
def State.holdCore (s : State) (c : Nat) : State :=
  let s := s.modCore c fun k => { k with held := true }
  if (s.island c).st == .gated then s else s.setIsland c .held

/-- A core enters quarantine: it is held as for fitting and waits for its reset (R537). -/
def State.quarCore (s : State) (c code faults : Nat) : State :=
  if (s.core c).quar then s
  else
    let s := (s.modCore c fun k => { k with quar := true, quarAt := some s.time.now }).holdCore c
    (s.modFlash fun f => { f with quarCores := c :: f.quarCores }).quarRecord 1 c c code faults

/-- A hoop enters quarantine at once. -/
def State.quarHoop (s : State) (c h code faults : Nat) : State :=
  if ((s.core c).hoop h).quar then s
  else
    let s := s.modHoop c h fun x => { x with quar := true }
    (s.modFlash fun f => { f with quarHoops := (c * 4 + h) :: f.quarHoops }).quarRecord 2 (c * 4 + h) c code faults

/-- A shuttle engine enters quarantine at once. -/
def State.quarEngine (s : State) (c e code faults : Nat) : State :=
  if ((s.core c).engine e).quar then s
  else
    let s := s.modEngine c e fun x => { x with quar := true }
    (s.modFlash fun f => { f with quarEngines := (c * 2 + e) :: f.quarEngines }).quarRecord 3 (c * 2 + e) c code faults

/-- 24 hours of global time. -/
def dayNs : Nat := 86400000000000

/-- The faults of a list of times that fall within 24 hours of now. -/
def State.within24h (s : State) (l : List Dword) : List Dword := l.filter fun t => decide (s.now < t.toNat + dayNs)

/-- An uncorrectable event in a core's scratch: two within 24 hours quarantine the core (R536). -/
def State.coreUe (s : State) (c : Nat) : State :=
  let l := s.time.now :: s.within24h (s.core c).ues
  let s := s.aonAdd (recCore c) 2 1
  let s := s.modCore c fun k => { k with ues := l }
  if 2 ≤ l.length then s.quarCore c 1 l.length else s

/-! ## Uncorrectable data (R243) -/

/-- Unit of the tier that holds an address. -/
def State.tierUnit (s : State) (a : Nat) : Nat :=
  if isStack a then unitId 5 (s.strandOf a) else if isLpd a then unitId 6 (lpdChannel a) else unitId 1 (scratchCore a)

/-- The record and counts of an uncorrectable event at an address, by source code and the owner tag of the access. -/
def State.ueEvent (s : State) (cls : RecCls) (code a part owner : Nat) : State :=
  let s := s.record cls .module (s.tierUnit a) 0x05 code part (toBytes 8 a ++ [BitVec.ofNat 8 owner])
  if isStack a then
    (s.aonAdd (recStrand (s.strandOf a)) 2 1).modStrand (s.strandOf a) fun t => { t with lastUe := BitVec.ofNat 36 (s.dieOffset a / 64 * 64) }
  else if isLpd a then s.aonAdd (recLpd (lpdChannel a)) 2 1
  else s.coreUe (scratchCore a)

/-- A read that met uncorrectable data, for a partition or for none (noPart, owner tag 16). -/
def State.ueRead (s : State) (a part : Nat) : State := s.ueEvent .contained 2 a part (if part < 16 then part else 16)

/-! ## Exceptions (R62 to R66) -/

/-- Whether a cause records a fault address (R63). -/
def causeHasAddr (cause : Nat) : Bool := (decide (3 ≤ cause) && decide (cause ≤ 9)) || cause == 13

/-- A bundle is aborted by a skein's exception: its cause and first slot are those of the first; every other skein of it
stops at its next issue boundary, and one in STATE 5 at once (R64). -/
def State.abortBundle (s : State) (c b slot cause : Nat) : State :=
  s.modCore c fun k =>
    let first := !(k.bundle b).aborting
    let k := k.modBundle b fun x => if first then
      { x with aborting := true, cause := BitVec.ofNat 8 cause, firstSlot := BitVec.ofNat 6 slot } else x
    { k with skeins := k.skeins.map fun e =>
        if e.2.bundle.toNat == b && e.1 != slot then
          (e.1, match e.2.st with
            | .running | .loading => { e.2 with abortPending := true }
            | .debugHalted => { e.2 with st := .abortHalted }
            | _ => e.2)
        else e }

/-- The message and counts of a skein that enters STATE 3 (R65, R386). -/
def State.countExc (s : State) (part cause : Nat) : State :=
  let f (x : FnSt) : FnSt := { x with exceptions := satAdd x.exceptions 1, lastCause := BitVec.ofNat 8 cause }
  if part < 16 then ((s.modFn (part + 1) f).modFn 0 f).partEvent part .exc
  else (s.modFn 0 f).fnEvent 0 .exc

/-- A precise exception of a skein: STATE 3 with what R76 and R77 record, its bundle aborted, one contained record
(R62 to R65). `extra` is a shuttle refusal's code, in byte 24 of DETAIL (R192; log entry 15). -/
def State.raiseExc (s : State) (c slot cause : Nat) (mask : Mask) (pc addr : Dword) (extra : Nat) : State :=
  let k := s.skein c slot
  if k.st != .running then s
  else
    let a := if causeHasAddr cause then addr else 0
    let s := s.modSkein c slot fun k => { k with
      st := .excHalted, cause := BitVec.ofNat 8 cause, excMask := mask, excPc := pc, excAddr := a
      abortPending := false }
    let s := s.abortBundle c k.bundle.toNat slot cause
    let part := s.partByte c
    let s := s.record .contained .module (unitId 1 c) 0x01 cause part
      (toBytes 1 slot ++ toBytes 1 k.bundle.toNat ++ toBytes 2 0 ++ toBytes 4 mask.toNat ++ toBytes 8 pc.toNat
        ++ toBytes 8 a.toNat ++ toBytes 1 extra)
    s.countExc part cause

end Sys2Proof.Machine
end

