-- ==== Sys2Proof/Machine/Float.lean ====
section
/-! DEFINITION. IEEE 754-2019 arithmetic of the module (R99): exact values, one rounding to nearest even, canonical quiet NaNs;
and the special functions, free within the bound the manual states. -/

namespace Sys2Proof.Machine

/-! ## Formats and exact values -/

/-- A binary format: exponent bits and fraction bits (R122). -/
structure FFmt where
  eb : Nat
  fb : Nat
  deriving DecidableEq, Repr

/-- FP32, BF16, FP16 (R122). -/
def fp32 : FFmt := ⟨8, 23⟩
def bf16 : FFmt := ⟨8, 7⟩
def fp16 : FFmt := ⟨5, 10⟩

/-- A float's exact value: a NaN, an infinity with its sign, or ±m × 2^e. -/
inductive FV where
  | nan
  | inf (neg : Bool)
  | fin (neg : Bool) (m : Nat) (e : Int)
  deriving DecidableEq, Repr

/-- The bias of a format. -/
def FFmt.bias (f : FFmt) : Nat := 2 ^ (f.eb - 1) - 1

/-- The code of +infinity. -/
def FFmt.infCode (f : FFmt) : Nat := (2 ^ f.eb - 1) * 2 ^ f.fb

/-- The canonical quiet NaN, sign 0 (R99). -/
def FFmt.nanCode (f : FFmt) : Nat := f.infCode + 2 ^ (f.fb - 1)

/-- The sign bit of a format. -/
def FFmt.signBit (f : FFmt) : Nat := 2 ^ (f.eb + f.fb)

/-- The exact value of a code (R123). -/
def fdec (f : FFmt) (c : Nat) : FV :=
  let neg := c / f.signBit % 2 == 1
  let ex := c / 2 ^ f.fb % 2 ^ f.eb
  let fr := c % 2 ^ f.fb
  if ex == 2 ^ f.eb - 1 then (if fr == 0 then .inf neg else .nan)
  else if ex == 0 then .fin neg fr (1 - (f.bias : Int) - f.fb)
  else .fin neg (fr + 2 ^ f.fb) ((ex : Int) - f.bias - f.fb)

/-- m × 2^(-k) rounded to the nearest integer, ties to even. -/
def shiftRne (m k : Nat) : Nat :=
  let q := m / 2 ^ k
  let r := m % 2 ^ k
  if 2 ^ k < 2 * r || (2 * r == 2 ^ k && q % 2 == 1) then q + 1 else q

/-- m × 2^s for an integer s, rounded to nearest even when s is negative. -/
def scaleRne (m : Nat) (s : Int) : Nat := if 0 ≤ s then m * 2 ^ s.toNat else shiftRne m (-s).toNat

/-- The exponent of the last place of a non-zero m × 2^e in a format (subnormals kept). -/
def FFmt.lsb (f : FFmt) (m : Nat) (e : Int) : Int := max ((log2 m : Int) + e) (1 - (f.bias : Int)) - f.fb

/-- The magnitude code of m × 2^e, rounded to nearest even; beyond the range, infinity. -/
def fmag (f : FFmt) (m : Nat) (e : Int) : Nat :=
  if m == 0 then 0
  else
    let q := f.lsb m e
    let c := ((q + f.fb + f.bias - 1).toNat) * 2 ^ f.fb + scaleRne m (e - q)
    if f.infCode ≤ c then f.infCode else c

/-- The code of an exact value in a format, with one rounding to nearest even. -/
def fenc (f : FFmt) (v : FV) : Nat :=
  match v with
  | .nan => f.nanCode
  | .inf neg => (if neg then f.signBit else 0) + f.infCode
  | .fin neg m e => (if neg then f.signBit else 0) + fmag f m e

/-- The signed integer m × 2^(e - base) of a finite value over a base exponent at or below e. -/
def signedOver (neg : Bool) (m : Nat) (e base : Int) : Int :=
  let k : Int := m * 2 ^ (e - base).toNat
  if neg then -k else k

/-- Exact negation. -/
def FV.negate : FV → FV
  | .nan => .nan
  | .inf n => .inf (!n)
  | .fin n m e => .fin (!n) m e

/-- Exact sum; a zero sum is +0 unless both operands are negative (R99). -/
def FV.add : FV → FV → FV
  | .nan, _ => .nan
  | _, .nan => .nan
  | .inf a, .inf b => if a == b then .inf a else .nan
  | .inf a, _ => .inf a
  | _, .inf b => .inf b
  | .fin na ma ea, .fin nb mb eb =>
    let base := min ea eb
    let s := signedOver na ma ea base + signedOver nb mb eb base
    if s == 0 then .fin (na && nb) 0 base else .fin (decide (s < 0)) s.natAbs base

/-- Exact product. -/
def FV.mul : FV → FV → FV
  | .nan, _ => .nan
  | _, .nan => .nan
  | .inf a, .inf b => .inf (a != b)
  | .inf a, .fin b m _ => if m == 0 then .nan else .inf (a != b)
  | .fin a m _, .inf b => if m == 0 then .nan else .inf (a != b)
  | .fin na ma ea, .fin nb mb eb => .fin (na != nb) (ma * mb) (ea + eb)

/-- Whether a value is a NaN. -/
def FV.isNan : FV → Bool
  | .nan => true
  | _ => false

/-- Whether a value is finite. -/
def FV.isFin : FV → Bool
  | .fin _ _ _ => true
  | _ => false

/-- Rank of two numbers: negative, zero or positive as the first is below, equal to or above the second. -/
def FV.rank : FV → FV → Int
  | .inf a, .inf b => b2n b - b2n a
  | .inf a, _ => if a then -1 else 1
  | _, .inf b => if b then 1 else -1
  | .fin na ma ea, .fin nb mb eb =>
    let base := min ea eb
    signedOver na ma ea base - signedOver nb mb eb base
  | _, _ => 0

/-- Whether a value's sign is negative. -/
def FV.isNeg : FV → Bool
  | .nan => false
  | .inf n => n
  | .fin n _ _ => n

/-- minimumNumber (IEEE 754-2019): the number when one operand is NaN; −0 below +0. -/
def FV.minNum (a b : FV) : FV :=
  if a.isNan then b else if b.isNan then a
  else if a.rank b < 0 then a else if 0 < a.rank b then b else if a.isNeg then a else b

/-- maximumNumber (IEEE 754-2019). -/
def FV.maxNum (a b : FV) : FV :=
  if a.isNan then b else if b.isNan then a
  else if a.rank b < 0 then b else if 0 < a.rank b then a else if a.isNeg then b else a

/-! ## Operations on codes (R98, R99) -/

def fAdd (f : FFmt) (a b : Nat) : Nat := fenc f ((fdec f a).add (fdec f b))
def fSub (f : FFmt) (a b : Nat) : Nat := fenc f ((fdec f a).add (fdec f b).negate)
def fMul (f : FFmt) (a b : Nat) : Nat := fenc f ((fdec f a).mul (fdec f b))
/-- a × b + c with one rounding (R98 FFMA). -/
def fFma (f : FFmt) (a b c : Nat) : Nat := fenc f (((fdec f a).mul (fdec f b)).add (fdec f c))
def fMin (f : FFmt) (a b : Nat) : Nat := fenc f ((fdec f a).minNum (fdec f b))
def fMax (f : FFmt) (a b : Nat) : Nat := fenc f ((fdec f a).maxNum (fdec f b))
/-- FABS and FNEG change only the sign bit (R99). -/
def fAbs (f : FFmt) (a : Nat) : Nat := a % f.signBit
def fNeg (f : FFmt) (a : Nat) : Nat := if a / f.signBit % 2 == 1 then a % f.signBit else a % f.signBit + f.signBit

/-- A word rewritten so that a NaN is the canonical one (R99). -/
def fCanon (f : FFmt) (a : Nat) : Nat := if (fdec f a).isNan then f.nanCode else a

/-- The nearest integer of m × 2^e with its sign, ties to even. -/
def toIntRne (neg : Bool) (m : Nat) (e : Int) : Int :=
  let k : Int := scaleRne m e
  if neg then -k else k

/-- floor(±m × 2^e). -/
def toIntFloor (neg : Bool) (m : Nat) (e : Int) : Int :=
  if 0 ≤ e then signedOver neg m e 0
  else
    let k : Int := m
    (if neg then -k else k) / (2 ^ (-e).toNat : Int)

/-- The exact value of an integer. -/
def fvOfInt (i : Int) : FV := .fin (decide (i < 0)) i.natAbs 0

/-! ## Fixed point for the special functions: integers in units of 2^(-160) -/

/-- One in fixed point. -/
def fxOne : Int := 2 ^ 160

def fxMul (a b : Int) : Int := a * b / fxOne
def fxDiv (a b : Int) : Int := a * fxOne / b

/-- Sum of z^(2i+1) ÷ (2i+1) over i below n, alternating where `alt`; p is the present power. -/
def fxOddSeries (alt : Bool) (z2 : Int) : Nat → Nat → Int → Int
  | 0, _, _ => 0
  | n + 1, i, p =>
    let t := p / (2 * (i : Int) + 1)
    (if alt && i % 2 == 1 then -t else t) + fxOddSeries alt z2 n (i + 1) (fxMul p z2)

/-- 2 × atanh z for |z| at most 1/3. -/
def fxTwoAtanh (z : Int) : Int := 2 * fxOddSeries false (fxMul z z) 56 0 z

/-- ln 2 and π. -/
def fxLn2 : Int := fxTwoAtanh (fxDiv fxOne (3 * fxOne))
def fxAtanInv (k : Int) : Int := fxOddSeries true (fxOne / (k * k)) 40 0 (fxOne / k)
def fxPi : Int := 16 * fxAtanInv 5 - 4 * fxAtanInv 239

/-- ln(m × 2^e) for m above 0. -/
def fxLn (m : Nat) (e : Int) : Int :=
  let l := log2 m
  let y : Int := (m : Int) * fxOne / 2 ^ l
  fxTwoAtanh (fxDiv (y - fxOne) (y + fxOne)) + ((l : Int) + e) * fxLn2

/-- Σ x^i ÷ i!, terms from i on. -/
def fxExpSeries (x : Int) : Nat → Nat → Int → Int
  | 0, _, _ => 0
  | n + 1, i, t => t + fxExpSeries x n (i + 1) (fxMul t x / ((i : Int) + 1))

/-- e^x for |x| at most 1. -/
def fxExp (x : Int) : Int := fxExpSeries x 48 0 fxOne

/-- 2^x as (mantissa in units of 2^(-160), power of two). -/
def fxExp2 (x : Int) : Int × Int := (fxExp (fxMul (x % fxOne) fxLn2), x / fxOne)

/-- Σ of the sine or cosine series from term i with present term t. -/
def fxTrig (x2 : Int) : Nat → Nat → Int → Int
  | 0, _, _ => 0
  | n + 1, i, t => t + fxTrig x2 n (i + 2) (-(fxMul t x2) / (((i : Int) + 1) * ((i : Int) + 2)))

/-- A finite value in fixed point. -/
def fxOf (neg : Bool) (m : Nat) (e : Int) : Int := toIntFloor neg m (e + 160)

/-- x reduced to (-π, π]. -/
def fxReduce (x : Int) : Int :=
  let r := x % (2 * fxPi)
  if fxPi < r then r - 2 * fxPi else r

def fxSin (x : Int) : Int := let r := fxReduce x; fxTrig (fxMul r r) 40 1 r
def fxCos (x : Int) : Int := let r := fxReduce x; fxTrig (fxMul r r) 40 0 fxOne

/-- tanh x, through e^(2x). -/
def fxTanh (x : Int) : Int :=
  if 64 * fxOne < x then fxOne else if x < -(64 * fxOne) then -fxOne
  else
    let (m, k) := fxExp2 (fxDiv (2 * x) fxLn2)
    let t : Int := if 0 ≤ k then m * 2 ^ k.toNat else m / 2 ^ (-k).toNat
    fxDiv (t - fxOne) (t + fxOne)

/-! ## Special functions (R98, R99): free within their bound (log entry 5) -/

/-- An exact value ±m × 2^e of a fixed-point integer times 2^k. -/
def fvOfFx (x : Int) (k : Int) : FV := .fin (decide (x < 0)) x.natAbs (k - 160)

/-- Whether |v − x| ≤ bound, for exact finite values. -/
def within (v x bound : FV) : Bool :=
  match v.add x.negate with
  | .fin _ m e => decide (FV.rank (.fin false m e) bound ≤ 0)
  | _ => false

/-- The free value of an operation and operand where it lies within the bound of x, else x rounded. A hair of 2^(-120) of
the bound covers the fixed point. -/
def freeWithin (op : Nat) (a : Nat) (x bound : FV) : Nat :=
  let v := fCanon fp32 (Config.sfuChoice op (BitVec.ofNat 32 a)).toNat
  match x, bound with
  | .fin _ _ _, .fin _ bm be =>
    if within (fdec fp32 v) x (.fin false (bm * 2 ^ 120 + bm) (be - 120)) then v else fenc fp32 x
  | _, _ => fenc fp32 x

/-- n units in the last place of x in FP32. -/
def ulps (n : Nat) (x : FV) : FV :=
  match x with
  | .fin _ m e => if m == 0 then .fin false n (-149) else .fin false n (fp32.lsb m e)
  | _ => .fin false n (-149)

/-- A result within n units in the last place; beyond the FP32 range, the rounded one. -/
def freeUlps (op a n : Nat) (x : FV) : Nat :=
  if fenc fp32 x % fp32.signBit == fp32.infCode then fenc fp32 x else freeWithin op a x (ulps n x)

/-- 1 ÷ a (R98 FRCP), within 1 unit in the last place. -/
def sfRcp (a : Nat) : Nat :=
  match fdec fp32 a with
  | .nan => fp32.nanCode
  | .inf n => fenc fp32 (.fin n 0 0)
  | .fin n m e => if m == 0 then fenc fp32 (.inf n) else freeUlps 0 a 1 (.fin n (2 ^ 200 / m) (-e - 200))

/-- floor(√n) by n-independent halving: digit by digit from bit k down. -/
def isqrtFrom (n : Nat) : Nat → Nat → Nat
  | 0, r => if (r + 1) * (r + 1) ≤ n then r + 1 else r
  | k + 1, r => isqrtFrom n k (if (r + 2 ^ (k + 1)) * (r + 2 ^ (k + 1)) ≤ n then r + 2 ^ (k + 1) else r)

/-- floor(√n) for n below 2^(2 × 160). -/
def isqrt (n : Nat) : Nat := isqrtFrom n 159 0

/-- √(m × 2^e) to about 120 bits. -/
def fvSqrt (m : Nat) (e : Int) : FV :=
  if e % 2 == 0 then .fin false (isqrt (m * 2 ^ 240)) (e / 2 - 120) else .fin false (isqrt (2 * m * 2 ^ 240)) ((e - 1) / 2 - 120)

/-- √a (R98 FSQRT). -/
def sfSqrt (a : Nat) : Nat :=
  match fdec fp32 a with
  | .nan => fp32.nanCode
  | .inf n => if n then fp32.nanCode else fenc fp32 (.inf false)
  | .fin n m e => if m == 0 then a else if n then fp32.nanCode else freeUlps 2 a 1 (fvSqrt m e)

/-- 1 ÷ √a (R98 FRSQ). -/
def sfRsq (a : Nat) : Nat :=
  match fdec fp32 a with
  | .nan => fp32.nanCode
  | .inf n => if n then fp32.nanCode else 0
  | .fin n m e =>
    if m == 0 then fenc fp32 (.inf n) else if n then fp32.nanCode
    else
      match fvSqrt m e with
      | .fin _ q k => freeUlps 1 a 1 (.fin false (2 ^ 320 / q) (-k - 320))
      | _ => fp32.nanCode

/-- 2^a (R98 FEXP2), within 2 units in the last place. -/
def sfExp2 (a : Nat) : Nat :=
  match fdec fp32 a with
  | .nan => fp32.nanCode
  | .inf n => if n then 0 else fenc fp32 (.inf false)
  | .fin n m e =>
    let x : Int := max (min (fxOf n m e) (200 * fxOne)) (-(200 * fxOne))
    let (y, k) := fxExp2 x
    freeUlps 3 a 2 (fvOfFx y k)

/-- log2 a (R98 FLOG2), within 2 units in the last place. -/
def sfLog2 (a : Nat) : Nat :=
  match fdec fp32 a with
  | .nan => fp32.nanCode
  | .inf n => if n then fp32.nanCode else fenc fp32 (.inf false)
  | .fin n m e =>
    if m == 0 then fenc fp32 (.inf true) else if n then fp32.nanCode
    else freeUlps 4 a 2 (fvOfFx (fxDiv (fxLn m e) fxLn2) 0)

/-- sin a and cos a (R98, R99): bound 2^(-21) for |a| up to 256π; beyond it the manual states no result. -/
def sfTrig (op : Nat) (f : Int → Int) (a : Nat) : Nat :=
  match fdec fp32 a with
  | .fin n m e =>
    if decide (FV.rank (.fin false m e) (fvOfFx (256 * fxPi) 0) ≤ 0) then
      freeWithin op a (fvOfFx (f (fxOf n m e)) 0) (.fin false 1 (-21))
    else fCanon fp32 (Config.sfuChoice op (BitVec.ofNat 32 a)).toNat
  | _ => fp32.nanCode

def sfSin (a : Nat) : Nat := sfTrig 5 fxSin a
def sfCos (a : Nat) : Nat := sfTrig 6 fxCos a

/-- tanh a (R98 FTANH), within 2^(-20). -/
def sfTanh (a : Nat) : Nat :=
  match fdec fp32 a with
  | .nan => fp32.nanCode
  | .inf n => fenc fp32 (.fin n 1 0)
  | .fin n m e =>
    let x := max (min (fxOf n m e) (100 * fxOne)) (-(100 * fxOne))
    freeWithin 7 a (fvOfFx (fxTanh x) 0) (.fin false 1 (-20))

/-- −ln(−ln u) with u = (k + 0.5) × 2^(-24) (R138), within 2^(-18). -/
def sfGumbel (out : Word) : Nat :=
  let k := out.toNat / 256
  let y := -(fxLn (2 * k + 1) (-25))
  freeWithin 8 out.toNat (fvOfFx (-(fxLn y.natAbs (-160))) 0) (.fin false 1 (-18))

end Sys2Proof.Machine
end

