-- ==== Sys2Proof/Machine/Formats.lean ====
section
/-! DEFINITION. Element formats, block exponents, QMAX, QCVT, QDEC and CVT, codebooks, and the thread generator (chapter 4). -/

namespace Sys2Proof.Machine

/-! ## Elements (R122, R123) -/

/-- E4M3 and E5M2 as exponent and fraction bits. -/
def e4m3 : FFmt := ⟨4, 3⟩
def e5m2 : FFmt := ⟨5, 2⟩

/-- The value of an E4M3 code: no infinities, 0x7F and 0xFF are NaN (R123). -/
def decE4m3 (c : Nat) : FV :=
  let c := c % 256
  if c % 128 == 127 then .nan
  else if 120 ≤ c % 128 then .fin (decide (128 ≤ c)) (8 + c % 8) 5
  else fdec e4m3 c

/-- The value of an 8-bit element under its conversion code 3, 4, 5, 7, 8 or 9 (R100, R122). -/
def decElem (code c : Nat) : FV :=
  if code == 3 then decE4m3 c
  else if code == 4 then fdec e5m2 (c % 256)
  else if code == 9 then .fin false (c % 256) (-7)
  else
    let q := signed 8 c
    .fin (decide (q < 0)) q.natAbs (-6)

/-- A magnitude code without an infinity: RNE, then held at the largest finite code. -/
def satMag (f : FFmt) (top m : Nat) (e : Int) : Nat :=
  if m == 0 then 0
  else
    let q := f.lsb m e
    min top (((q + f.fb + f.bias - 1).toNat) * 2 ^ f.fb + scaleRne m (e - q))

/-- An integer clamped and written in 8 bits. -/
def clampByte (lo hi q : Int) : Nat := ((max lo (min hi q)) % 256).toNat

/-- The value of a source of code 0, 1 or 2 in a register: FP32, BF16 or FP16 (R127). -/
def srcVal (code : Nat) (a : Word) : FV :=
  if code == 0 then fdec fp32 a.toNat
  else if code == 1 then fdec bf16 (a.toNat % 65536)
  else fdec fp16 (a.toNat % 65536)

/-- A value times 2^k. -/
def FV.scale (v : FV) (k : Int) : FV :=
  match v with
  | .fin n m e => .fin n m (e + k)
  | w => w

/-! ## Codebooks (R141, R142) -/

/-- kmax of a slot: floor(log2) of the largest finite magnitude of entries 0 to 14, 0 where there is none. -/
def kmax (cb : List (BitVec 16)) : Int :=
  let best := (cb.take 15).foldl (fun (acc : FV) c =>
    match fdec fp16 c.toNat with
    | .fin _ m e => FV.maxNum acc (.fin false m e)
    | _ => acc) (FV.fin false 0 0)
  match best with
  | .fin _ m e => if m == 0 then 0 else (log2 m : Int) + e
  | _ => 0

/-- |a − b| of two exact values. -/
def fvDist (a b : FV) : FV :=
  match a.add b.negate with
  | .fin _ m e => .fin false m e
  | w => w

/-- K4 encode: the lowest k of 0 to 14 whose finite entry is nearest to v; 0 where none is finite (R142). -/
def k4Encode (cb : List (BitVec 16)) (v : FV) : Nat :=
  let pick := (List.range 15).foldl (fun (acc : Option (Nat × FV)) k =>
    let c := fdec fp16 (nth 0 cb k).toNat
    if c.isFin then
      let d := fvDist v c
      match acc with
      | none => some (k, d)
      | some (j, b) => if d.rank b < 0 then some (k, d) else some (j, b)
    else acc) none
  match pick with
  | some (k, _) => k
  | none => 0

/-! ## QMAX (R127) -/

/-- The packed QMAX word of the values of the active lanes. -/
def qmaxWord (vals : List FV) : Word :=
  if vals.any (fun v => !v.isFin) then 0x2FF#32
  else
    let amax := vals.foldl (fun acc v => match v with
      | .fin _ m e => FV.maxNum acc (.fin false m e)
      | _ => acc) (FV.fin false 0 0)
    match amax with
    | .fin _ m e =>
      if m == 0 then 0x100#32
      else BitVec.ofInt 32 (max 0 (min 254 ((log2 m : Int) + e + 127)))
    | _ => 0x100#32

/-! ## QCVT (R130 to R132, R137) -/

/-- emax of a destination (R131). -/
def emaxOf (dest : Nat) (cb : List (BitVec 16)) : Int :=
  if dest == 3 then 8 else if dest == 4 then 15 else if dest == 6 then kmax cb else 0

/-- encode(dest, v) of a finite v (R131, R137, R142); `draw` is the G8 draw. -/
def qEncode (dest : Nat) (cb : List (BitVec 16)) (draw : Word) (v : FV) : Nat :=
  match v with
  | .fin n m e =>
    if dest == 3 then (if n then 128 else 0) + satMag e4m3 0x7E m e
    else if dest == 4 then (if n then 128 else 0) + satMag e5m2 0x7B m e
    else if dest == 6 then k4Encode cb v
    else if dest == 7 then
      match (FV.fin n m (e + 6)).add (.fin false (draw.toNat / 256) (-24)) with
      | .fin n' m' e' => clampByte (-127) 127 (toIntFloor n' m' e')
      | _ => 0
    else if dest == 9 then clampByte 0 255 (toIntRne n m (e + 7))
    else clampByte (-127) 127 (toIntRne n m (e + 6))
  | _ => if dest == 3 then 0x7F else if dest == 4 then 0x7E else 0

/-- The QCVT result word (R130, R132). -/
def qcvtWord (src dest : Nat) (cb : List (BitVec 16)) (draw a b : Word) : Word :=
  let nf := bit b 9
  let z := bit b 8
  let v := srcVal src a
  if nf then 0xFF00#32
  else if z then BitVec.ofNat 32 (if v.isFin then 0 else qEncode dest cb draw v)
  else
    let low : Int := if dest == 6 then 1 else 0
    let x := max low (min 254 ((b.toNat % 256 : Nat) - emaxOf dest cb))
    BitVec.ofNat 32 (x.toNat * 256 + qEncode dest cb draw (v.scale (127 - x)))

/-- Whether a lane's QCVT meets a value that R132 counts: not finite, under a word with NF = 0. -/
def qcvtBad (src : Nat) (a b : Word) : Bool := !(srcVal src a).isFin && !bit b 9

/-! ## QDEC and CVT (R139, R140) -/

/-- The QDEC result. -/
def qdecWord (src : Nat) (a b : Word) : Word :=
  let x := b.toNat % 256
  if x == 255 then BitVec.ofNat 32 fp32.nanCode
  else BitVec.ofNat 32 (fenc fp32 ((decElem src (a.toNat % 256)).scale ((x : Int) - 127)))

/-- A value as S32 or U32: rounded to nearest even and saturated; NaN gives 0. -/
def toIntSat (lo hi : Int) (v : FV) : Int :=
  match v with
  | .nan => 0
  | .inf n => if n then lo else hi
  | .fin n m e => if (64 : Int) < (log2 m : Int) + e then (if n then lo else hi) else max lo (min hi (toIntRne n m e))

/-- The value that CVT reads (R140), by format code. -/
def cvtVal (code : Nat) (a : Word) : FV :=
  if code == 10 then fvOfInt a.toInt else if code == 11 then fvOfInt a.toNat else srcVal code a

/-- The CVT result (R140). -/
def cvtWord (src dest : Nat) (a : Word) : Word :=
  let v := cvtVal src a
  if dest == 0 then BitVec.ofNat 32 (fenc fp32 v)
  else if dest == 1 then BitVec.ofNat 32 (fenc bf16 v)
  else if dest == 2 then BitVec.ofNat 32 (fenc fp16 v)
  else if dest == 10 then BitVec.ofInt 32 (toIntSat (-(2 ^ 31)) (2 ^ 31 - 1) v)
  else BitVec.ofInt 32 (toIntSat 0 (2 ^ 32 - 1) v)

/-! ## The thread generator (R134, R135) -/

/-- One draw of xoshiro128** (R134). -/
def Gen.draw (g : Gen) : Word × Gen :=
  let out := (g.s1 * 5).rotateLeft 7 * 9
  let t := g.s1 <<< 9
  let s2 := g.s2 ^^^ g.s0
  let s3 := g.s3 ^^^ g.s1
  let s1 := g.s1 ^^^ s2
  let s0 := g.s0 ^^^ s3
  (out, ⟨s0, s1, s2 ^^^ t, s3.rotateLeft 11⟩)

/-- RNGSEED: the four words, then 8 draws discarded (R135). -/
def Gen.seed (a b : Word) : Gen := iter 8 (fun g => g.draw.2) ⟨a, b, a ^^^ 0x9E3779B9, b ^^^ 0x7F4A7C15⟩

/-- The seed of a thread at admission (R135). -/
def Gen.admission (core slot lane : Nat) : Gen := Gen.seed (BitVec.ofNat 32 (core * 2048 + slot * 32 + lane)) 0

end Sys2Proof.Machine
end

