-- ==== Sys2Proof/Machine/Bundles.lean ====
section
/-! DEFINITION. Bundles and knots: allocation, arrivals, phases, exits, what a skein and a bundle wait for before they end
(chapter 2). -/

namespace Sys2Proof.Machine

/-- Slots in use. -/
def Core.used (k : Core) : List (Nat × Skein) := k.skeins.filter fun e => e.2.st != .free

/-- FREE_SLOTS, FREE_UNITS, FREE_KNOTS (R71). -/
def Core.freeSlots (k : Core) : Nat := 64 - k.used.length
def Core.freeUnits (k : Core) : Nat := 256 - (k.used.map fun e => e.2.units).sum
def Core.freeKnots (k : Core) : Nat := (k.knots.filter fun n => n.owner.isNone).length

/-- The slots of a bundle. -/
def Core.slotsOf (k : Core) (b : Nat) : List Nat := (k.used.filter fun e => e.2.bundle.toNat == b).map (·.1)

/-- The knots of a bundle, by the core's numbers. -/
def Core.knotsOf (k : Core) (b : Nat) : List Nat :=
  (List.range 16).filter fun n => (nth {} k.knots n).owner == some (BitVec.ofNat 6 b)

/-- The core's knot that a bundle calls n (R56). -/
def Core.knotNamed (k : Core) (b n : Nat) : Option Nat := (k.knotsOf b).find? fun i => (nth {} k.knots i).local_ == n

/-- Threads of a bundle: (SKEINS − 1) × 32 + LAST_THREADS (R56). -/
def LaunchDesc.threads (d : LaunchDesc) : Nat := (d.skeins - 1) * 32 + d.lastThreads

/-- A thread's key in the arrivals of a knot. -/
def threadKey (slot lane : Nat) : Nat := slot * 32 + lane

/-- Whether any skein of a bundle is in STATE 5, so that its watchdogs pause (R61). -/
def Core.bundlePaused (k : Core) (b : Nat) : Bool := k.used.any fun e => e.2.bundle.toNat == b && e.2.st == .debugHalted

/-- One thread counted as arrived in the present phase (R57, R61). -/
def Knot.arrive (n : Knot) (key : Nat) (now : Dword) (paused : Bool) : Knot :=
  { n with
    arrived := if n.arrived.contains key then n.arrived else key :: n.arrived
    firstAt := if n.firstAt.isSome then n.firstAt else some now
    pausedAt := if n.firstAt.isSome then n.pausedAt else if paused then some now else none }

/-- Whether a phase is complete: arrived plus exited equals the participants (R59). -/
def Knot.complete (n : Knot) : Bool := n.owner.isSome && n.arrived.length + n.exited == n.participants && n.participants != 0

/-- The threads of a bundle held by a second arrival at a knot: slot, lane, whether a WAIT, its program counter (R58). -/
def Core.heldAt (k : Core) (b n : Nat) : List (Nat × Nat × Bool × Dword) :=
  (k.used.filter fun e => e.2.bundle.toNat == b).flatMap fun e =>
    (e.2.knotHeld.filter fun h => h.2.1 == n).map fun h => (e.1, h.1, h.2.2.1, h.2.2.2)

/-- A completed phase: PHASE toggles, the arrivals clear, the waiting threads go on, and held arrivals count in the next
phase (R58, R59). -/
def Core.endPhase (k : Core) (b n : Nat) (now : Dword) : Core :=
  let held := k.heldAt b n
  let k := k.modKnot n fun x => { x with phase := !x.phase, arrived := [], firstAt := none, pausedAt := none }
  let k := { k with skeins := k.skeins.map fun e =>
    if e.2.bundle.toNat == b then
      (e.1, { e.2 with
        knotWait := (e.2.knotWait.filter fun w => w.2.1 != n) ++ ((e.2.knotHeld.filter fun h => h.2.1 == n && h.2.2.1).map fun h => (h.1, (n, h.2.2.2)))
        knotHeld := e.2.knotHeld.filter fun h => h.2.1 != n })
    else e }
  held.foldl (fun k h => k.modKnot n fun x => x.arrive (threadKey h.1 h.2.1) now (k.bundlePaused b)) k

/-- A phase completed where the counts meet; held arrivals that then count can complete the next. DESIGN CHOICE: once every
thread has exited, the counts meet for ever; the phase in progress completes once, and a phase without an arrival completes no
more (R59; log entry 87). -/
def Core.settleKnot (k : Core) (b n : Nat) (now : Dword) : Core :=
  if (nth {} k.knots n).complete then
    let k := k.endPhase b n now
    if (nth {} k.knots n).complete && !(nth {} k.knots n).arrived.isEmpty then k.endPhase b n now else k
  else k

/-- One thread arrives at a knot with KNOT.WAIT or KNOT.ARRIVE (R57, R58). The program counter is the instruction's. -/
def Core.knotArrive (k : Core) (slot lane n : Nat) (wait : Bool) (pc : Dword) (now : Dword) : Core :=
  let b := (k.skein slot).bundle.toNat
  if (nth {} k.knots n).arrived.contains (threadKey slot lane) then
    k.modSkein slot fun x => { x with knotHeld := tinsert (terase x.knotHeld lane) lane (n, wait, pc) }
  else
    let k := k.modKnot n fun x => x.arrive (threadKey slot lane) now (k.bundlePaused b)
    let k := if wait then k.modSkein slot fun x => { x with knotWait := tinsert (terase x.knotWait lane) lane (n, pc) } else k
    k.settleKnot b n now

/-- One thread exits: it counts as arrived at every knot of its bundle, now and later (R59). -/
def Core.threadExit (k : Core) (slot lane : Nat) (now : Dword) : Core :=
  let b := (k.skein slot).bundle.toNat
  let k := k.modSkein slot fun x => { x with exited := x.exited ||| laneBit lane }
  let k := (k.knotsOf b).foldl (fun k n =>
    (k.modKnot n fun x => { x with exited := x.exited + 1, arrived := x.arrived.filter fun t => t != threadKey slot lane }).settleKnot b n now) k
  k.modSkein slot fun x => if x.lanes &&& ~~~x.exited == 0 && x.st == .running then { x with st := .ending } else x

/-- The watchdogs of a bundle pause, or resume with the time already elapsed (R61). -/
def Core.pauseKnots (k : Core) (b : Nat) (now : Dword) : Core :=
  (k.knotsOf b).foldl (fun k n => k.modKnot n fun x =>
    if x.firstAt.isSome && x.pausedAt.isNone then { x with pausedAt := some now } else x) k

def Core.resumeKnots (k : Core) (b : Nat) (now : Dword) : Core :=
  if k.bundlePaused b then k
  else (k.knotsOf b).foldl (fun k n => k.modKnot n fun x =>
    match x.firstAt, x.pausedAt with
    | some f, some p => { x with firstAt := some (f + (now - p)), pausedAt := none }
    | _, _ => x) k

/-- Whether a skein's stores have drained: none queued, buffered or unacknowledged (R42, R271). -/
def Core.drained (k : Core) (slot : Nat) : Bool :=
  !(k.mq.any fun e => e.slot.toNat == slot) && !(k.sb.any fun e => e.slots.contains slot)
    && !(k.unacked.any fun e => e.slots.contains slot)

/-- Whether a hoop operation of a bundle is queued or running (R184). -/
def Core.hoopBusy (k : Core) (b : Nat) : Bool :=
  k.hoops.any fun h => h.subs.any fun x => (x.queue ++ x.running).any fun o => o.bundle.toNat == b

/-- The low part of a bundle's identity that u62 holds (R41). -/
def identity (core bundle index skeins part : Nat) : Dword :=
  fld core 0 ||| fld bundle 10 ||| fld index 16 ||| fld (skeins - 1) 21 ||| fld part 26

end Sys2Proof.Machine
end

