-- ==== Sys2Proof/Machine/Operands.lean ====
section
/-! DEFINITION. Registers of a skein and the operand forms of every slot (R33, R34, R53, R54, R85, R94, R107, R118). -/

namespace Sys2Proof.Machine

/-- The group that issues: where, its lanes, and the lanes with a true guard (R47, R103). -/
structure Grp where
  core : Nat
  slot : Nat
  part : Nat
  pc : Dword
  lanes : List Nat
  act : List Nat
  deriving DecidableEq, Repr

/-- Thread register n of a lane; x255 reads 0 (R34). -/
def Skein.xr (k : Skein) (lane : Nat) (n : BitVec 8) : Word := if n == 255 then 0 else tget 0 k.x (lane * 256 + n.toNat)
/-- Uniform register (R53). -/
def Skein.ur (k : Skein) (n : Nat) : Dword := tget 0 k.u n
/-- Predicate of a lane; p7 reads 1 (R54). -/
def Skein.pr (k : Skein) (lane n : Nat) : Bool := n == 7 || bit (tget 0 k.p lane) n

/-- One value written to a register of a lane (of the skein for u); x255 and p7 discard it (R34, R54). -/
def Skein.put (k : Skein) (r : RegName) (lane : Nat) (v : Dword) : Skein :=
  match r with
  | .x n => if n == 255 then k else { k with x := tset 0 k.x (lane * 256 + n.toNat) (BitVec.ofNat 32 v.toNat) }
  | .u n => { k with u := tset 0 k.u n.toNat v }
  | .p n => if n == 7 then k else { k with p := tmod 0 k.p lane fun b => setBits b n.toNat n.toNat (v.toNat % 2) }

/-- A result's values written to its register (R120). -/
def Skein.putAll (k : Skein) (p : Pending) : Skein := p.vals.foldl (fun k e => k.put p.dest e.1 e.2) k

/-- Whether a write to the register is discarded (R34, R54, R86). -/
def discards : RegName → Bool
  | .x n => n == 255
  | .u _ => false
  | .p n => n == 7

/-- Source b of a T-slot operation as 32 bits, for one lane (R94). -/
def srcB (k : Skein) (t : TSlot) (lane : Nat) : Word :=
  if t.tsrc == 0 then k.xr lane t.tb
  else if t.tsrc == 1 then BitVec.ofNat 32 (k.ur (t.tb.toNat % 64)).toNat
  else t.timm

/-- Source b of a uniform operation, 64 bits (R94, R104). -/
def srcU (k : Skein) (t : TSlot) : Dword := if t.tsrc == 0 then k.ur (t.tb.toNat % 64) else t.timm.signExtend 64

/-- EA of a lane in the M-slot, modulo 2^64 (R107). -/
def effAddr (k : Skein) (m : MSlot) (lane : Nat) : Dword :=
  (if m.mnob == 1 then 0 else k.ur m.mu.toNat) + (k.xr lane m.ma).signExtend 64 + m.moff.signExtend 64

/-- Address of a hoop operation in the core's scratch (R118). -/
def hoopAddr (k : Skein) (h : HSlot) : Dword := (if h.hnou == 1 then 0 else k.ur h.hu.toNat) + BitVec.ofNat 64 (h.hoff.toNat * 8)

/-- Bytes of an M-slot access (R106). -/
def accSize (m : MSlot) : Nat := 2 ^ m.msz.toNat

/-- The n-th register after MD. -/
def regAfter (d : BitVec 8) (n : Nat) : BitVec 8 := d + BitVec.ofNat 8 n

/-- Data of an access of `size` bytes from x[MD] on, as bytes (R108). -/
def dataBytes (k : Skein) (d : BitVec 8) (lane size : Nat) : List Byte :=
  if size ≤ 4 then toBytes size (k.xr lane d).toNat
  else (List.range (size / 4)).flatMap fun i => toBytes 4 (k.xr lane (regAfter d i)).toNat

/-- 32 or 64 bits from x[d] on. -/
def pairAt (k : Skein) (wide : Bool) (d : BitVec 8) (lane : Nat) : Dword :=
  if wide then (k.xr lane (d + 1)) ++ (k.xr lane d) else (k.xr lane d).zeroExtend 64

end Sys2Proof.Machine
end

