-- ==== Sys2Proof/Machine/Flags.lean ====
section
/-! DEFINITION. Guards, comparison conditions and predicate results (R54, R89, R102, R103). -/

namespace Sys2Proof.Machine

/-- A thread's guard: p[GPRED] XOR GNEG (R89). -/
def guard (k : Skein) (c : CSlot) (lane : Nat) : Bool := k.pr lane c.gpred.toNat != (c.gneg == 1)

/-- The integer comparison of CMPI (R102). -/
def cmpInt (cond : Nat) (signed_ : Bool) (a b : Word) : Bool :=
  let lt := if signed_ then a.slt b else a.ult b
  let eq := a == b
  if cond == 0 then eq else if cond == 1 then !eq else if cond == 2 then lt else if cond == 3 then lt || eq
  else if cond == 4 then !lt && !eq else !lt

/-- The quiet float comparison of CMPF: every condition but NE and UNO is false with a NaN (R102). -/
def cmpFloat (cond : Nat) (a b : Word) : Bool :=
  let x := fdec fp32 a.toNat
  let y := fdec fp32 b.toNat
  let uno := x.isNan || y.isNan
  let r := x.rank y
  if cond == 0 then !uno && r == 0 else if cond == 1 then uno || r != 0
  else if cond == 2 then !uno && decide (r < 0) else if cond == 3 then !uno && decide (r ≤ 0)
  else if cond == 4 then !uno && decide (0 < r) else if cond == 5 then !uno && decide (0 ≤ r)
  else if cond == 6 then !uno else uno

/-- Merging a comparison with a predicate: 0 none, 1 AND, 2 OR, 3 XOR (R102). -/
def mergePred (how : Nat) (c p : Bool) : Bool :=
  if how == 0 then c else if how == 1 then c && p else if how == 2 then c || p else c != p

/-- PMIX: 0 AND, 1 OR, 2 XOR, 3 AND with the second operand inverted; TMOD[6] inverts the result (R102). -/
def pmix (how : Nat) (inv a b : Bool) : Bool :=
  (if how == 0 then a && b else if how == 1 then a || b else if how == 2 then a != b else a && !b) != inv

/-- The predicates of a lane as PPACK gives them, p7 as 1 (R54, R102). -/
def predByte (k : Skein) (lane : Nat) : Byte := tget 0 k.p lane ||| 0x80#8

end Sys2Proof.Machine
end

