-- ==== Sys2Proof/Machine/Alu.lean ====
section
/-! DEFINITION. What each T-slot operation computes (R96 to R105, R127 to R140): pure functions of the values read at issue. -/

namespace Sys2Proof.Machine

/-! ## Integer operations (R97) -/

/-- The 32-bit value of an exact integer: clamped to the type's range with SAT, else its low 32 bits (R96). -/
def intResult (signed_ sat : Bool) (v : Int) : Word :=
  let lo : Int := if signed_ then -(2 ^ 31) else 0
  let hi : Int := if signed_ then 2 ^ 31 - 1 else 2 ^ 32 - 1
  BitVec.ofInt 32 (if sat then max lo (min hi v) else v)

/-- A register as an integer of its type. -/
def asInt (signed_ : Bool) (a : Word) : Int := if signed_ then a.toInt else a.toNat

def aluAdd (sg sat : Bool) (a b : Word) : Word := intResult sg sat (asInt sg a + asInt sg b)
def aluSub (sg sat : Bool) (a b : Word) : Word := intResult sg sat (asInt sg a - asInt sg b)
def aluMul (sg sat : Bool) (a b : Word) : Word := intResult sg sat (asInt sg a * asInt sg b)
def aluMulhi (sg : Bool) (a b : Word) : Word := BitVec.ofInt 32 (asInt sg a * asInt sg b / 2 ^ 32)
def aluMad (sg sat : Bool) (a b c : Word) : Word := intResult sg sat (asInt sg a * asInt sg b + asInt sg c)
def aluMin (sg : Bool) (a b : Word) : Word := if asInt sg b < asInt sg a then b else a
def aluMax (sg : Bool) (a b : Word) : Word := if asInt sg a < asInt sg b then b else a
def aluAbs (sat : Bool) (a : Word) : Word := intResult true sat a.toInt.natAbs
def aluShl (a b : Word) : Word := if 32 ≤ b.toNat then 0 else a <<< b.toNat
def aluShr (sg : Bool) (a b : Word) : Word := let n := min b.toNat 32; if sg then a.sshiftRight n else a >>> n
def aluPopc (a : Word) : Word := BitVec.ofNat 32 (popc a)
def aluClz (a : Word) : Word := BitVec.ofNat 32 (if a == 0 then 32 else 31 - log2 a.toNat)
def aluBrev (a : Word) : Word := a.reverse

/-- BFE: L bits of a from position b[4:0], L = b[13:8] at most 32 (R97). -/
def aluBfe (sg : Bool) (a b : Word) : Word :=
  let pos := nbits b.toNat 4 0
  let len := min (nbits b.toNat 13 8) 32
  let v : Int := asInt sg a / 2 ^ pos % 2 ^ len
  BitVec.ofInt 32 (if sg && len != 0 && decide (2 ^ (len - 1) ≤ v) then v - 2 ^ len else v)

/-! ## Float operations, packed types lane by lane (R95, R99) -/

/-- A two-operand or three-operand float operation over TFMT 2, 3 or 4. -/
def fLanes (tfmt : Nat) (f : FFmt → Nat → Nat → Nat → Nat) (a b c : Word) : Word :=
  if tfmt == 2 then BitVec.ofNat 32 (f fp32 a.toNat b.toNat c.toNat)
  else
    let fm := if tfmt == 3 then fp16 else bf16
    let lo := f fm (a.toNat % 65536) (b.toNat % 65536) (c.toNat % 65536)
    let hi := f fm (a.toNat / 65536) (b.toNat / 65536) (c.toNat / 65536)
    BitVec.ofNat 32 (hi * 65536 + lo)

/-- A special function of FP32 (R98). -/
def sfWord (f : Nat → Nat) (a : Word) : Word := BitVec.ofNat 32 (f a.toNat)

/-! ## The result of a lane by opcode -/

/-- Whether TFMT is signed. -/
def tSg (t : TSlot) : Bool := t.tfmt == 1
/-- SAT, and UDST (R96). -/
def tSat (t : TSlot) : Bool := bit t.tmod 6
def tUdst (t : TSlot) : Bool := bit t.tmod 7

/-- Integer operations 0x01 to 0x14 (R97). -/
def intLane (k : Skein) (t : TSlot) (lane : Nat) : Word :=
  let a := k.xr lane t.ta
  let b := srcB k t lane
  let c := k.xr lane t.tc
  match t.top.toNat with
  | 0x01 => aluAdd (tSg t) (tSat t) a b
  | 0x02 => aluSub (tSg t) (tSat t) a b
  | 0x03 => aluMul (tSg t) (tSat t) a b
  | 0x04 => aluMulhi (tSg t) a b
  | 0x05 => aluMad (tSg t) (tSat t) a b c
  | 0x06 => aluMin (tSg t) a b
  | 0x07 => aluMax (tSg t) a b
  | 0x08 => aluAbs (tSat t) a
  | 0x09 => a &&& b
  | 0x0A => a ||| b
  | 0x0B => a ^^^ b
  | 0x0C => ~~~a
  | 0x0D => aluShl a b
  | 0x0E => aluShr (tSg t) a b
  | 0x0F => aluPopc a
  | 0x10 => aluClz a
  | 0x11 => aluBrev a
  | 0x12 => if k.pr lane (t.tc.toNat % 8) then a else b
  | 0x13 => b
  | _ => aluBfe (tSg t) a b

/-- Float operations 0x20 to 0x2F (R98). -/
def floatLane (k : Skein) (t : TSlot) (lane : Nat) : Word :=
  let a := k.xr lane t.ta
  let b := srcB k t lane
  let c := k.xr lane t.tc
  let two (f : FFmt → Nat → Nat → Nat) : Word := fLanes t.tfmt.toNat (fun fm x y _ => f fm x y) a b c
  let one (f : FFmt → Nat → Nat) : Word := fLanes t.tfmt.toNat (fun fm x _ _ => f fm x) a b c
  match t.top.toNat with
  | 0x20 => two fAdd
  | 0x21 => two fSub
  | 0x22 => two fMul
  | 0x23 => fLanes t.tfmt.toNat fFma a b c
  | 0x24 => two fMin
  | 0x25 => two fMax
  | 0x26 => one fAbs
  | 0x27 => one fNeg
  | 0x28 => sfWord sfRcp a
  | 0x29 => sfWord sfRsq a
  | 0x2A => sfWord sfSqrt a
  | 0x2B => sfWord sfExp2 a
  | 0x2C => sfWord sfLog2 a
  | 0x2D => sfWord sfSin a
  | 0x2E => sfWord sfCos a
  | _ => sfWord sfTanh a

/-- Destination format of CVT: TC[0] with TMOD[6:4] (R101). -/
def cvtDest (t : TSlot) : Nat :=
  let d := nbits t.tmod.toNat 6 4
  if bit t.tc 0 then 8 + d else d

/-- The codebook slot's 16 entries (R141, R182). -/
def Core.codebook (c : Core) (slot : Nat) : List (BitVec 16) := (List.range 16).map fun i => tget 0 c.cb (slot * 16 + i)

/-- Whether QCVT draws: destination G8 (R136). -/
def tDraws (t : TSlot) : Bool := t.top == 0x42 && t.tc.toNat % 16 == 7

/-- CVT, QCVT and QDEC of a lane (R101). -/
def convLane (c : Core) (k : Skein) (t : TSlot) (lane : Nat) : Word :=
  let a := k.xr lane t.ta
  let b := srcB k t lane
  match t.top.toNat with
  | 0x40 => cvtWord (t.tmod.toNat % 16) (cvtDest t) a
  | 0x42 =>
    let g := tget ({} : Gen) k.gen lane
    qcvtWord (t.tmod.toNat % 16) (t.tc.toNat % 16) (c.codebook (t.tc.toNat / 16)) g.draw.1 a b
  | _ => qdecWord (t.tc.toNat % 16) a b

/-! ## Across the group (R103, R127) -/

/-- One value for each of 32 lanes: f on active lanes, d elsewhere. -/
def laneVals {α : Type} (act : List Nat) (d : α) (f : Nat → α) : List α :=
  (List.range 32).map fun l => if act.contains l then f l else d

/-- Neighbouring pairs combined. -/
def pairUp {α : Type} (f : α → α → α) : List α → List α
  | a :: b :: r => f a b :: pairUp f r
  | l => l

/-- The fixed tree over 32 lanes (R103). -/
def tree32 {α : Type} (f : α → α → α) (l : List α) : List α := iter 5 (pairUp f) l

/-- A tree's single value. -/
def treeVal {α : Type} (d : α) (f : α → α → α) (l : List α) : α := (tree32 f l).headD d

/-- Sum of a over lanes: in the tree for floats, modulo 2^32 for integers. -/
def sumLanes (float : Bool) (vals : List Word) : Word :=
  if float then BitVec.ofNat 32 (treeVal 0 (fAdd fp32) (vals.map (·.toNat))) else vals.foldl (· + ·) 0

/-- REDG over active lanes: 0 sum, 1 max, 2 min (R103). -/
def redgWord (k : Skein) (t : TSlot) (act : List Nat) : Word :=
  let a (l : Nat) : Word := k.xr l t.ta
  let float := t.tfmt == 2
  let op := t.tmod.toNat % 4
  if op == 0 then sumLanes float (laneVals act 0 a)
  else if float then
    let d := fenc fp32 (.inf (op == 1))
    BitVec.ofNat 32 (treeVal 0 (if op == 1 then fMax fp32 else fMin fp32) (laneVals act d fun l => (a l).toNat))
  else
    match act with
    | [] => 0
    | l :: r => r.foldl (fun m x => if op == 1 then aluMax (tSg t) m (a x) else aluMin (tSg t) m (a x)) (a l)

/-- SCANG of a lane: the sum over active lanes at or below it (R103). -/
def scangWord (k : Skein) (t : TSlot) (act : List Nat) (lane : Nat) : Word :=
  sumLanes (t.tfmt == 2) (laneVals (act.filter (· ≤ lane)) 0 fun l => k.xr l t.ta)

/-- ARGMAXG: the lane whose a is greatest; ties to the lowest lane; NaN below every number (R103). -/
def argmaxLane (k : Skein) (t : TSlot) (act : List Nat) : Nat :=
  let v (l : Nat) : FV := fdec fp32 (k.xr l t.ta).toNat
  match act with
  | [] => 0
  | l :: r => r.foldl (fun m x =>
      if (v x).isNan then m else if (v m).isNan then x else if 0 < (v x).rank (v m) then x else m) l

/-- LANEX: the source lane if there is one in 0 to 31, and whether the index wrapped (R103). -/
def lanexSrc (how lane b : Nat) : Option Nat × Bool :=
  if how == 0 then (if b < 32 then some b else none, false)
  else if how == 1 then (some ((lane + b) % 32), decide (32 ≤ lane + b))
  else if how == 2 then (some ((lane + 32 - b % 32) % 32), decide (lane < b))
  else (if lane ^^^ b < 32 then some (lane ^^^ b) else none, false)

/-- LANEX of a lane: the value and p[TPD]. -/
def lanexLane (k : Skein) (t : TSlot) (act : List Nat) (lane : Nat) : Word × Bool :=
  let r := lanexSrc (t.tmod.toNat % 4) lane (srcB k t lane).toNat
  match r.1 with
  | some src => if act.contains src then (k.xr src t.ta, !r.2) else (k.xr lane t.ta, false)
  | none => (k.xr lane t.ta, false)

/-- POLL: 0 ANY, 1 ALL (R103). -/
def pollBit (k : Skein) (t : TSlot) (act : List Nat) : Bool :=
  let p (l : Nat) : Bool := k.pr l (t.ta.toNat % 8)
  if t.tmod.toNat % 4 == 0 then act.any p else act.all p

/-- POLL MASK. -/
def pollMask (k : Skein) (t : TSlot) (act : List Nat) : Mask := maskOf (act.filter fun l => k.pr l (t.ta.toNat % 8))

/-- QMAX over the active lanes (R127). -/
def qmaxOf (k : Skein) (t : TSlot) (act : List Nat) : Word := qmaxWord (act.map fun l => srcVal (t.tmod.toNat % 16) (k.xr l t.ta))

/-! ## Uniform operations and special values (R104, R105) -/

/-- Uniform operations 0x80 to 0x88. -/
def uniResult (k : Skein) (t : TSlot) : Dword :=
  let a := k.ur (t.ta.toNat % 64)
  let b := srcU k t
  match t.top.toNat with
  | 0x80 => a + b
  | 0x81 => a - b
  | 0x82 => a * b
  | 0x83 => a <<< (b.toNat % 64)
  | 0x84 => a >>> (b.toNat % 64)
  | 0x85 => a &&& b
  | 0x86 => a ||| b
  | 0x87 => a ^^^ b
  | _ => b

/-- The special value a lane reads (R105). -/
def State.special (s : State) (g : Grp) (sel lane : Nat) : Dword :=
  match sel with
  | 0 => BitVec.ofNat 64 lane
  | 1 => BitVec.ofNat 64 (maskOf g.lanes).toNat
  | 2 => BitVec.ofNat 64 g.slot
  | 3 => BitVec.ofNat 64 g.core
  | 4 => BitVec.ofNat 64 g.part
  | 5 => s.sampledTime g.core
  | 6 => s.sampledTime g.core >>> 32
  | 7 => s.cycles g.core
  | _ => BitVec.ofNat 64 s.wlk.moduleId.toNat

/-! ## The T-slot of a group -/

/-- A thread result: to x[TD] of each active lane, or with UDST to u[TD] from the lowest (R53, R96). -/
def thrPend (t : TSlot) (act : List Nat) (f : Nat → Dword) (low32 : Bool) : List Pending :=
  let v (l : Nat) : Dword := if low32 then f l &&& 0xFFFFFFFF#64 else f l
  if tUdst t then
    match act with
    | [] => []
    | l :: _ => [{ dest := .u (BitVec.ofNat 6 t.td.toNat), fromMem := false, vals := [(0, f l)] }]
  else if t.td == 255 then []
  else [{ dest := .x t.td, fromMem := false, vals := act.map fun l => (l, v l) }]

/-- A 32-bit thread result. -/
def thrWord (t : TSlot) (act : List Nat) (f : Nat → Word) : List Pending := thrPend t act (fun l => (f l).zeroExtend 64) true

/-- A predicate result of each active lane. -/
def predPend (n : BitVec 3) (act : List Nat) (f : Nat → Bool) : List Pending :=
  if n == 7 then [] else [{ dest := .p n, fromMem := false, vals := act.map fun l => (l, if f l then 1 else 0) }]

/-- The results of a T-slot operation for the active lanes of a group, nothing where none is active (R55). -/
def State.tPend (s : State) (g : Grp) (t : TSlot) : List Pending :=
  let core := s.core g.core
  let k := core.skein g.slot
  let act := g.act
  let op := t.top.toNat
  if act.isEmpty then []
  else if op == 0 then []
  else if op < 0x20 then thrWord t act (intLane k t)
  else if op < 0x40 then thrWord t act (floatLane k t)
  else if op == 0x41 then thrWord t act fun _ => qmaxOf k t act
  else if op < 0x50 then thrWord t act (convLane core k t)
  else if op == 0x50 then predPend t.tpd act fun l =>
    mergePred (nbits t.tmod.toNat 5 4) (cmpInt (t.tmod.toNat % 16) (tSg t) (k.xr l t.ta) (srcB k t l)) (k.pr l (t.tc.toNat % 8))
  else if op == 0x51 then predPend t.tpd act fun l =>
    mergePred (nbits t.tmod.toNat 5 4) (cmpFloat (t.tmod.toNat % 16) (k.xr l t.ta) (srcB k t l)) (k.pr l (t.tc.toNat % 8))
  else if op == 0x52 then predPend t.tpd act fun l =>
    pmix (nbits t.tmod.toNat 5 4) (bit t.tmod 6) (k.pr l (t.ta.toNat % 8)) (k.pr l (t.tb.toNat % 8))
  else if op == 0x53 then thrWord { t with tmod := 0 } act fun l => (predByte k l).zeroExtend 32
  else if op == 0x54 then (List.range 7).flatMap fun n => predPend (BitVec.ofNat 3 n) act fun l => bit (k.xr l t.ta) n
  else if op == 0x60 then thrWord t act (fun l => (lanexLane k t act l).1) ++ predPend t.tpd act fun l => (lanexLane k t act l).2
  else if op == 0x61 then
    (if t.tmod.toNat % 4 == 2 then thrWord t act fun _ => pollMask k t act else predPend t.tpd act fun _ => pollBit k t act)
  else if op == 0x62 then thrWord t act fun _ => redgWord k t act
  else if op == 0x63 then thrWord t act fun _ => BitVec.ofNat 32 (argmaxLane k t act)
  else if op == 0x64 then thrWord t act (scangWord k t act)
  else if op == 0x70 then thrWord t act fun l => (tget ({} : Gen) k.gen l).draw.1
  else if op == 0x71 then []
  else if op == 0x72 then thrWord t act fun l => BitVec.ofNat 32 (sfGumbel (tget ({} : Gen) k.gen l).draw.1)
  else if op < 0x90 then [{ dest := .u (BitVec.ofNat 6 t.td.toNat), fromMem := false, vals := [(0, uniResult k t)] }]
  else thrPend t act (s.special g (t.timm.toNat % 256)) true

/-- Generators after a T-slot operation: RNG, GUMBEL and QCVT to G8 draw, RNGSEED seeds (R135, R136). -/
def Skein.tGen (k : Skein) (t : TSlot) (act : List Nat) : Skein :=
  if t.top == 0x70 || t.top == 0x72 || tDraws t then
    { k with gen := act.foldl (fun m l => tmod {} m l fun g => g.draw.2) k.gen }
  else if t.top == 0x71 then
    { k with gen := act.foldl (fun m l => tset {} m l (Gen.seed (k.xr l t.ta) (srcB k t l))) k.gen }
  else k

/-- Non-finite blocks that an issue counts: QMAX with NF, QCVT with a value of R132 (R128, R132). -/
def badBlocks (k : Skein) (t : TSlot) (act : List Nat) : Nat :=
  if t.top == 0x41 then b2n (!act.isEmpty && bit (qmaxOf k t act) 9)
  else if t.top == 0x42 then b2n (act.any fun l => qcvtBad (t.tmod.toNat % 16) (k.xr l t.ta) (srcB k t l))
  else 0

/-- The T-slot takes effect: generators and counts now, results after their latency (R120). -/
def State.tSlot (s : State) (g : Grp) (t : TSlot) : State :=
  let n := badBlocks (s.skein g.core g.slot) t g.act
  let p := s.tPend g t
  let s := s.modSkein g.core g.slot fun k => { (k.tGen t g.act) with pend := k.pend ++ p }
  s.when (n != 0) fun s => s.aonAdd (recCore g.core) 3 n

end Sys2Proof.Machine
end

