-- ==== Sys2Proof/Machine/Encoding.lean ====
section
/-! DEFINITION. The 256-bit instruction word: its fields, its bytes, and what the core checks at decode (R81 to R86, R89, R93,
R106, R114). -/

namespace Sys2Proof.Machine

/-! ## Fields and bytes -/

/-- The word of four slots (R81). -/
def encodeWord (w : IWord) : BitVec 256 :=
  let c := w.c.cop ++ w.c.gneg ++ w.c.gpred ++ w.c.stall ++ w.c.yld ++ w.c.cimm
  let t := w.t.top ++ w.t.tfmt ++ w.t.td ++ w.t.ta ++ w.t.tb ++ w.t.tc ++ w.t.tpd ++ w.t.tsrc ++ w.t.timm ++ w.t.tmod
  let m := w.m.mop ++ w.m.msz ++ w.m.md ++ w.m.ma ++ w.m.mu ++ w.m.msp ++ w.m.mhint ++ w.m.msub ++ w.m.mnob ++ w.m.moff
  let h := w.h.hop ++ w.h.hoop ++ w.h.sub ++ w.h.hfmt ++ w.h.bank ++ w.h.plane ++ w.h.acc ++ w.h.rows ++ w.h.hu ++ w.h.hnou
    ++ w.h.hoff ++ w.h.hstride ++ w.h.haux
  c ++ t ++ m ++ h

/-- The slots of a word, field by field from the tables of R89, R93, R106 and R114. -/
def decodeWord (v : BitVec 256) : IWord where
  c := { cop := v.extractLsb' 251 5, gneg := v.extractLsb' 250 1, gpred := v.extractLsb' 247 3, stall := v.extractLsb' 243 4
         yld := v.extractLsb' 242 1, cimm := v.extractLsb' 224 18 }
  t := { top := v.extractLsb' 216 8, tfmt := v.extractLsb' 213 3, td := v.extractLsb' 205 8, ta := v.extractLsb' 197 8
         tb := v.extractLsb' 189 8, tc := v.extractLsb' 181 8, tpd := v.extractLsb' 178 3, tsrc := v.extractLsb' 176 2
         timm := v.extractLsb' 144 32, tmod := v.extractLsb' 136 8 }
  m := { mop := v.extractLsb' 130 6, msz := v.extractLsb' 127 3, md := v.extractLsb' 119 8, ma := v.extractLsb' 111 8
         mu := v.extractLsb' 105 6, msp := v.extractLsb' 103 2, mhint := v.extractLsb' 101 2, msub := v.extractLsb' 98 3
         mnob := v.extractLsb' 97 1, moff := v.extractLsb' 72 25 }
  h := { hop := v.extractLsb' 68 4, hoop := v.extractLsb' 66 2, sub := v.extractLsb' 64 2, hfmt := v.extractLsb' 61 3
         bank := v.extractLsb' 60 1, plane := v.extractLsb' 59 1, acc := v.extractLsb' 58 1, rows := v.extractLsb' 53 5
         hu := v.extractLsb' 47 6, hnou := v.extractLsb' 46 1, hoff := v.extractLsb' 28 18, hstride := v.extractLsb' 16 12
         haux := v.extractLsb' 0 16 }

/-- The word of 32 bytes in memory, the C-slot in the highest four (R82). -/
def wordOfBytes (bs : List Byte) : IWord := decodeWord (BitVec.ofNat 256 (ofBytes bs))

/-! ## What a slot reads and writes -/

/-- A non-empty slot's legality and registers: whether it is a reserved encoding, and the registers read and written. -/
structure SlotInfo where
  ok : Bool
  reads : List RegName
  writes : List RegName
  deriving DecidableEq, Repr

def SlotInfo.empty (ok : Bool) : SlotInfo := ⟨ok, [], []⟩

def xReg (n : BitVec 8) : RegName := .x n
def uReg (n : Nat) : RegName := .u (BitVec.ofNat 6 n)
def pReg (n : Nat) : RegName := .p (BitVec.ofNat 3 n)

/-- x registers from d on. -/
def xRegs (d : BitVec 8) (n : Nat) : List RegName := (List.range n).map fun i => .x (regAfter d i)

/-! ### C-slot (R89, R90) -/

/-- The guard predicate is read whatever the operation. -/
def cInfo (c : CSlot) : SlotInfo :=
  let v := c.cimm.toNat
  let g : RegName := .p c.gpred
  match c.cop.toNat with
  | 0 => ⟨v == 0, [g], []⟩
  | 1 => ⟨true, [g], []⟩
  | 2 => ⟨v / 256 == 0, [g, xReg (BitVec.ofNat 8 v)], []⟩
  | 3 => ⟨v / 64 == 0, [g, uReg v], []⟩
  | 4 => let d := BitVec.ofNat 8 (v / 1024); ⟨d.toNat % 2 == 0, [g], xRegs d 2⟩
  | 5 => let d := BitVec.ofNat 8 v; ⟨v / 256 == 0 && d.toNat % 2 == 0, g :: xRegs d 2, []⟩
  | 6 => ⟨v == 0, [g], []⟩
  | 7 => ⟨v / 16 == 0, [g], []⟩
  | 8 => ⟨v / 16 == 0, [g], []⟩
  | 9 => ⟨v / 65536 == 0, [g], []⟩
  | 10 => ⟨v == 0, [g], []⟩
  | _ => ⟨false, [g], []⟩

/-! ### T-slot (R93 to R105) -/

/-- Source b used: its form is legal (R94). -/
def bOk (t : TSlot) : Bool :=
  if t.tsrc == 0 then t.timm == 0 else if t.tsrc == 1 then t.tb.toNat < 64 && t.timm == 0 else t.tsrc == 2 && t.tb == 0

/-- Source b unused: its fields are 0 (R83). -/
def bNone (t : TSlot) : Bool := t.tsrc == 0 && t.tb == 0 && t.timm == 0

def bReads (t : TSlot) : List RegName :=
  if t.tsrc == 0 then [xReg t.tb] else if t.tsrc == 1 then [uReg (t.tb.toNat % 64)] else []

/-- Destination of a thread result, with UDST or without (R96). -/
def tdWrites (t : TSlot) : List RegName := if tUdst t then [uReg t.td.toNat] else [xReg t.td]
def tdOk (t : TSlot) : Bool := !tUdst t || t.td.toNat < 64

/-- Operations by what they use: a, b, c as x registers. -/
def threeForm (t : TSlot) (a b c : Bool) (ok : Bool) : SlotInfo :=
  ⟨ok && tdOk t && t.tpd == 0 && (a || t.ta == 0) && (if b then bOk t else bNone t) && (c || t.tc == 0),
   (if a then [xReg t.ta] else []) ++ (if b then bReads t else []) ++ (if c then [xReg t.tc] else []), tdWrites t⟩

/-- Integer group (R96, R97). -/
def intInfo (t : TSlot) : SlotInfo :=
  let op := t.top.toNat
  let satOk := op == 1 || op == 2 || op == 3 || op == 5 || op == 8
  let fmt := if op == 8 then t.tfmt == 1 else if op == 0x12 || op == 0x13 then t.tfmt == 0 else t.tfmt.toNat ≤ 1
  let ok := fmt && t.tmod.toNat % 64 == 0 && (satOk || !tSat t) && op ≤ 0x14
  if op == 5 then threeForm t true true true ok
  else if op == 8 || op == 0xC || op == 0xF || op == 0x10 || op == 0x11 then threeForm t true false false ok
  else if op == 0x12 then
    let i := threeForm { t with tc := 0 } true true false (ok && t.tc.toNat < 8)
    { i with reads := pReg t.tc.toNat :: i.reads }
  else if op == 0x13 then threeForm t false true false ok
  else threeForm t true true false ok

/-- Float group (R98). -/
def floatInfo (t : TSlot) : SlotInfo :=
  let op := t.top.toNat
  let fmt := if 0x28 ≤ op then t.tfmt == 2 else t.tfmt == 2 || t.tfmt == 3 || t.tfmt == 4
  let ok := fmt && t.tmod.toNat % 128 == 0 && op ≤ 0x2F
  if op == 0x23 then threeForm t true true true ok
  else if op ≤ 0x25 then threeForm t true true false ok
  else threeForm t true false false ok

/-- Source and destination codes that CVT accepts (R101). -/
def cvtCode (n : Nat) : Bool := n ≤ 2 || n == 10 || n == 11

/-- Conversions (R101). -/
def convInfo (t : TSlot) : SlotInfo :=
  let src := t.tmod.toNat % 16
  let hi := nbits t.tmod.toNat 6 4
  let t0 := { t with tc := 0 }
  let fmt := t.tfmt == 0
  match t.top.toNat with
  | 0x40 => threeForm t0 true false false (fmt && cvtCode src && cvtCode (cvtDest t) && t.tc.toNat < 2)
  | 0x41 => threeForm t true false false (fmt && src ≤ 2 && hi == 0)
  | 0x42 =>
    let d := t.tc.toNat % 16
    threeForm t0 true true false (fmt && src ≤ 2 && hi == 0 && 3 ≤ d && d ≤ 9 && (d == 6 || t.tc.toNat < 16))
  | 0x43 =>
    let d := t.tc.toNat
    threeForm t0 true true false (fmt && src == 0 && hi == 0 && (d == 3 || d == 4 || d == 5 || d == 7 || d == 8 || d == 9))
  | _ => SlotInfo.empty false

/-- Compare and predicate operations (R102). -/
def predInfo (t : TSlot) : SlotInfo :=
  let cond := t.tmod.toNat % 16
  let merge := nbits t.tmod.toNat 5 4
  let cOk := if merge == 0 then t.tc == 0 else t.tc.toNat < 8
  let reads := xReg t.ta :: bReads t ++ (if merge == 0 then [] else [pReg t.tc.toNat])
  match t.top.toNat with
  | 0x50 => ⟨t.tfmt.toNat ≤ 1 && cond ≤ 5 && t.tmod.toNat < 64 && bOk t && cOk && t.td == 0, reads, [.p t.tpd]⟩
  | 0x51 => ⟨t.tfmt == 2 && cond ≤ 7 && t.tmod.toNat < 64 && bOk t && cOk && t.td == 0, reads, [.p t.tpd]⟩
  | 0x52 => ⟨t.tfmt == 0 && cond == 0 && t.tmod.toNat < 128 && t.tsrc == 0 && t.timm == 0 && t.ta.toNat < 8 && t.tb.toNat < 8
      && t.tc == 0 && t.td == 0, [pReg t.ta.toNat, pReg t.tb.toNat], [.p t.tpd]⟩
  | 0x53 => ⟨t.tfmt == 0 && t.tmod == 0 && bNone t && t.ta == 0 && t.tc == 0 && t.tpd == 0, (List.range 7).map pReg, [xReg t.td]⟩
  | 0x54 => ⟨t.tfmt == 0 && t.tmod == 0 && bNone t && t.tc == 0 && t.tpd == 0 && t.td == 0, [xReg t.ta], (List.range 7).map pReg⟩
  | _ => SlotInfo.empty false

/-- Group operations (R103). -/
def groupInfo (t : TSlot) : SlotInfo :=
  let how := t.tmod.toNat % 4
  let rest := t.tmod.toNat % 128 / 4 == 0
  match t.top.toNat with
  | 0x60 => ⟨t.tfmt == 0 && rest && bOk t && t.tc == 0 && tdOk t, xReg t.ta :: bReads t, tdWrites t ++ [.p t.tpd]⟩
  | 0x61 =>
    let base := t.tfmt == 0 && rest && how ≤ 2 && bNone t && t.tc == 0 && t.ta.toNat < 8
    if how == 2 then ⟨base && t.tpd == 0 && tdOk t, [pReg t.ta.toNat], tdWrites t⟩
    else ⟨base && t.td == 0 && !tUdst t, [pReg t.ta.toNat], [.p t.tpd]⟩
  | 0x62 => threeForm t true false false (t.tfmt.toNat ≤ 2 && rest && how ≤ 2)
  | 0x63 => threeForm t true false false (t.tfmt == 2 && t.tmod.toNat % 128 == 0)
  | 0x64 => threeForm t true false false (t.tfmt.toNat ≤ 2 && t.tmod.toNat % 128 == 0)
  | _ => SlotInfo.empty false

/-- Sampling operations (R104). -/
def sampInfo (t : TSlot) : SlotInfo :=
  match t.top.toNat with
  | 0x70 => threeForm t false false false (t.tfmt == 0 && t.tmod.toNat % 128 == 0)
  | 0x71 => ⟨t.tfmt == 0 && t.tmod == 0 && bOk t && t.tc == 0 && t.tpd == 0 && t.td == 0, xReg t.ta :: bReads t, []⟩
  | 0x72 => threeForm t false false false (t.tfmt == 2 && t.tmod.toNat % 128 == 0)
  | _ => SlotInfo.empty false

/-- Uniform operations (R104): every register is a u register; TSRC 0b01 is reserved. -/
def uniInfo (t : TSlot) : SlotInfo :=
  let mov := t.top == 0x88
  let bGood := if t.tsrc == 0 then t.tb.toNat < 64 && t.timm == 0 else t.tsrc == 2 && t.tb == 0
  ⟨t.tfmt == 5 && t.top.toNat ≤ 0x88 && t.tmod == 0 && t.tc == 0 && t.tpd == 0 && t.td.toNat < 64
      && (if mov then t.ta == 0 else t.ta.toNat < 64) && bGood,
   (if mov then [] else [uReg t.ta.toNat]) ++ (if t.tsrc == 0 then [uReg t.tb.toNat] else []), [uReg t.td.toNat]⟩

/-- The T-slot: an empty one has every bit 0 (R83). -/
def tInfo (t : TSlot) : SlotInfo :=
  let op := t.top.toNat
  if op == 0 then SlotInfo.empty (t == {})
  else if op < 0x20 then intInfo t
  else if op < 0x40 then floatInfo t
  else if op < 0x50 then convInfo t
  else if op < 0x60 then predInfo t
  else if op < 0x70 then groupInfo t
  else if op < 0x80 then sampInfo t
  else if op < 0x90 then uniInfo t
  else if op == 0x90 then
    ⟨t.tfmt == 0 && t.tmod.toNat % 128 == 0 && t.tsrc == 0 && t.tb == 0 && t.ta == 0 && t.tc == 0 && t.tpd == 0 && tdOk t
      && t.timm.toNat ≤ 8, [], tdWrites t⟩
  else SlotInfo.empty false

/-! ### M-slot (R106 to R111) -/

/-- Address fields used: legal, and the registers read. -/
def addrOk (m : MSlot) : Bool := m.msp.toNat ≤ 1 && (m.mnob == 0 || m.mu == 0)
def addrReads (m : MSlot) : List RegName := xReg m.ma :: (if m.mnob == 1 then [] else [uReg m.mu.toNat])
def addrNone (m : MSlot) : Bool := m.ma == 0 && m.mu == 0 && m.msp == 0 && m.mnob == 0 && m.moff == 0

/-- MD fits an access of 32 × n bits (R108). -/
def mdOk (m : MSlot) (n : Nat) : Bool := m.md.toNat % n == 0

/-- Registers of an access by its size. -/
def sizeRegs (m : MSlot) : Nat := if m.msz.toNat ≤ 2 then 1 else if m.msz == 3 then 2 else 4

def mInfo (m : MSlot) : SlotInfo :=
  let n := sizeRegs m
  let wide := m.msz == 3
  let hint := m.mhint.toNat ≤ 2
  let noHint := m.mhint == 0
  let sub := m.msub.toNat
  match m.mop.toNat with
  | 0 => SlotInfo.empty (m == {})
  | 0x01 => ⟨m.msz.toNat ≤ 4 && sub ≤ 1 && hint && addrOk m && mdOk m n, addrReads m, xRegs m.md n⟩
  | 0x02 => ⟨m.msz.toNat ≤ 4 && sub == 0 && hint && addrOk m && mdOk m n, addrReads m ++ xRegs m.md n, []⟩
  | 0x03 => ⟨(m.msz == 2 || wide) && sub == 0 && hint && addrOk m && m.ma == 255 && m.md.toNat < 64, addrReads m, [uReg m.md.toNat]⟩
  | 0x0B =>
    let k := if wide then 4 else 2
    ⟨(m.msz == 2 || wide) && sub == 0 && noHint && addrOk m && mdOk m k, addrReads m ++ xRegs m.md k, xRegs m.md (k / 2)⟩
  | 0x10 => ⟨m.msz == 0 && noHint && addrOk m && m.md == 0, addrReads m, []⟩
  | 0x11 => ⟨m.msz == 0 && noHint && sub ≤ 1 && m.ma == 255 && m.mnob == 0 && m.msp == 0 && m.md == 0 && m.moff.toNat < 256, [uReg m.mu.toNat], []⟩
  | 0x12 => ⟨m.msz == 0 && noHint && sub == 0 && m.ma == 255 && m.mnob == 0 && m.msp == 0 && m.md == 0 && m.moff.toNat < 256, [uReg m.mu.toNat], []⟩
  | 0x18 => ⟨m.msz == 0 && noHint && sub ≤ 2 && addrNone m && m.md == 0, [], []⟩
  | 0x19 => ⟨m.msz == 0 && hint && sub ≤ 2 && addrOk m && m.md == 0, addrReads m, []⟩
  | 0x1A => ⟨m.msz == 0 && noHint && sub ≤ 2 && addrNone m && m.md == 0, [], []⟩
  | op =>
    if 4 ≤ op ∧ op ≤ 10 then
      let signOk := if op == 5 || op == 6 then sub % 4 / 2 == 0 else sub % 4 == 0
      ⟨(m.msz == 2 || wide) && signOk && noHint && addrOk m && mdOk m n, addrReads m ++ xRegs m.md n,
       if bit m.msub 2 then xRegs m.md n else []⟩
    else if 12 ≤ op ∧ op ≤ 14 then
      ⟨m.msz == 2 && sub % 2 == 0 && noHint && addrOk m, addrReads m ++ [xReg m.md], if bit m.msub 2 then [xReg m.md] else []⟩
    else SlotInfo.empty false

/-! ### H-slot (R114 to R118, R158) -/

def hAddrReads (h : HSlot) : List RegName := if h.hnou == 1 then [] else [uReg h.hu.toNat]
def hAddrOk (h : HSlot) : Bool := h.hnou == 0 || h.hu == 0
def hAddrNone (h : HSlot) : Bool := h.hu == 0 && h.hnou == 0 && h.hoff == 0

def hInfo (h : HSlot) : SlotInfo :=
  let aux := h.haux.toNat
  match h.hop.toNat with
  | 0 => SlotInfo.empty (h == {})
  | 1 => ⟨h.hfmt.toNat ≤ 5 && h.bank == 0 && h.acc == 0 && hAddrOk h && (if h.hfmt == 3 then aux < 16 else aux == 0), hAddrReads h, []⟩
  | 2 => ⟨h.hfmt.toNat ≤ 5 && hAddrOk h && aux < 2, hAddrReads h, []⟩
  | 3 => ⟨h.hfmt.toNat ≤ 5 && hAddrOk h && aux < 2, hAddrReads h, []⟩
  | 4 => ⟨h.hfmt == 0 && h.plane == 0 && h.acc == 0 && h.rows == 0 && hAddrOk h && aux % 8 ≤ 2 && aux < 8192, hAddrReads h, []⟩
  | 5 => ⟨h.hfmt == 0 && h.plane == 0 && h.acc == 0 && h.rows == 0 && hAddrNone h && h.hstride == 0 && aux == 0, [], []⟩
  | 6 => ⟨h.hfmt == 0 && h.bank == 0 && h.plane == 0 && h.acc == 0 && h.rows == 0 && hAddrNone h && h.hstride == 0 && aux < 2, [], []⟩
  | 7 => ⟨h.hfmt == 0 && h.bank == 0 && h.acc == 0 && h.rows == 0 && h.hstride == 0 && hAddrOk h && aux ≤ 64, hAddrReads h, []⟩
  | _ => SlotInfo.empty false

/-! ## The checks at decode (R83 to R86) -/

/-- The slots' information. -/
def wordInfo (w : IWord) : List SlotInfo := [cInfo w.c, tInfo w.t, mInfo w.m, hInfo w.h]

/-- Whether a list has an element twice. -/
def hasDup : List RegName → Bool
  | [] => false
  | a :: r => r.contains a || hasDup r

/-- Registers read and written by a word. -/
def wordReads (w : IWord) : List RegName := (wordInfo w).flatMap (·.reads)
def wordWrites (w : IWord) : List RegName := (wordInfo w).flatMap (·.writes)

/-- An x register beyond the allocation of a skein (R34). -/
def beyond (units : Nat) : RegName → Bool
  | .x n => n != 255 && decide (8 * units ≤ n.toNat)
  | _ => false

/-- The cause that decode raises, if any: 0x01 reserved encoding or destination conflict, 0x02 register beyond the
allocation (R84). -/
def decodeCause (units : Nat) (w : IWord) : Option Nat :=
  if (wordInfo w).any (fun i => !i.ok) || hasDup ((wordWrites w).filter fun r => !discards r) then some 1
  else if (wordReads w ++ wordWrites w).any (beyond units) then some 2
  else none

/-- Whether a source register of the word has a pending write (R46, R47). -/
def sourcePending (k : Skein) (w : IWord) : Bool := (wordReads w).any fun r => k.pend.any fun p => p.dest == r

end Sys2Proof.Machine
end

