-- ==== Sys2Proof/Machine/Launch.lean ====
section
/-! DEFINITION. Launching, ending, halting and releasing bundles and skeins, and the core reset (chapter 2, R283, R284). -/

namespace Sys2Proof.Machine

/-! ## Register accesses -/

/-- Whether a write covers bits [hi:lo] wholly (R8, R362). -/
def covers (op : RegOp) (hi lo : Nat) : Bool :=
  match op.part with
  | .full => true
  | .low => decide (hi < 32)
  | .high => decide (32 ≤ lo)

/-- Whom a refused access counts against (R531). -/
def acctOf : Agent → Acct
  | .pf0 => .fn 0
  | .vf n => .fn n
  | .firmware => .module

/-- The offset in an agent's BAR0 at which it reaches a local register address (R361). -/
def barOffset (a : Agent) (addr : Nat) : Nat :=
  match a with
  | .vf _ => addr % 0x1000000
  | _ => if addr < regBase + 0x1000000 then addr - regBase else 0x8000000 + (addr - regBase) % 0x8000000

/-- A write that reaches a field across bits 31 and 32: the host's 32-bit write to part of it is row 2 of the violation table
(R8, R384). -/
def State.spanning (s : State) (op : RegOp) (addr : Nat) : State :=
  if op.part == .full then s
  else
    match op.agent with
    | .pf0 => s.hostViolation 0 2 2 (barOffset .pf0 addr)
    | .vf n => s.hostViolation n 2 2 (barOffset (.vf n) addr)
    | .firmware => s

/-- Whether the agent reaches the blocks outside a partition's: PF0 through BAR0, and firmware (R361). -/
def isWide : Agent → Bool
  | .vf _ => false
  | _ => true

/-- Local address of a core's register (R20, R68, R75, R179, R203). -/
def coreRegAddr (c off : Nat) : Nat := 0x030080000000 + c * 0x100000 + off

/-! ## CORE_LAUNCH (R37) -/

/-- Whether a core may take work at all: its partition is formed (R40 code 0x07). -/
def State.launchable (s : State) (c : Nat) : Bool :=
  match s.partOf c with
  | some p => (s.part p).st == .formed || (s.part p).st == .draining
  | none => false

/-- Launches waiting in the queue; with the stores that wait for an entry behind them. -/
def State.queueLaunch (s : State) (c : Nat) (r : LaunchReq) : State :=
  if (s.core c).launchQ.length < 16 then s.modCore c fun k => { k with launchQ := k.launchQ ++ [r] }
  else
    match r.writer with
    | .pf0 => s.hostViolation 0 4 1 (0x8000000 + (coreRegAddr c 0 - 0x030000000000) % 0x8000000)
    | _ => s.modCore c fun k => { k with launchWait := k.launchWait ++ [r] }

/-- An entry of the launch queue frees: the oldest waiting store completes. -/
def Core.popLaunch (k : Core) : Core :=
  let q := k.launchQ.drop 1
  match k.launchWait with
  | [] => { k with launchQ := q, head := none }
  | r :: rest => { k with launchQ := q ++ [r], launchWait := rest, head := none }

/-! ## Reading and checking the descriptor (R38 to R40) -/

/-- A byte range that a launch may read: through the partition's translation, in this module's stacked memory, LPDDR6 or a
scratch window in window mode, and correctable (R40 code 0x04). -/
def State.launchRead (s : State) (part va n : Nat) : Option (List Byte) :=
  match s.walk part va with
  | none => none
  | some l =>
    let g := l.at_ va
    if modOf g != s.myId || s.damagedAt (locOf g) n then none
    else
      match s.place (locOf g) with
      | .stack | .lpd => some (s.keyBytes l.key (locOf g) n)
      | .window _ => some (s.bytesAt (locOf g) n)
      | _ => none

/-- The UINIT values, each through the translation. -/
def State.uinitRead (s : State) (part va : Nat) : Nat → Option (List Dword)
  | 0 => some []
  | n + 1 =>
    match s.uinitRead part va n, s.launchRead part (va + 8 * n) 8 with
    | some l, some b => some (l ++ [BitVec.ofNat 64 (ofBytes b)])
    | _, _ => none

/-- What a launch's read does: a Normal line is allocated in L2, and data that cannot be corrected leaves its record (R220, R243). -/
def State.launchTouch (s : State) (part va n : Nat) : State :=
  match s.walk part va with
  | none => s
  | some l =>
    let g := l.at_ va
    let a := locOf g
    if modOf g != s.myId then s
    else
      match s.place a with
      | .stack | .lpd | .window _ => if s.damagedAt a n then s.ueRead (s.badAt a n) part else s.agentRead (l.typ == 0) part a n
      | _ => s

/-- The same for n reads of 8 bytes each, up to the first that cannot be read. -/
def State.launchTouches (s : State) (part va : Nat) : Nat → State
  | 0 => s
  | n + 1 =>
    let s := s.launchTouches part va n
    if (s.uinitRead part va n).isSome then s.launchTouch part (va + 8 * n) 8 else s

/-- Where an end word is written: Normal stacked memory or LPDDR6 of this module with W = 1 (R38): address and key. -/
def State.endTarget (s : State) (part va : Nat) : Option (Nat × Nat) :=
  match s.walk part va with
  | none => none
  | some l =>
    let g := l.at_ va
    let a := locOf g
    if modOf g == s.myId && l.w && l.typ == 0 && (isStack a || s.lpdHere a) then some (a, l.key) else none

/-- The refusal codes that the bytes of a descriptor earn (R38, R40). -/
def descCodes (b : List Byte) : List Nat :=
  let uinit := leAt b 8 8
  let skeins := leAt b 16 1
  let units := leAt b 18 1
  let ucount := leAt b 20 1
  let out (v lo hi : Nat) : Bool := decide (v < lo ∨ hi < v)
  (if leAt b 22 2 / 2 != 0 || !zeroAt b 30 2 || !zeroAt b 40 24 then [1] else [])
    ++ (if out skeins 1 32 || out (leAt b 17 1) 1 32 || out units 1 32 || out (leAt b 19 1) 0 16 || out ucount 0 62
          || (uinit == 0 && ucount != 0) || uinit % 8 != 0 || leAt b 32 8 % 8 != 0 then [2] else [])
    ++ (if 256 < skeins * units then [3] else [])
    ++ (if leAt b 0 8 % 32 != 0 then [5] else [])

/-- The outcome of reading a launch: a refusal code, or the descriptor with its UINIT values. -/
def State.readLaunch (s : State) (c : Nat) (r : LaunchReq) : Nat ⊕ LaunchDesc :=
  let part := (s.partOf c).getD 0
  let foreign := match r.writer with
    | .skein wc _ => !(s.partOf wc.toNat == s.partOf c)
    | _ => false
  let va := r.desc.toNat
  if !s.launchable c || foreign then .inl 7
  else if (s.core c).quar || (s.core c).held then .inl 6
  else if va % 64 != 0 then .inl 4
  else
    match s.launchRead part va 64 with
    | none => .inl 4
    | some b =>
      let uinit := s.uinitRead part (leAt b 8 8) (min (leAt b 20 1) 62)
      let endA := leAt b 32 8
      let reach := if uinit.isNone || (endA != 0 && (s.endTarget part endA).isNone) then [4] else []
      match lowest (descCodes b ++ reach) with
      | some code => .inl code
      | none => .inr {
          desc := r.desc, entry := BitVec.ofNat 64 (leAt b 0 8), skeins := leAt b 16 1, lastThreads := leAt b 17 1
          regUnits := leAt b 18 1, knots := leAt b 19 1, uinit := uinit.getD [], counter := leAt b 21 1
          counterEn := leAt b 22 2 % 2 == 1, add := BitVec.ofNat 32 (leAt b 24 4)
          wdogUs := if leAt b 28 2 == 0 then 10000 else leAt b 28 2, endAddr := BitVec.ofNat 64 endA }

/-- A launch refused with a code: LAST_REFUSAL, REFUSED, the contained record; the next launch is taken (R40). -/
def State.refuseLaunch (s : State) (c code : Nat) (desc : Dword) : State :=
  let s := s.modCore c fun k => { k.popLaunch with lastRefusal := BitVec.ofNat 8 code, refused := satAdd k.refused 1 }
  s.record .contained .module (unitId 1 c) 0x02 code (s.partByte c) (toBytes 8 desc.toNat)

/-- What reading a launch does: its descriptor is read, and the UINIT block that it names (R39, R243). -/
def State.launchReads (s : State) (c : Nat) (r : LaunchReq) : State :=
  let part := (s.partOf c).getD 0
  let va := r.desc.toNat
  match s.readLaunch c r with
  | .inl 7 | .inl 6 => s
  | _ =>
    if va % 64 != 0 then s
    else
      match s.launchRead part va 64 with
      | none => s.launchTouch part va 64
      | some b => (s.launchTouch part va 64).launchTouches part (leAt b 8 8) (min (leAt b 20 1) 62)

/-- LAUNCH_DESCRIPTOR_READ: the launch at the head of the queue is read once and checked (R39, R40). -/
def execLaunchDescriptorRead (core : CoreId) (s : State) : Out :=
  let c := core.toNat
  match (s.core c).launchQ, (s.core c).head with
  | r :: _, none =>
    match s.readLaunch c r with
    | .inl code => .next ((s.launchReads c r).refuseLaunch c code r.desc)
    | .inr d => .next ((s.launchReads c r).modCore c fun k => { k with head := some d })
  | _, _ => .next s

/-! ## Admission (R39, R41) -/

/-- The lowest n numbers below a limit that satisfy p. -/
def lowestFree (limit n : Nat) (p : Nat → Bool) : List Nat := ((List.range limit).filter p).take n

/-- Lanes of skein `i` of a bundle that hold a thread. -/
def LaunchDesc.lanes (d : LaunchDesc) (i : Nat) : Mask :=
  if i + 1 == d.skeins then maskOf (List.range d.lastThreads) else 0xFFFFFFFF#32

/-- Whether a bundle ID is free. -/
def Core.freeBundle (k : Core) : Bool := (List.range 64).any fun n => (k.bundle n).st == .free

/-- A bundle admitted: the lowest free bundle ID, slots and knots, its skeins in STATE 1 (R39, R56). LOST of a slot is clear for
the skein that takes it (DESIGN CHOICE, log entry 87). -/
def Core.admission (k : Core) (d : LaunchDesc) (ob : Option (Nat × Word)) : Core :=
  let b := ((List.range 64).find? fun n => (k.bundle n).st == .free).getD 0
  let slots := lowestFree 64 d.skeins fun n => (k.skein n).st == .free
  let knots := lowestFree 16 d.knots fun n => (nth {} k.knots n).owner.isNone
  let seq := k.launchSeq + 1
  let k := { k.popLaunch with launchSeq := seq }
  let k := k.modBundle b fun _ => { st := .running, seq := seq, desc := some d, obPart := ob }
  let k := (knots.zip (List.range d.knots)).foldl (fun k e => k.modKnot e.1 fun _ =>
    { owner := some (BitVec.ofNat 6 b), local_ := e.2, wdogUs := BitVec.ofNat 16 d.wdogUs, participants := d.threads }) k
  (slots.zip (List.range d.skeins)).foldl (fun k e => k.modSkein e.1 fun _ =>
    { st := .loading, bundle := BitVec.ofNat 6 b, index := BitVec.ofNat 5 e.2, units := d.regUnits, lanes := d.lanes e.2 }) k

/-- BUNDLE_ADMISSION: the head launch is admitted once enough slots, units and knots are free (R39); none is while the core
is held, or its reset drains (R477, R542). It waits for a free bundle ID as for the rest (DESIGN CHOICE, log entry 87). -/
def execBundleAdmission (core : CoreId) (s : State) : Out :=
  let c := core.toNat
  let k := s.core c
  match k.head, k.launchQ with
  | some d, r :: _ =>
    if d.skeins ≤ k.freeSlots ∧ d.skeins * d.regUnits ≤ k.freeUnits ∧ d.knots ≤ k.freeKnots ∧ k.freeBundle ∧ k.held = false ∧ k.draining = none then
      .next (s.modCore c fun k => k.admission d r.ob)
    else .next s
  | _, _ => .next s

/-- The registers of a skein at the end of loading (R41, R135). -/
def Skein.load (k : Skein) (c slot part : Nat) (d : LaunchDesc) : Skein :=
  let b := k.bundle.toNat
  let us := (List.range 64).map fun n =>
    if n == 62 then identity c b k.index.toNat d.skeins part else if n == 63 then d.desc else nth 0 d.uinit n
  { k with
    st := .running
    pc := (lanesOf k.lanes).map fun l => (l, d.entry)
    x := ((lanesOf k.lanes).map fun l => (l * 256, BitVec.ofNat 32 (k.index.toNat * 32 + l))).filter fun e => e.2 != 0
    u := ((List.range 64).zip us).filter fun e => e.2 != 0
    p := []
    gen := (lanesOf k.lanes).map fun l => (l, Gen.admission c slot l) }

/-- BUNDLE_LOADING_COMPLETE: every skein of the bundle enters STATE 2 in one cycle (R39, R41). -/
def execBundleLoadingComplete (core : CoreId) (bundle : BitVec 6) (s : State) : Out :=
  let c := core.toNat
  match ((s.core c).bundle bundle.toNat).desc with
  | none => .next s
  | some d => .next (s.modCore c fun k => { k with skeins := k.skeins.map fun e =>
      if e.2.st == .loading && e.2.bundle == bundle then (e.1, e.2.load c e.1 ((s.partOf c).getD 0) d) else e })

/-! ## Ending (R42 to R44, R66) -/

/-- The loads of a slot that nothing waits for any more. -/
def Core.dropLoads (k : Core) (slot : Nat) : Core := { k with lq := k.lq.filter fun e => e.slot.toNat != slot }

/-- SKEIN_STORES_DRAINED: an ending skein's stores have drained; its slot and units are free (R42). The slot's other fields keep
the skein's values (DESIGN CHOICE, log entry 87). -/
def execSkeinStoresDrained (core : CoreId) (slot : SlotId) (s : State) : Out :=
  let k := s.core core.toNat
  if (k.skein slot.toNat).st == .ending && k.drained slot.toNat then
    .next ((s.modSkein core.toNat slot.toNat fun x => { x with st := .free }).modCore core.toNat fun k => k.dropLoads slot.toNat)
  else .next s

/-- Whether a bundle has come to its end (R43): all skeins ended, or aborted with every skein stopped; its stores drained and
its hoop operations complete (R184, R271). -/
def Core.bundleDone (k : Core) (b : Nat) : Bool :=
  let x := k.bundle b
  let slots := k.slotsOf b
  x.st == .running && !k.hoopBusy b
    && (if x.aborting then slots.all fun n =>
          let st := (k.skein n).st
          (st == .excHalted || st == .abortHalted || st == .ending) && k.drained n
        else slots.isEmpty)

/-- The end word (R44). -/
def endWord (c : Nat) (x : Bundle) : Dword :=
  fld (b2n x.aborting) 63 ||| fld (if x.aborting then x.cause.toNat else 0) 48
    ||| fld (if x.aborting then x.firstSlot.toNat else 0) 42 ||| fld c 32 ||| fld x.seq.toNat 0

/-- The end word written, or its record of code 0x80 (R44). -/
def State.writeEndWord (s : State) (c b : Nat) (x : Bundle) (endAddr : Dword) : State :=
  if endAddr == 0 then s
  else
    match (s.partOf c).bind fun p => s.endTarget p endAddr.toNat with
    | some (a, key) => s.homeWrite (s.partByte c) key a (toBytes 8 (endWord c x).toNat)
    | none => s.record .contained .module (unitId 1 c) 0x02 0x80 (s.partByte c)
        (toBytes 8 endAddr.toNat ++ toBytes 4 b ++ toBytes 4 x.seq.toNat)

/-- The end of a bundle: end word, knots, counter, in this order (R43). A knot that is freed shows its reset values (DESIGN CHOICE,
log entry 87). -/
def State.endBundle (s : State) (c b : Nat) : State :=
  let x := (s.core c).bundle b
  match x.desc with
  | none => s
  | some d =>
    let s := s.writeEndWord c b x d.endAddr
    let s := s.modCore c fun k => (k.knotsOf b).foldl (fun k n => k.modKnot n fun _ => {}) k
    let s := s.modCore c fun k => k.modBundle b fun y =>
      if y.aborting then { y with st := .aborted, aborting := false } else { y with st := .free, cause := 0, firstSlot := 0 }
    s.when d.counterEn fun s => s.cntAdd c d.counter d.add.toNat

/-- CORE_BUNDLE_RELEASE: an aborted, held bundle's slots and units are freed (R66, R72). The slots' other fields keep their
skeins' values (DESIGN CHOICE, log entry 87). -/
def execCoreBundleRelease (core : CoreId) (op : RegOp) (s : State) : Out :=
  let b := op.value.toNat % 64
  if isWide op.agent && covers op 5 0 && ((s.core core.toNat).bundle b).st == .aborted then
    .next (s.modCore core.toNat fun k =>
      let k := k.modBundle b fun x => { x with st := .free }
      let k := (k.slotsOf b).foldl Core.dropLoads k
      { k with skeins := k.skeins.map fun e =>
          if e.2.bundle.toNat == b && e.2.st != .free then (e.1, { e.2 with st := .free, cause := 0, excPc := 0 }) else e })
  else .next s

/-! ## Scheduling events (R50) -/

/-- YIELD_BACKOFF_END: the lanes whose 16 issue opportunities have passed leave back-off (R50; log entry 1). A lane's number
stands for the opportunities still to come; 1 means that none is. -/
def execYieldBackoffEnd (core : CoreId) (slot : SlotId) (s : State) : Out :=
  .next (s.modSkein core.toNat slot.toNat fun k => { k with backoff := k.backoff.filter fun e => decide (1 < e.2) })

/-- STALL_HINT_END: the lanes whose stall hint ends first are runnable again (R50; log entry 1). -/
def execStallHintEnd (core : CoreId) (slot : SlotId) (s : State) : Out :=
  .next (s.modSkein core.toNat slot.toNat fun k =>
    { k with stall := k.stall.filter fun e => k.stall.any fun f => decide (f.2 < e.2) })

/-! ## Knot watchdog, abort, debug (R61, R64, R79, R80) -/

/-- The threads of a skein that wait on a knot, with their KNOT.WAIT's program counter: those that arrived with KNOT.WAIT, and
those that a second KNOT.WAIT holds; a thread that KNOT.ARRIVE holds does not wait (R58, R61; DEDUCED, log entry 87). -/
def Skein.waitsAt (k : Skein) (n : Nat) : List (Nat × Dword) :=
  ((k.knotWait.filter fun w => w.2.1 == n).map fun w => (w.1, w.2.2))
    ++ ((k.knotHeld.filter fun w => w.2.1 == n && w.2.2.1).map fun w => (w.1, w.2.2.2))

/-- An expired knot watchdog: cause 0x0B in every skein of the bundle with a thread waiting on the knot (R61). Where its threads
wait at several KNOT.WAITs, the recorded program counter is the lowest-numbered one's (DESIGN CHOICE, log entry 87). -/
def State.knotExpiry (s : State) (c : Nat) (knot : BitVec 4) : State :=
  let k := s.core c
  let n := nth {} k.knots knot.toNat
  match n.owner, n.firstAt, n.pausedAt with
  | some b, some f, none =>
    if f.toNat + n.wdogUs.toNat * 1000 ≤ s.now ∧ (k.bundle b.toNat).aborting = false then
      let waits := (k.skeins.filter fun e => e.2.bundle == b && e.2.st == .running).map fun e => (e.1, e.2.waitsAt knot.toNat)
      s.each waits fun s e =>
        let lane := (lowest (e.2.map (·.1))).getD 0
        match e.2.find? fun w => w.1 == lane with
        | none => s
        | some w => s.raiseExc c e.1 0x0B (maskOf (e.2.map (·.1))) w.2 0 0
    else s
  | _, _, _ => s

/-- SKEIN_ABORT_STOP: another skein of an aborted bundle stops at its next issue boundary (R64). -/
def execSkeinAbortStop (core : CoreId) (slot : SlotId) (s : State) : Out :=
  .next (s.modSkein core.toNat slot.toNat fun k =>
    if k.abortPending && (k.st == .running || k.st == .loading) then { k with st := .abortHalted, abortPending := false } else k)

/-- Whether the debug policy permits debug halts in a partition (R415). -/
def State.haltAllowed (s : State) (part : Option Nat) : Bool :=
  match s.thm.otp.debug, part with
  | 0, _ => true
  | 1, some p => (s.part p).optin
  | _, _ => false

/-- A SKN_CTL write: refused with an absorbed record when the policy forbids it (R80), else acting on the STATE it names. -/
def State.sknCtl (s : State) (c slot : Nat) (op : RegOp) (f : State → State) : State :=
  if !isWide op.agent || !covers op 1 0 then s
  else if !s.haltAllowed (s.partOf c) then
    s.refusedWrite (unitId 1 c) (s.partByte c) (coreRegAddr c (0x40000 + slot * 0x1000 + 0x28)) (acctOf op.agent)
  else if op.value.toNat % 4 == 3 then s else f s

/-- SKN_HALT: STATE 2 becomes 5 at the issue boundary; the bundle's watchdogs pause (R61, R79, R80). -/
def execSknHalt (core : CoreId) (slot : SlotId) (op : RegOp) (s : State) : Out :=
  let c := core.toNat
  .next (s.sknCtl c slot.toNat op fun s =>
    let k := s.skein c slot.toNat
    if bit op.value 0 && k.st == .running then
      s.modCore c fun x => (x.modSkein slot.toNat fun y =>
        if y.abortPending then { y with st := .abortHalted, abortPending := false } else { y with st := .debugHalted }).pauseKnots k.bundle.toNat s.time.now
    else s)

/-- SKN_RESUME: STATE 5 becomes 2 (R79, R80). -/
def execSknResume (core : CoreId) (slot : SlotId) (op : RegOp) (s : State) : Out :=
  let c := core.toNat
  .next (s.sknCtl c slot.toNat op fun s =>
    let k := s.skein c slot.toNat
    if bit op.value 1 && k.st == .debugHalted then
      s.modCore c fun x => (x.modSkein slot.toNat fun y => { y with st := .running }).resumeKnots k.bundle.toNat s.time.now
    else s)

/-! ## Core reset (R67, R185, R199, R202, R284) -/

/-- The codebook table that a list of 256 entries gives. -/
def cbTable (l : List (BitVec 16)) : SMap (BitVec 16) := ((List.range 256).zip l).filter fun e => e.2 != 0

/-- Codebook slots and exponent base that firmware writes from the active image (R178). -/
def State.imageRegs (s : State) (c : Nat) : State :=
  match s.ob.image with
  | none => s
  | some i => s.modCore c fun k => { k with expBase := i.expBase, cb := cbTable i.codebooks }

/-- The descriptors of an engine discarded by a core reset (R202). -/
def State.resetEngine (s : State) (c e : Nat) : State :=
  let g := (s.core c).engine e
  let n := (g.queues.map fun q => q.entries.length).sum
  let s := s.modEngine c e fun g => { g with queues := g.queues.map fun q =>
    { q with entries := [], discarded := satAdd q.discarded q.entries.length } }
  s.record .contained .module (unitId 3 (c * 2 + e)) 0x03 0xFF (s.partByte c) (toBytes 16 0 ++ toBytes 4 n)

/-- A core reset up to its drain: skeins stop, slots, units and knots are free, queued operations and launches are discarded,
hoops and their registers return to reset (R67, R185, R284); stores that have begun go on with the store buffer. DESIGN CHOICE (log entry 87): the counts since reset (admissions,
REFUSED, LAST_REFUSAL) go on; SKEINS_M1 and LAUNCH_SEQ of the bundles stay, CAUSE and FIRST_SLOT read 0; the slots show their
reset values, LOST among them; the round robin starts anew at slot 0; a store that waited for an entry of the launch queue
enters it. -/
def State.coreReset (s : State) (c : Nat) : State :=
  let k := s.core c
  let launches := k.launchQ.length
  let s := s.modCore c fun k => { k with
    launchQ := k.launchWait.take 16, launchWait := k.launchWait.drop 16, head := none
    knots := List.replicate 16 {}
    bundles := (k.bundles.map fun e => (e.1, { e.2 with st := .free, aborting := false, cause := 0, firstSlot := 0 })).filter fun e => e.2 != {}
    skeins := []
    lastSlot := 63
    mq := k.mq.filter (·.started)
    lq := [], prefs := []
    hoops := k.hoops.map fun h => { h with split := false, subs := [{}, {}, {}, {}] }
    expBase := 0x5D00, cb := []
    draining := some (s.time.now, (k.mq.filter fun e => !e.started).length, launches)
    uninit := false }
  let s := ((s.resetEngine c 0).resetEngine c 1).imageRegs c
  if (s.island c).st == .gated then s else s.setIsland c .held

/-- CORE_RESET, by firmware (R284). -/
def execCoreReset (core : CoreId) (s : State) : Out := .next (s.coreReset core.toNat)

/-- The end of a core reset's 2 µs drain: the entries not yet written are discarded whole, with what is left of the started
stores, and the record names the numbers; the core's island is Held no longer, but where a fitting or quarantine holds it (R284, R477). -/
def State.endDrain (s : State) (c : Nat) (mops launches : Nat) : State :=
  let k := s.core c
  let n := k.sb.length
  let s := s.modCore c fun k => { k with mq := [], sb := [], unacked := [], draining := none }
  let s := s.when ((s.island c).st == .held && !(s.core c).held) fun s => s.setIsland c .running
  s.record .contained .module (unitId 1 c) 0x0E 3 (s.partByte c)
    (toBytes 16 0 ++ toBytes 4 mops ++ toBytes 4 n ++ toBytes 4 launches)

/-- CORE_RESET_DRAIN_EXPIRY: 2 µs after the reset (R284). -/
def execCoreResetDrainExpiry (core : CoreId) (t : Dword) (s : State) : Out :=
  let s := s.at_ t
  let c := core.toNat
  match (s.core c).draining with
  | some (start, mops, launches) => if start.toNat + 2000 ≤ s.now then .next (s.endDrain c mops launches) else .next s
  | none => .next s

end Sys2Proof.Machine
end

