-- ==== Sys2Proof/Machine/Hoops.lean ====
section
/-! DEFINITION. The hoops: tiles, block exponents, what a pass adds into a bank, the issue rule, the start rule, and the
completion of each operation (R141 to R185). -/

namespace Sys2Proof.Machine

/-! ## Shapes (R155 to R159, R176) -/

/-- Rows and columns of a plane and of a bank: 32, or 16 in split mode. -/
def Hoop.dim (h : Hoop) : Nat := if h.split then 16 else 32

/-- Bytes of an element: 2 for BF16 and FP16, else 1; K4 holds two codes in a byte. -/
def fmtWide (f : Nat) : Bool := f == 4 || f == 5

/-- Row bytes of a weight tile (R157, R176). -/
def wldRow (dim fmt : Nat) : Nat := if fmtWide fmt then 2 * dim else dim
/-- Row bytes of an activation tile. -/
def actRow (dim fmt : Nat) (wideK4 : Bool) : Nat := if fmtWide fmt then 2 * dim else if wideK4 then 2 * dim else dim
/-- Row bytes of a drained tile; the format is HAUX[2:0]. -/
def drainRow (dim fmt : Nat) : Nat := if fmt == 1 then 2 * dim else 4 * dim

/-- Pitch in bytes: HSTRIDE × 8, or the packed pitch. -/
def pitchOf (h : HSlot) (row : Nat) : Nat := if h.hstride == 0 then row else h.hstride.toNat * 8

/-- The address of the exponent byte of a scratch offset (R159). -/
def expAddr (base : Nat) (o : Nat) : Nat := base * 64 + o / 32

/-! ## Element values in a hoop (R122, R126, R143, R155) -/

/-- An activation element by HFMT, times its block scale; an exponent of 0xFF makes it NaN. -/
def actVal (fmt code : Nat) (x : Nat) : FV :=
  if fmt == 4 then fdec bf16 code
  else if fmt == 5 then fdec fp16 code
  else if x == 255 then .nan
  else (decElem (if fmt == 0 then 5 else if fmt == 1 then 3 else 4) code).scale ((x : Int) - 127)

/-- The scaled product of a weight and an activation, rounded once to FP32 (R126, R141, R150, R151). A cell that holds the
escape code adds 0 (R141). -/
def hoopProduct (p : Plane) (row col : Nat) (act : FV) : Nat :=
  let code := (tget (0#16) p.w (row * 64 + col)).toNat
  let fmt := p.fmt.toNat
  let x := (tget (0#8) p.exps (2 * row + (if fmt == 3 then col / 32 else 0))).toNat
  if fmt == 4 then fenc fp32 ((fdec bf16 code).mul act)
  else if fmt == 5 then fenc fp32 ((fdec fp16 code).mul act)
  else if x == 255 then fp32.nanCode
  else if fmt == 3 then
    if code == 15 then 0
    else if x == 0 then fenc fp32 ((FV.fin false 0 0).mul act)
    else fenc fp32 (((fdec fp16 (nth 0 p.cb code).toNat).mul act).scale ((x : Int) - 127))
  else fenc fp32 (((decElem (if fmt == 1 then 3 else 4) code).mul act).scale ((x : Int) - 127))

/-! ## Reading tiles -/

/-- The codes of a row of elements in scratch: two to a byte in K4 (R124). -/
def State.rowCodes (s : State) (c fmt o n : Nat) : List (BitVec 16) :=
  if fmtWide fmt then (List.range n).map fun i => BitVec.ofNat 16 (s.natAt (scratchAt c (o + 2 * i)) 2)
  else if fmt == 3 then (List.range n).map fun i =>
    let b := (s.byteAt (scratchAt c (o + i / 2))).toNat
    BitVec.ofNat 16 (if i % 2 == 0 then b % 16 else b / 16)
  else (List.range n).map fun i => BitVec.ofNat 16 (s.byteAt (scratchAt c (o + i))).toNat

/-- Exponent byte of the block at a scratch offset. -/
def State.expByte (s : State) (c base o : Nat) : Byte := s.byteAt (scratchAt c (expAddr base o))

/-- The activation values of one row, with their scales (none for an I8 row on an I8 plane, R152, nor for 16-bit rows). -/
def State.actVals (s : State) (c : Nat) (o : HOp) (n row : Nat) (scaled : Bool) : List FV :=
  let fmt := o.fmt.toNat
  let at_ := o.addr + row * o.pitch
  ((s.rowCodes c fmt at_ n).zip (List.range n)).map fun e =>
    actVal fmt e.1.toNat (if scaled then (s.expByte c o.expBase (at_ + e.2)).toNat else 127)

/-- The codes of an I8 row as integers. -/
def State.actInts (s : State) (c : Nat) (o : HOp) (n row : Nat) : List Int :=
  (s.rowCodes c 0 (o.addr + row * o.pitch) n).map fun v => signed 8 v.toNat

/-! ## What a pass adds (R148, R150 to R152, R155, R156, R173) -/

/-- The products of one bank cell of a floating pass: the plane's, then the patch unit's. `other` names the second bank of a
K4 pass across the grain. -/
def cellTerms (p : Plane) (dim : Nat) (cross other patch : Bool) (acts : List FV) (n : Nat) : List Nat :=
  let a (i : Nat) : FV := nth .nan acts i
  let col := if other then n + dim else n
  let base :=
    if cross then (List.range dim).map fun r => hoopProduct p r col (a r)
    else (List.range acts.length).map fun c => hoopProduct p n c (a c)
  let mine := if !patch then [] else p.patches.filter fun e =>
    decide (e.row < dim) && decide (e.col < 2 * dim) && (if cross then e.col == col else e.row == n)
  base ++ mine.map fun e => fenc fp32 ((fdec bf16 e.value.toNat).mul (a (if cross then e.row else e.col)))

/-- An element taken out of a list. -/
def pickOut (l : List Nat) (i : Nat) : Nat × List Nat := (nth 0 l i, dropAt l i)

/-- Terms added one by one with rounding, in an order that the manual does not promise: free choices from number `k` on
(R151, R153; log entry 3). -/
def sumFree (k : Nat) : Nat → List Nat → Nat → Nat
  | 0, _, acc => acc
  | f + 1, l, acc =>
    match l with
    | [] => acc
    | _ =>
      let r := pickOut l (Config.freeChoice k l.length % l.length)
      sumFree (k + 1) f r.2 (fAdd fp32 acc r.1)

/-- The cells of one bank after a pass. -/
def State.passBank (s : State) (c : Nat) (h : Hoop) (p : Plane) (o : HOp) (other : Bool) (b : Bank) : Bank :=
  let dim := h.dim
  let cross := o.kind == .passX
  let int := p.fmt == 0 && o.fmt == 0
  let n := if p.fmt == 3 && !cross then 2 * dim else dim
  let old (j i : Nat) : Word := if o.acc then tget 0 b.cells (j * 32 + i) else 0
  let cell (j i : Nat) : Word :=
    if o.rows < j then old j i
    else if int then
      let xs := s.actInts c o n j
      let w (r k : Nat) : Int := signed 8 (tget (0#16) p.w (r * 64 + k)).toNat
      old j i + BitVec.ofInt 32 (((List.range n).map fun k => (if cross then w k i else w i k) * nth 0 xs k).sum)
    else
      let acts := s.actVals c o n j (decide (o.fmt.toNat < 3))
      let terms := cellTerms p dim cross other (bit o.aux 0) acts i
      BitVec.ofNat 32 (sumFree (s.time.free + ((b2n other) * 1024 + j * 32 + i) * 256) 256 terms (old j i).toNat)
  { b with
    mode := if int then .int32 else .fp32
    cells := ((List.range dim).flatMap fun j => (List.range dim).map fun i => (j * 32 + i, cell j i)).filter fun e => e.2 != 0 }

/-- Free values that a pass may take. -/
def passFree : Nat := 2048 * 256

/-! ## Parts of a sub-hoop -/

def SubHoop.plane (x : SubHoop) (n : Nat) : Plane := if n == 0 then x.plane0 else x.plane1
def SubHoop.modPlane (x : SubHoop) (n : Nat) (f : Plane → Plane) : SubHoop :=
  if n == 0 then { x with plane0 := f x.plane0 } else { x with plane1 := f x.plane1 }
def SubHoop.bank (x : SubHoop) (n : Nat) : Bank := if n == 0 then x.bankA else x.bankB
def SubHoop.modBank (x : SubHoop) (n : Nat) (f : Bank → Bank) : SubHoop :=
  if n == 0 then { x with bankA := f x.bankA } else { x with bankB := f x.bankB }

/-- Operations issued and not complete, oldest first. -/
def SubHoop.open_ (x : SubHoop) : List HOp := x.running ++ x.queue

def HKind.isPass : HKind → Bool
  | .passG | .passX => true
  | _ => false

/-- The format of the last HWLD of a plane, issued or complete; none while the plane is empty with no HWLD issued. -/
def SubHoop.lastFmt (x : SubHoop) (n : Nat) : Option (BitVec 3) :=
  match (x.open_.filter fun o => o.kind == .wld && o.plane.toNat == n).getLast? with
  | some o => some o.fmt
  | none => if (x.plane n).st == .empty then none else some (x.plane n).fmt

/-- Whether an HWLD or HPATCH of a plane is incomplete (R164). -/
def SubHoop.loading (x : SubHoop) (n : Nat) : Bool :=
  x.open_.any fun o => (o.kind == .wld || o.kind == .patch) && o.plane.toNat == n

/-- Whether a bank drains or awaits a drain. -/
def SubHoop.drains (x : SubHoop) (n : Nat) : Bool := x.open_.any fun o => o.kind == .drain && o.bank.toNat == n

/-- The banks that an operation writes: a K4 pass across the grain writes both (R155). -/
def HOp.dests (o : HOp) : List Nat := if o.two then [o.bank.toNat, 1 - o.bank.toNat] else [o.bank.toNat]

/-- Whether an H-slot operation is a pass across the grain on a K4 plane: the plane's last HWLD tells (R155, R164). -/
def SubHoop.twoBanks (x : SubHoop) (h : HSlot) : Bool := h.hop == 3 && x.lastFmt h.plane.toNat == some 3

/-- The destination banks of a pass that would issue. -/
def SubHoop.destsOf (x : SubHoop) (h : HSlot) : List Nat :=
  if x.twoBanks h then [h.bank.toNat, 1 - h.bank.toNat] else [h.bank.toNat]

/-- Whether a pass that writes a bank is incomplete. -/
def SubHoop.passing (x : SubHoop) (n : Nat) : Bool :=
  x.open_.any fun o => o.kind.isPass && o.dests.contains n

/-- Patch entries of a patch record (R146, R176). -/
def patchOf (w : Nat) : Patch := { row := nbits w 10 6, col := nbits w 5 0, value := BitVec.ofNat 16 (w / 65536) }

/-! ## Feeder (R167) -/

/-- Whether a tile buffer still serves an instruction at some thread's program counter. -/
def Core.feedLive (k : Core) (f : Feed) : Bool :=
  let x := k.skein f.slot.toNat
  x.st == .running && (lanesOf (x.lanes &&& ~~~x.exited)).any fun l => tget 0 x.pc l == f.pc

/-- Tile buffers in use: rows read for an HPASS not issued, and passes that have not sent their rows. -/
def Core.feedsUsed (k : Core) (x : SubHoop) : Nat :=
  (x.feeder.filter fun f => k.feedLive f).length + (x.queue.filter fun o => o.kind.isPass).length

/-- The tile buffer that holds an HPASS's rows. -/
def SubHoop.feedOf (x : SubHoop) (slot : Nat) (pc : Dword) (addr : Nat) : Option Feed :=
  x.feeder.find? fun f => f.slot.toNat == slot && f.pc == pc && f.addr == addr

/-! ## Causes of an H-slot operation (R116 to R118, R158, R169, R183) -/

/-- Row bytes of the operation's tile; the plane's format tells a K4 pass along the grain. -/
def tileRow (x : SubHoop) (dim : Nat) (h : HSlot) : Nat :=
  match h.hop.toNat with
  | 1 => wldRow dim h.hfmt.toNat
  | 4 => drainRow dim (h.haux.toNat % 8)
  | op => actRow dim h.hfmt.toNat (op == 2 && x.lastFmt h.plane.toNat == some 3)

/-- Rows of the tile. -/
def tileRows (dim : Nat) (h : HSlot) : Nat := if h.hop == 4 then dim else h.rows.toNat + 1

/-- Whether an activation format goes with a plane's format (R116). -/
def accepts (plane act : Nat) : Bool :=
  if plane == 0 then act == 0 else if plane == 1 || plane == 2 then act == 1 || act == 2
  else if plane == 3 then decide (act ≤ 2) else act == plane

/-- Bytes from the start of a tile to its end: the pitches of all rows (R118); of a patch record, its length. -/
def tileSpan (x : SubHoop) (dim : Nat) (h : HSlot) : Nat :=
  if h.hop == 7 then 64 + 4 * (h.haux.toNat % 128) else tileRows dim h * pitchOf h (tileRow x dim h)

/-- Causes that hold whatever the operation waits for, and whether each records an address. -/
def hImmediate (hp : Hoop) (h : HSlot) (addr : Dword) : List Nat :=
  let x := hp.subAt h.sub.toNat
  let dim := hp.dim
  let row := tileRow x dim h
  let pitch := pitchOf h row
  let op := h.hop.toNat
  let plane := x.lastFmt h.plane.toNat
  let addressed := op ≤ 4 || op == 7
  let tiled := op ≤ 4
  let eight := (op == 1 && decide (h.hfmt.toNat ≤ 3)) || (decide (2 ≤ op ∧ op ≤ 3) && decide (h.hfmt.toNat ≤ 2))
  let shape :=
    hp.quar
      || (!hp.split && h.sub != 0)
      || (tiled && pitch < row)
      || (eight && h.hfmt != 3 && pitch % (if hp.split then 16 else 32) != 0)
      || (op == 1 && h.rows.toNat + 1 != dim)
      || (decide (2 ≤ op ∧ op ≤ 3) && (dim ≤ h.rows.toNat || (match plane with
            | none => true
            | some f => !accepts f.toNat h.hfmt.toNat || (bit h.haux 0 && f != 3))))
      || (op == 6 && (h.sub != 0 || bit h.haux 0 == hp.split))
      || (op == 7 && (plane != some 3 || (hp.split && 16 < h.haux.toNat % 128)))
  (if addressed && scratchLen < addr.toNat + tileSpan x dim h then [3] else [])
    ++ (if addressed && addr.toNat % 64 != 0 then [6] else [])
    ++ (if shape then [12] else [])

/-- Causes judged once the operation waits for nothing more, with the fault address of each. -/
def hLate (hp : Hoop) (h : HSlot) (addr : Dword) (feed : Option Feed) : List (Nat × Dword) :=
  let x := hp.subAt h.sub.toNat
  let op := h.hop.toNat
  let b := x.bank h.bank.toNat
  if decide (2 ≤ op ∧ op ≤ 3) then
    let p := x.plane h.plane.toNat
    let int := p.fmt == 0
    (match feed.bind (·.ue) with
      | some a => [(9, BitVec.ofNat 64 a)]
      | none => [])
      ++ (if p.st == .failed then [(9, BitVec.ofNat 64 p.tile)] else [])
      ++ (if h.acc == 1 && (x.destsOf h).any fun n => (x.bank n).mode == (if int then BankMode.fp32 else .int32) then [(12, 0)] else [])
  else if op == 4 then
    (if b.failed then [(9, addr)] else [])
      ++ (if (b.mode == .int32 && h.haux.toNat % 8 != 2) || (b.mode == .fp32 && h.haux.toNat % 8 == 2) then [(12, 0)] else [])
  else []

/-! ## Waiting (R163, R164, R168) -/

/-- The lowest code of what an H-slot operation waits for; 0 when for nothing. -/
def hWait (hp : Hoop) (h : HSlot) (resident : Bool) : Nat :=
  let x := hp.subAt h.sub.toNat
  let op := h.hop.toNat
  let pass := decide (2 ≤ op ∧ op ≤ 3)
  if 4 ≤ x.queue.length then 1
  else if pass && x.loading h.plane.toNat then 2
  else if pass && !resident then 3
  else if pass && (x.destsOf h).any x.drains then 4
  else if (op == 4 || op == 5) && x.drains h.bank.toNat then 4
  else if op == 5 && x.passing h.bank.toNat then 5
  else if op == 6 && hp.subs.any fun x => !x.open_.isEmpty then 6
  else 0

/-- What the H-slot of an issue does: it waits with a code, raises a cause with an address, or goes on. -/
inductive HAnswer where
  | wait (code : Nat)
  | raise (cause : Nat) (addr : Dword)
  | go
  deriving DecidableEq, Repr

/-- The H-slot's answer for a group (R84, R163 to R169). -/
def Core.hAnswer (k : Core) (slot : Nat) (pc : Dword) (h : HSlot) : HAnswer :=
  if h.hop == 0 then .go
  else
    let hp := k.hoop h.hoop.toNat
    let addr := hoopAddr (k.skein slot) h
    match lowest (hImmediate hp h addr) with
    | some c => .raise c addr
    | none =>
      let feed := (hp.subAt h.sub.toNat).feedOf slot pc addr.toNat
      match hWait hp h feed.isSome with
      | 0 =>
        let late := hLate hp h addr feed
        match lowest (late.map (·.1)) with
        | some c => .raise c (((late.find? fun e => e.1 == c).map (·.2)).getD 0)
        | none => .go
      | n => .wait n

/-! ## Issue -/

/-- The operation that an H-slot queues. -/
def Core.hOp (k : Core) (slot : Nat) (h : HSlot) : HOp :=
  let hp := k.hoop h.hoop.toNat
  let x := hp.subAt h.sub.toNat
  let kind : HKind := match h.hop.toNat with
    | 1 => .wld
    | 2 => .passG
    | 3 => .passX
    | 4 => .drain
    | _ => .patch
  { kind := kind, fmt := h.hfmt, bank := h.bank, plane := h.plane, acc := h.acc == 1, rows := h.rows.toNat
    addr := (hoopAddr (k.skein slot) h).toNat, pitch := pitchOf h (tileRow x hp.dim h), aux := h.haux, two := x.twoBanks h
    cb := if h.hop == 1 && h.hfmt == 3 then k.codebook (h.haux.toNat % 16) else []
    expBase := k.expBase.toNat, slot := BitVec.ofNat 6 slot, bundle := (k.skein slot).bundle, seq := hp.issued }

/-- A pass at issue settles its banks' modes, and without ACC makes a failed bank usable again (R170, R183). -/
def SubHoop.passIssued (x : SubHoop) (o : HOp) : SubHoop :=
  let int := x.lastFmt o.plane.toNat == some 0 && o.fmt == 0
  o.dests.foldl (fun x n => x.modBank n fun b =>
    { b with mode := if int then .int32 else .fp32, failed := b.failed && o.acc }) x

/-- The H-slot takes effect at issue (R163, R170, R175, R177). HSPLIT leaves LAST_WAIT, which R175 does not name. -/
def State.hIssue (s : State) (c slot : Nat) (pc : Dword) (h : HSlot) : State :=
  if h.hop == 0 then s
  else if h.hop == 5 then
    s.modSub c h.hoop.toNat h.sub.toNat fun x => x.modBank h.bank.toNat fun _ => {}
  else if h.hop == 6 then
    s.modHoop c h.hoop.toNat fun x => { x with split := bit h.haux 0, subs := x.subs.map fun y => { lastWait := y.lastWait } }
  else
    let o := (s.core c).hOp slot h
    let s := s.modHoop c h.hoop.toNat fun x => { x with issued := x.issued + 1 }
    s.modSub c h.hoop.toNat h.sub.toNat fun x =>
      let x := if o.kind.isPass then
          { x.passIssued o with feeder := x.feeder.filter fun f => !(f.slot.toNat == slot && f.pc == pc) }
        else x
      { x with queue := x.queue ++ [o] }

/-- A group that waits on its H-slot alone: LAST_WAIT shows the reason (R168). -/
def State.hWaited (s : State) (c hoop sub code : Nat) : State :=
  s.modSub c hoop sub fun x => { x with lastWait := BitVec.ofNat 6 code }

/-! ## HOOP_FEEDER_FILL (R167) -/

/-- The decoded HPASS at which a group of a skein stands, if its rows may be read: base not pending, no cause, a buffer free,
and not read yet. -/
def Core.fillable (k : Core) (slot : Nat) (pc : Dword) : Option HSlot :=
  let x := k.skein slot
  match x.decoded.find? fun d => d.1 == pc with
  | none => none
  | some (_, w) =>
    let h := w.h
    let hp := k.hoop h.hoop.toNat
    let sub := hp.subAt h.sub.toNat
    let addr := hoopAddr x h
    let live := x.st == .running && (lanesOf (x.lanes &&& ~~~x.exited)).any fun l => tget 0 x.pc l == pc
    if live && decide (2 ≤ h.hop.toNat ∧ h.hop.toNat ≤ 3) && (decodeCause x.units w).isNone
        && !((hInfo h).reads.any fun r => x.pend.any fun p => p.dest == r)
        && (hImmediate hp h addr).isEmpty && (sub.feedOf slot pc addr.toNat).isNone && k.feedsUsed sub < 2 then some h
    else none

/-- The record and counts of a hoop fault (R183, R536): 1 feeder data, 2 plane, 3 bank parity. -/
def State.hoopFault (s : State) (c hoop code addr : Nat) : State :=
  let s := s.record .contained .module (unitId 2 (c * 4 + hoop)) 0x04 code (s.partByte c) (toBytes 8 0 ++ toBytes 8 addr)
  let s := s.aonAdd (recHoop (c * 4 + hoop)) 2 1
  let l := s.time.now :: s.within24h ((s.core c).hoop hoop).faults
  let s := s.modHoop c hoop fun x => { x with faults := l }
  if 3 ≤ l.length then s.quarHoop c hoop 1 l.length else s

/-- A hoop fault that bytes of scratch caused: the record of the scratch beside its own (R183, R243). -/
def State.hoopScratchFault (s : State) (c hoop code addr place : Nat) : State :=
  (s.ueRead (scratchAt c place) (s.partByte c)).hoopFault c hoop code addr

/-- The offset of the first of n bytes of scratch that cannot be corrected. -/
def State.badOffset (s : State) (c o n : Nat) : Option Nat :=
  if s.damagedAt (scratchAt c o) n then some (o + (s.badAt (scratchAt c o) n - scratchAt c o)) else none

/-- The first row of a tile whose data, or whose exponent, cannot be corrected: the row's offset, and that of the bytes. -/
def State.badRow (s : State) (c addr pitch rows row : Nat) (exps : Option Nat) : Option (Nat × Nat) :=
  (List.range rows).findSome? fun r =>
    let o := addr + r * pitch
    ((s.badOffset c o row).orElse fun _ => exps.bind fun b => s.badOffset c (expAddr b o) ((row + 31) / 32)).map fun p => (o, p)

/-- The rows of an HPASS read into a free tile buffer, in slot order among the skeins whose rows may be read. -/
def State.feederFill (s : State) (c slot : Nat) (pc : Dword) : State :=
  let k := s.core c
  match k.fillable slot pc with
  | none => s
  | some h =>
    let before := (k.used.filter fun e => e.1 < slot).any fun e => e.2.decoded.any fun d =>
      match k.fillable e.1 d.1 with
      | some g => g.hoop == h.hoop && g.sub == h.sub
      | none => false
    if before then s
    else
      let hp := k.hoop h.hoop.toNat
      let x := hp.subAt h.sub.toNat
      let addr := (hoopAddr (k.skein slot) h).toNat
      let row := tileRow x hp.dim h
      let scaled := h.hfmt.toNat < 3 && !(h.hfmt == 0 && x.lastFmt h.plane.toNat == some 0)
      let ue := s.badRow c addr (pitchOf h row) (h.rows.toNat + 1) row (if scaled then some k.expBase.toNat else none)
      let s := s.modSub c h.hoop.toNat h.sub.toNat fun x =>
        { x with feeder := { slot := BitVec.ofNat 6 slot, pc := pc, addr := addr, ue := ue.map (·.1) }
            :: x.feeder.filter fun f => k.feedLive f && !(f.slot.toNat == slot && f.pc == pc) }
      match ue with
      | some a => s.hoopScratchFault c h.hoop.toNat 1 a.1 a.2
      | none => s

/-- HOOP_FEEDER_FILL. -/
def execHoopFeederFill (core : CoreId) (slot : SlotId) (pc : Dword) (s : State) : Out :=
  .next (s.feederFill core.toNat slot.toNat pc)

/-! ## HOOP_OP_START (R165) -/

/-- Whether the operation at a place of the queue may start, given the drains running and queued on the whole hoop, and
whether the M-slot queue still holds a store of its skein to scratch (R119). -/
def hoopMayStart (hp : Hoop) (x : SubHoop) (o : HOp) (earlier : List HOp) (stores : Bool) : Bool :=
  let pl := o.plane
  let noEarlier (p : HOp → Bool) : Bool := !earlier.any p
  let port (kind : HKind) : Bool := !(x.running.any fun r => r.kind == kind) && noEarlier fun e => e.kind == kind
  let passDone : Bool := noEarlier fun e => e.kind.isPass && e.plane == pl
  match o.kind with
  | .wld => port .wld && passDone && !stores
  | .patch => port .patch && passDone && noEarlier (fun e => e.kind == .wld && e.plane == pl) && !stores
  | .passG | .passX => noEarlier (fun e => e.kind.isPass) && !stores
  | .drain =>
    !(hp.subs.any fun y => y.running.any fun r => r.kind == .drain)
      && !(hp.subs.any fun y => y.queue.any fun e => e.kind == .drain && decide (e.seq < o.seq))
      && !((x.running ++ earlier).any fun e => e.kind.isPass && e.dests.contains o.bank.toNat)

/-- The plane as an HWLD loads it: codes, exponents of 8-bit rows, unit exponents of a K4 plane and no patches (R147,
R157, R159, R177). -/
def State.loadPlane (s : State) (c dim : Nat) (o : HOp) : Plane :=
  let fmt := o.fmt.toNat
  let n := if fmt == 3 then 2 * dim else dim
  let rows := List.range dim
  { st := .loading, fmt := o.fmt, cbSlot := if fmt == 3 then BitVec.ofNat 4 o.aux.toNat else 0, cb := o.cb
    w := (rows.flatMap fun r => ((List.range n).zip (s.rowCodes c fmt (o.addr + r * o.pitch) n)).map fun e => (r * 64 + e.1, e.2)).filter fun e => e.2 != 0
    exps := if fmt == 3 then (rows.flatMap fun r => [(2 * r, 0x7F#8), (2 * r + 1, 0x7F#8)])
      else if fmtWide fmt then []
      else (rows.map fun r => (2 * r, s.expByte c o.expBase (o.addr + r * o.pitch))).filter fun e => e.2 != 0
    patches := [], tile := o.addr }

/-- The exponents and patch entries of a patch record (R145, R146, R176). -/
def State.loadPatch (s : State) (c dim : Nat) (o : HOp) (p : Plane) : Plane :=
  let e (i : Nat) : Byte := s.byteAt (scratchAt c (o.addr + i))
  let exps := (List.range dim).flatMap fun r => if dim == 32 then [(2 * r, e (2 * r)), (2 * r + 1, e (2 * r + 1))] else [(2 * r, e r)]
  { p with
    exps := exps.filter fun x => x.2 != 0
    patches := (List.range (o.aux.toNat % 128)).map fun i => patchOf (s.natAt (scratchAt c (o.addr + 64 + 4 * i)) 4) }

/-- A queued operation moved to the running ones. -/
def SubHoop.started (x : SubHoop) (i : Nat) (o : HOp) : SubHoop :=
  { x with queue := dropAt x.queue i, running := x.running ++ [o] }

/-- What an operation does as it starts: a load reads its tile, and a pass sends its rows and forms its sums (log entry 16). -/
def State.hoopStart (s : State) (c h n i : Nat) (o : HOp) : State :=
  let hp := (s.core c).hoop h
  let dim := hp.dim
  let s0 := s
  match o.kind with
  | .wld =>
    let scaled := o.fmt.toNat < 3
    let bad := (s.badRow c o.addr o.pitch dim (wldRow dim o.fmt.toNat) (if scaled then some o.expBase else none)).map (·.2)
    let p := s.loadPlane c dim o
    let s := s.modSub c h n fun x => (x.started i o).modPlane o.plane.toNat fun _ => if bad.isSome then { p with st := .failed } else p
    match bad with
    | some a => s.hoopScratchFault c h 2 o.addr a
    | none => s
  | .patch =>
    let bad := s.badOffset c o.addr (64 + 4 * (o.aux.toNat % 128))
    let s := s.modSub c h n fun x => (x.started i o).modPlane o.plane.toNat fun p =>
      let p := s0.loadPatch c dim o p
      if bad.isSome then { p with st := .failed } else p
    match bad with
    | some a => s.hoopScratchFault c h 2 o.addr a
    | none => s
  | .passG | .passX =>
    let x := hp.subAt n
    let p := x.plane o.plane.toNat
    let s := s.modSub c h n fun x =>
      let x := (x.started i o).modBank o.bank.toNat fun b => s0.passBank c hp p o false b
      if o.two then x.modBank (1 - o.bank.toNat) fun b => s0.passBank c hp p o true b else x
    { s with time := { s.time with free := s.time.free + passFree } }
  | .drain => s.modSub c h n fun x => x.started i o

/-- Whether a store of a skein to its own core's scratch has not landed: one in the M-slot queue, with MSP = 1 or through a
virtual address of the scratch window, or one in the store buffer (R119, R167, R253). -/
def State.scratchStores (s : State) (c : Nat) (slot : SlotId) : Bool :=
  let k := s.core c
  let own (a : Nat) : Bool := isScratch a && scratchCore a == c
  (k.mq.any fun e => e.slot == slot && (match e.act with
    | .store _ accs _ => accs.any fun a => a.typ != 4 && own a.addr
    | _ => false))
    || k.sb.any fun e => e.slots.contains slot.toNat && lineModule e.line == s.myId && own (locOf (e.line * 128))

/-- HOOP_OP_START: the operation at place `index` of the queue starts, if its port and order allow (R165). -/
def execHoopOpStart (core : CoreId) (hoop sub : BitVec 2) (index : Nat) (s : State) : Out :=
  let c := core.toNat
  let hp := (s.core c).hoop hoop.toNat
  let x := hp.subAt sub.toNat
  match x.queue[index]? with
  | none => .next s
  | some o =>
    if hoopMayStart hp x o (x.queue.take index) (s.scratchStores c o.slot) then
      .next (s.hoopStart c hoop.toNat sub.toNat index o)
    else .next s

/-! ## Completions (R117, R161, R162, R171, R183, R184) -/

/-- The oldest running operation of a kind, and the sub-hoop without it. -/
def SubHoop.finish (x : SubHoop) (p : HKind → Bool) : Option (HOp × SubHoop) :=
  match findIdx (fun o => p o.kind) x.running with
  | none => none
  | some i => (x.running[i]?).map fun o => (o, { x with running := dropAt x.running i })

/-- A completed load: the plane counts as loaded, or as failed after uncorrectable data or a parity error. -/
def State.loadDone (s : State) (c h n : Nat) (kind : HKind) (parity : Bool) : State :=
  match (((s.core c).hoop h).subAt n).finish (fun k => k == kind) with
  | none => s
  | some (o, x) =>
    let failed := (x.plane o.plane.toNat).st == .failed
    let s := s.modSub c h n fun _ => x.modPlane o.plane.toNat fun p =>
      { p with st := if failed || parity then .failed else if kind == .wld then .loaded else p.st }
    if parity && !failed then s.hoopFault c h 2 o.addr else s

/-- HWLD_COMPLETE. -/
def execHwldComplete (core : CoreId) (hoop sub : BitVec 2) (parityFault : Bool) (s : State) : Out :=
  .next (s.loadDone core.toNat hoop.toNat sub.toNat .wld parityFault)

/-- HPATCH_COMPLETE. -/
def execHpatchComplete (core : CoreId) (hoop sub : BitVec 2) (parityFault : Bool) (s : State) : Out :=
  .next (s.loadDone core.toNat hoop.toNat sub.toNat .patch parityFault)

/-- A parity error of a bank: it enters state failed, with the record and counts of a fault (R183). -/
def State.bankParity (s : State) (c h n bank addr : Nat) : State :=
  (s.modSub c h n fun x => x.modBank bank fun b => { b with failed := true }).hoopFault c h 3 addr

/-- A parity error of a loaded plane or its patch entries: the plane enters state failed (R183). -/
def State.planeParity (s : State) (c h n plane : Nat) : State :=
  let p := (((s.core c).hoop h).subAt n).plane plane
  if p.st == .loaded then (s.modSub c h n fun x => x.modPlane plane fun p => { p with st := .failed }).hoopFault c h 2 p.tile else s

/-- HPASS_COMPLETE: the pass's last bank write; a parity error of a destination bank (bit 0 for A, bit 1 for B) makes it failed,
with a record for each (R161, R183). -/
def execHpassComplete (core : CoreId) (hoop sub : BitVec 2) (parityFault : BitVec 2) (s : State) : Out :=
  let c := core.toNat
  let h := hoop.toNat
  match (((s.core c).hoop h).subAt sub.toNat).finish HKind.isPass with
  | none => .next s
  | some (o, x) =>
    let s := (s.modSub c h sub.toNat fun _ => x).aonAdd (recHoop (c * 4 + h)) 1 1
    .next (s.each (o.dests.filter (bit parityFault)) fun s n => s.bankParity c h sub.toNat n o.addr)

/-- The bytes of a bank row in a drain format: 0 FP32, 1 BF16, 2 INT32 (R151, R171). -/
def Bank.rowBytes (b : Bank) (dim fmt j : Nat) : List Byte :=
  (List.range dim).flatMap fun n =>
    let w := if b.mode == .none then 0 else (tget 0 b.cells (j * 32 + n)).toNat
    if fmt == 1 then toBytes 2 (fenc bf16 (fdec fp32 w)) else toBytes 4 (if b.mode == .fp32 then fCanon fp32 w else w)

/-- HDRAIN_COMPLETE: the bank's rows stand in scratch, the bank is cleared when CLEAR is set, and the counter rises by the
bytes written (R117, R171). -/
def execHdrainComplete (core : CoreId) (hoop sub : BitVec 2) (s : State) : Out :=
  let c := core.toNat
  let h := hoop.toNat
  match (((s.core c).hoop h).subAt sub.toNat).finish (fun k => k == .drain) with
  | none => .next s
  | some (o, x) =>
    let dim := ((s.core c).hoop h).dim
    let fmt := o.aux.toNat % 8
    let b := x.bank o.bank.toNat
    let s := s.modSub c h sub.toNat fun _ => if bit o.aux 3 then x.modBank o.bank.toNat fun b => { b with mode := .none, cells := [] } else x
    let s := s.each (List.range dim) fun s j => s.poke (scratchAt c (o.addr + j * o.pitch)) (b.rowBytes dim fmt j)
    .next (s.when (bit o.aux 12) fun s => s.cntAdd c (nbits o.aux.toNat 11 4) (dim * drainRow dim fmt))

/-! ## HOOP_EXP_BASE and HOOP_CB (R181, R182) -/

/-- HOOP_EXP_BASE_WRITE: the exponent shadow base; a value above 0x5D00 is refused (R181). -/
def State.expBaseWrite (s : State) (c : Nat) (op : RegOp) : State :=
  if !covers op 20 6 then s
  else
    let v := nbits op.value.toNat 20 6
    if 0x5D00 < v then
      s.refusedWrite (unitId 1 c) (s.partByte c) (coreRegAddr c 0x80100) (acctOf op.agent)
    else s.modCore c fun k => { k with expBase := BitVec.ofNat 15 v }

def execHoopExpBaseWrite (core : CoreId) (op : RegOp) (s : State) : Out :=
  .next (if isWide op.agent then s.expBaseWrite core.toNat op else s)

/-- A write of HOOP_CB word w of a slot: the entries that the write covers (R182). -/
def State.cbWrite (s : State) (c slot w : Nat) (op : RegOp) : State :=
  s.modCore c fun k => { k with cb := (List.range 4).foldl (fun t i =>
    if covers op (16 * i + 15) (16 * i) then tset 0 t (slot * 16 + 4 * w + i) (bits op.value (16 * i + 15) (16 * i) |>.setWidth 16) else t) k.cb }

/-! ## HOOP_STATE (R170, R180) -/

def PlaneSt.code : PlaneSt → Nat
  | .empty => 0
  | .loading => 1
  | .loaded => 2
  | .failed => 3

def BankMode.code : BankMode → Nat
  | .none => 0
  | .fp32 => 1
  | .int32 => 2

/-- State of a bank as HOOP_STATE shows it. -/
def SubHoop.bankCode (x : SubHoop) (n : Nat) : Nat :=
  if (x.bank n).failed then 3 else if x.drains n then 2
  else if x.running.any (fun o => o.kind.isPass && o.dests.contains n) then 1 else 0

/-- HOOP_STATE of hoop h, sub-hoop n. -/
def Core.hoopState (k : Core) (h n : Nat) : Dword :=
  let hp := k.hoop h
  let common := fld (b2n hp.split) 63 ||| fld (b2n hp.quar) 62
  if n != 0 && !hp.split then common
  else
    let x := hp.subAt n
    common ||| fld x.queue.length 59 ||| fld x.plane1.cbSlot.toNat 52 ||| fld x.plane0.cbSlot.toNat 48
      ||| fld x.plane1.st.code 46 ||| fld x.plane1.fmt.toNat 43 ||| fld x.plane0.st.code 41 ||| fld x.plane0.fmt.toNat 38
      ||| fld (x.bankCode 1) 36 ||| fld (x.bankCode 0) 34 ||| fld x.bankB.mode.code 32 ||| fld x.bankA.mode.code 30
      ||| fld x.lastWait.toNat 24 ||| fld x.plane1.patches.length 16 ||| fld x.plane0.patches.length 8

end Sys2Proof.Machine
end

