-- ==== Sys2Proof/Machine/Shuttles.lean ====
section
/-! DEFINITION. Shuttles: the descriptor and its check, granules, faults and settlement, and stitch-counter writes (chapter 6).
What a shuttle sends to another module is in Remote. -/

namespace Sys2Proof.Machine

/-! ## The descriptor (R186, R187) -/

/-- The descriptor of 64 bytes. -/
def descOf (b : List Byte) : Desc :=
  let d (i n : Nat) : Nat := leAt b i n
  let ctrl := d 53 1
  { src := BitVec.ofNat 64 (d 0 8), dst := BitVec.ofNat 64 (d 8 8), xbytes := d 16 4, ycount := d 20 2, zcount := d 22 2
    systride := signed 32 (d 24 4), szstride := signed 32 (d 28 4), dystride := signed 32 (d 32 4), dzstride := signed 32 (d 36 4)
    dcnt := BitVec.ofNat 64 (d 40 8), add := BitVec.ofNat 32 (d 48 4), scnt := d 52 1
    skind := ctrl % 4, dkind := ctrl / 4 % 4, dmode := ctrl / 16 % 4, scntEn := bit (BitVec.ofNat 8 ctrl) 6
    tag := BitVec.ofNat 16 (d 54 2) }

/-- Fields of DCNT (R186). -/
def Desc.cnt (d : Desc) : Nat := nbits d.dcnt.toNat 7 0
def Desc.cntCore (d : Desc) : Nat := nbits d.dcnt.toNat 17 8
def Desc.cntModule (d : Desc) : Nat := nbits d.dcnt.toNat 34 18

/-- Bytes of the whole copy. -/
def Desc.total (d : Desc) : Nat := d.xbytes * d.ycount * d.zcount

/-- Start of a run on each side (R187), modulo 2^64; runs are numbered plane by plane. -/
def Desc.runSrc (d : Desc) (r : Nat) : Dword :=
  d.src + BitVec.ofInt 64 (((r / d.ycount : Nat) : Int) * d.szstride + ((r % d.ycount : Nat) : Int) * d.systride)
def Desc.runDst (d : Desc) (r : Nat) : Dword :=
  d.dst + BitVec.ofInt 64 (((r / d.ycount : Nat) : Int) * d.dzstride + ((r % d.ycount : Nat) : Int) * d.dystride)

/-- Whether every run from a start with two strides stays below the end of scratch: the outermost runs tell (R192 0x06). -/
def runsInScratch (start : Dword) (x y z : Nat) (sy sz : Int) : Bool :=
  let c (i j : Int) : Int := (start.toNat : Int) + i * sz + j * sy
  let ok (v : Int) : Bool := decide (0 ≤ v ∧ v + x ≤ scratchLen)
  let ly : Int := (y : Int) - 1
  let lz : Int := (z : Int) - 1
  ok (c 0 0) && ok (c 0 ly) && ok (c lz 0) && ok (c lz ly)

/-- The codes of R192 that a descriptor earns. -/
def State.descRefusals (s : State) (c part e : Nat) (b : List Byte) : List Nat :=
  let d := descOf b
  let k := s.core c
  let dstMod := if d.dkind == 2 then modOf d.dst.toNat else s.myId
  let mul8 (n : Int) : Bool := n % 8 == 0
  (if !zeroAt b 56 8 || 128 ≤ leAt b 53 1 || d.dcnt.toNat / 2 ^ 35 != 0 || 2 ≤ d.skind || d.dkind == 3 || d.dmode == 3 then [1] else [])
    ++ (if d.xbytes < 8 || 16777216 < d.xbytes || d.ycount == 0 || d.zcount == 0
          || (d.ycount == 1 && (d.systride != 0 || d.dystride != 0)) || (d.zcount == 1 && (d.szstride != 0 || d.dzstride != 0)) then [2] else [])
    ++ (if 2 ^ 32 < d.total then [3] else [])
    ++ (if !mul8 d.src.toNat || !mul8 d.dst.toNat || !mul8 d.xbytes || !mul8 d.systride || !mul8 d.szstride || !mul8 d.dystride
          || !mul8 d.dzstride then [4] else [])
    ++ (if (d.dkind == 2 && dstMod == s.myId) || (d.dmode == 0 && d.dcnt != 0) || (d.dmode != 0 && d.cntModule != dstMod) then [5] else [])
    ++ (if (d.skind == 1 && !runsInScratch d.src d.xbytes d.ycount d.zcount d.systride d.szstride)
          || (d.dkind == 1 && !runsInScratch d.dst d.xbytes d.ycount d.zcount d.dystride d.dzstride) then [6] else [])
    ++ (if d.dkind == 2 && !(s.part part).sendEn then [7] else [])
    ++ (if k.held || k.quar || (k.engine e).quar then [8] else [])

/-- A descriptor that SHTL has read: queued, or refused with a code (R191, R192). The refusal's exception is the caller's. -/
def State.shtlAccept (s : State) (c part e q : Nat) (b : List Byte) : State × Option Nat :=
  match lowest (s.descRefusals c part e b) with
  | some code =>
    ((s.modQueue c e q fun x => { x with refused := satAdd x.refused 1, lastRefusal := BitVec.ofNat 8 code }).aonAdd (recShuttle (c * 2 + e)) 3 1,
      some code)
  | none =>
    let used := (((s.core c).engine e).queue q).entries.map (·.slotNo)
    let no := ((List.range 16).find? fun n => !used.contains n).getD 0
    (s.modQueue c e q fun x => { x with entries := x.entries ++ [{ desc := descOf b, part := part, slotNo := no }] }, none)

/-! ## Granules (R190) -/

/-- A granule: destination and source addresses, and its bytes. -/
structure Gran where
  dst : Dword
  src : Dword
  len : Nat
  deriving DecidableEq, Repr

/-- Granules of a run. -/
def Desc.runGrans (d : Desc) (r : Nat) : Nat :=
  let a := (d.runDst r).toNat
  (a + d.xbytes - 1) / 64 + 1 - a / 64

/-- Granule k of a run. -/
def Desc.granIn (d : Desc) (r k : Nat) : Gran :=
  let a := (d.runDst r).toNat
  let lo := if k == 0 then a else (a / 64 + k) * 64
  let hi := min (a + d.xbytes) ((a / 64 + k + 1) * 64)
  { dst := BitVec.ofNat 64 lo, src := d.runSrc r + BitVec.ofNat 64 (lo - a), len := hi - lo }

/-- Granule number g of a descriptor, from run r on; none beyond the last. -/
def Desc.granFrom (d : Desc) : Nat → Nat → Nat → Option Gran
  | 0, _, _ => none
  | f + 1, r, g => if g < d.runGrans r then some (d.granIn r g) else d.granFrom f (r + 1) (g - d.runGrans r)

def Desc.gran (d : Desc) (g : Nat) : Option Gran := d.granFrom (d.ycount * d.zcount) 0 g

/-- Number of granules, from run r on. -/
def Desc.gransFrom (d : Desc) : Nat → Nat → Nat
  | 0, _ => 0
  | f + 1, r => d.runGrans r + d.gransFrom f (r + 1)

def Desc.grans (d : Desc) : Nat := d.gransFrom (d.ycount * d.zcount) 0

/-- Bytes of a list of granules. -/
def Desc.bytesOf (d : Desc) (l : List Nat) : Nat := (l.map fun g => match d.gran g with
  | some x => x.len
  | none => 0).sum

/-! ## Reading and checking a granule (R188, R200) -/

/-- Where an access of a shuttle lies on this module: local address, key, TYPE; or a fault code and its address. `n` is the number of
its free choice of a translation (R218). -/
def State.shuttleAt (s : State) (c part kind : Nat) (va : Dword) (store : Bool) (n : Nat) : (Nat × Dword) ⊕ (Nat × Nat × Nat) :=
  let a := va.toNat
  if kind == 1 then .inr (scratchAt c a, 0, 3)
  else
    match s.coreLeaf c part a n with
    | none => .inl (0x10, va)
    | some l =>
      let g := l.at_ a
      if modOf g != s.myId then .inl (0x11, va)
      else
        match s.place (locOf g) with
        | .stack | .lpd => if store && !l.w then .inl (0x12, va) else .inr (locOf g, l.key, l.typ)
        | .window _ => if store && !l.w then .inl (0x12, va) else .inr (locOf g, 0, 1)
        | _ => .inl (0x11, va)

/-- The number of the free choice of a granule's access: word 0 to 7 of its source, 8 for its destination. Granules and commands
never share one (R218; log entry 14). -/
def State.shuttleChoice (s : State) (granule word : Nat) : Nat := (s.time.free + 1) * 2 ^ 40 + granule * 16 + word

/-- Address of word i of a granule's source. -/
def Gran.word (g : Gran) (i : Nat) : Dword := g.src + BitVec.ofNat 64 (8 * i)

/-- The places of the source words of granule n, or the first fault: code, address, and for uncorrectable data (0x13) where it stands
(R200). -/
def State.granSrc (s : State) (c : Nat) (x : ShEntry) (n : Nat) (g : Gran) : Nat → (Nat × Dword × Nat) ⊕ List (Nat × Nat × Nat)
  | 0 => .inr []
  | i + 1 =>
    match s.granSrc c x n g i with
    | .inl f => .inl f
    | .inr l =>
      match s.shuttleAt c x.part x.desc.skind (g.word i) false (s.shuttleChoice n i) with
      | .inl f => .inl (f.1, f.2, 0)
      | .inr p => if s.damagedAt p.1 8 then .inl (0x13, g.word i, p.1) else .inr (l ++ [p])

/-- The bytes of 8-byte words at some places. -/
def State.wordsAt (s : State) (l : List (Nat × Nat × Nat)) : List Byte := l.flatMap fun p => s.keyBytes p.2.1 p.1 8

/-- The place of a granule's destination, which lies within one page; for DKIND 2, a fault where a remote write does not reach, or the
module is dead (R188, R200). -/
def State.granDst (s : State) (c : Nat) (x : ShEntry) (n : Nat) (g : Gran) : (Nat × Dword) ⊕ (Nat × Nat × Nat) :=
  if x.desc.dkind == 2 then
    if s.wlk.dead.contains (modOf g.dst.toNat) then .inl (0x15, g.dst)
    else if remoteStorable g.dst.toNat then .inr (0, 0, 0) else .inl (0x11, g.dst)
  else s.shuttleAt c x.part x.desc.dkind g.dst true (s.shuttleChoice n 8)

/-- What granule n comes to as it is issued: a fault, the lower code of its source's and its destination's, or the places of its
source words and of its destination. -/
def State.granPlan (s : State) (c : Nat) (x : ShEntry) (n : Nat) (g : Gran) :
    (Nat × Dword × Nat) ⊕ (List (Nat × Nat × Nat) × (Nat × Nat × Nat)) :=
  match s.granSrc c x n g (g.len / 8), s.granDst c x n g with
  | .inl f, .inl h => .inl (if h.1 < f.1 then (h.1, h.2, 0) else f)
  | .inl f, .inr _ => .inl f
  | .inr _, .inl h => .inl (h.1, h.2, 0)
  | .inr l, .inr p => .inr (l, p)

/-- The translations that granule n uses: they stay cached (R218). -/
def State.granLeaves (s : State) (c : Nat) (x : ShEntry) (n : Nat) (g : Gran) : List (Nat × Leaf) :=
  let at_ (va : Dword) (k : Nat) : Option (Nat × Leaf) := (s.coreLeaf c x.part va.toNat k).map fun l => (va.toNat, l)
  (if x.desc.skind == 0 then (List.range (g.len / 8)).filterMap fun i => at_ (g.word i) (s.shuttleChoice n i) else [])
    ++ (if x.desc.dkind == 0 then (at_ g.dst (s.shuttleChoice n 8)).toList else [])

/-! ## Progress of a descriptor -/

/-- An entry of a queue changed. -/
def State.modEntryAt (s : State) (c e q i : Nat) (f : ShEntry → ShEntry) : State :=
  s.modQueue c e q fun x => { x with entries := upd x.entries i f }

/-- Whether an entry has issued its last request, or will issue none. -/
def ShEntry.allIssued (x : ShEntry) : Bool := x.started && (x.fault.isSome || x.desc.grans ≤ x.issued)

/-- SHUTTLE_DESCRIPTOR_START: the oldest descriptor that has not started, once the one before it has issued its last request
(R193, R262). -/
def execShuttleDescriptorStart (core : CoreId) (engine : BitVec 1) (queue : BitVec 2) (s : State) : Out :=
  let q := ((s.core core.toNat).engine engine.toNat).queue queue.toNat
  match findIdx (fun x => !x.started) q.entries with
  | some i =>
    if (q.entries.take i).all ShEntry.allIssued then
      .next (s.modEntryAt core.toNat engine.toNat queue.toNat i fun x => { x with started := true })
    else .next s
  | none => .next s

/-- The bytes of a granule counted in BYTES mode on this module (R189). -/
def State.granCount (s : State) (d : Desc) (n : Nat) : State :=
  s.when (d.dmode == 1) fun s => s.cntAdd d.cntCore d.cnt n

/-- Whether every granule of an entry that was issued has landed, or was answered (R200, R262). -/
def ShEntry.settled (x : ShEntry) : Bool := x.out.isEmpty && x.landed.length + x.refused.length == x.issued

/-- Whether every byte of a descriptor has landed, and was acknowledged where it went to another module. -/
def ShEntry.complete (x : ShEntry) : Bool :=
  x.started && x.fault.isNone && x.issued == x.desc.grans && x.refused.isEmpty && x.landed.length == x.issued

/-- Whether an entry keeps no later completion of its queue waiting: its bytes have landed and any addition in DONE mode is made, or
its fault is settled (R194, R262). -/
def ShEntry.cleared (x : ShEntry) : Bool := x.done || (x.desc.dmode != 2 && x.complete)

/-- Whether nothing of an entry is still to come: its counters are raised, and every packet it sent is answered. -/
def ShEntry.over (x : ShEntry) : Bool :=
  x.out.isEmpty && ((x.done && x.fault.isSome) || (x.srcDone && (x.desc.dmode != 2 || x.done)))

/-- The entries of a queue. -/
def State.entriesAt (s : State) (c e q : Nat) : List ShEntry := (((s.core c).engine e).queue q).entries

/-- An entry leaves its queue. -/
def State.dropEntry (s : State) (c e q i : Nat) : State := s.modQueue c e q fun x => { x with entries := dropAt x.entries i }

/-- An entry changed; it leaves once nothing of it is to come. -/
def State.putEntry (s : State) (c e q i : Nat) (x : ShEntry) : State :=
  if x.over then s.dropEntry c e q i else s.modEntryAt c e q i fun _ => x

/-- SHUTTLE_SOURCE_COMPLETE: every byte has landed and been acknowledged, and SCNT rises by ADD (R189). -/
def execShuttleSourceComplete (core : CoreId) (engine : BitVec 1) (queue : BitVec 2) (s : State) : Out :=
  let c := core.toNat
  let es := s.entriesAt c engine.toNat queue.toNat
  match findIdx (fun x => x.complete && !x.srcDone) es with
  | some i =>
    match es[i]? with
    | some x =>
      .next ((s.putEntry c engine.toNat queue.toNat i { x with srcDone := true }).when x.desc.scntEn fun s =>
        s.cntAdd c x.desc.scnt x.desc.add.toNat)
    | none => .next s
  | none => .next s

/-! ## Fault settlement (R200, R201) -/

/-- The bytes that a faulted descriptor has not delivered. -/
def ShEntry.undelivered (x : ShEntry) : Nat := x.desc.total - x.desc.bytesOf x.landed

/-- What settling adds to the destination counter: the bytes not delivered, ADD, or nothing. -/
def ShEntry.settleAdd (x : ShEntry) : Nat :=
  if x.desc.dmode == 1 then x.undelivered else if x.desc.dmode == 2 then x.desc.add.toNat else 0

/-- The engine's share of a settlement: source counter, SHT_FAULT, FAULTS, the record. The entry leaves its queue, but for one
whose completion packet waits for its answer (R200, R201, R428). -/
def State.settleShuttle (s : State) (c e q i : Nat) (x : ShEntry) (code : Nat) (a : Dword) (waits : Bool) : State :=
  let s := s.when x.desc.scntEn fun s => s.cntAdd c x.desc.scnt x.desc.add.toNat
  let s := if waits then s.modEntryAt c e q i fun x => { x with done := true, out := [x.desc.grans], outAt := [s.time.now] } else s.dropEntry c e q i
  let s := s.modQueue c e q fun y => { y with faults := satAdd y.faults 1 }
  let s := s.modEngine c e fun g => { g with
    faultTag := x.desc.tag, faultCode := BitVec.ofNat 8 code, faultQueue := BitVec.ofNat 2 q, faultAddr := a }
  let s := s.aonAdd (recShuttle (c * 2 + e)) 2 1
  s.record .contained .module (unitId 3 (c * 2 + e)) 0x03 code (s.partByte c)
    (toBytes 1 q ++ toBytes 1 0 ++ toBytes 2 x.desc.tag.toNat ++ toBytes 4 0 ++ toBytes 8 a.toNat)

/-! ## Counter registers (R204, R205) -/

/-- SHT_CNT_WRITE: a write sets the value; of a 32-bit write, no field lies in its half (R8, R204). -/
def execShtCntWrite (core : CoreId) (n : BitVec 8) (op : RegOp) (s : State) : Out :=
  .next (if !isWide op.agent then s
    else if covers op 63 0 then s.cntSet core.toNat n.toNat op.value
    else s.spanning op (coreRegAddr core.toNat (0xC0000 + 8 * n.toNat)))

/-- SHT_CNT_FAULT word w: write 1 to clear (R205). A 32-bit write covers no whole field, since FAULT is 64 bits wide. -/
def State.cntFaultClear (s : State) (c w : Nat) (op : RegOp) : State :=
  if covers op 63 0 then
    s.modCore c fun k => { k with cntFault := k.cntFault &&& ~~~(BitVec.ofNat 256 (op.value.toNat * 2 ^ (64 * w))) }
  else s.spanning op (coreRegAddr c (0xC0800 + 8 * w))

/-- SWAIT_SATISFIED: the threads whose wait has been satisfied become runnable (R197). -/
def execSwaitSatisfied (core : CoreId) (slot : SlotId) (s : State) : Out :=
  .next (s.modSkein core.toNat slot.toNat fun k => { k with waits := k.waits.filter fun w => !w.satisfied })

/-- SHT_QSTAT, SHT_FAULT (R206, R207). -/
def ShQueue.stat (q : ShQueue) : Dword :=
  fld q.discarded.toNat 48 ||| fld q.faults.toNat 32 ||| fld q.refused.toNat 16 ||| fld q.lastRefusal.toNat 8 ||| fld q.entries.length 0
def Engine.faultReg (g : Engine) : Dword := fld g.faultTag.toNat 48 ||| fld g.faultCode.toNat 40 ||| fld g.faultQueue.toNat 38

end Sys2Proof.Machine
end

