-- ==== Sys2Proof/Machine/Packets.lean ====
section
/-! DEFINITION. Packets: fields, routes, channels and credits, the send queue and retry buffer of a port, and the mark of a
dead module (R422, R423, R427 to R431, R434, R435). -/

namespace Sys2Proof.Machine

/-! ## Fields -/

/-- The units of a packet: the header and what follows. -/
def unitsOf (p : Packet) : Nat := 1 + (p.body.length + 15) / 16

/-- Bits [79:0] of the header as one number: seam packets use them in another way (R457). -/
def low80 (p : Packet) : Nat :=
  p.gaddr.toNat * 2 ^ 39 + p.core.toNat * 2 ^ 29 + p.cnt.toNat * 2 ^ 21 + p.cen.toNat * 2 ^ 20 + p.rsv19.toNat * 2 ^ 19 + p.etag.toNat

/-- A packet with bits [79:0] given. -/
def withLow80 (p : Packet) (v : Nat) : Packet :=
  { p with
    gaddr := BitVec.ofNat 41 (v / 2 ^ 39), core := BitVec.ofNat 10 (v / 2 ^ 29), cnt := BitVec.ofNat 8 (v / 2 ^ 21)
    cen := BitVec.ofNat 1 (v / 2 ^ 20), rsv19 := BitVec.ofNat 1 (v / 2 ^ 19), etag := BitVec.ofNat 19 v }

/-- N of an ACK or REFUSE: bits [54:39] (R427). -/
def ackN (p : Packet) : Nat := p.gaddr.toNat % 65536

/-- First channel of a packet's pair by KIND (R431). -/
def vcOf (kind : Nat) : Nat := if kind == 1 || kind == 2 then 0 else if kind ≤ 8 then 2 else 4

/-- ETAG of the list writes of the Order Book engine, for which R427 names no requester: a store-buffer entry of core 0 (DESIGN CHOICE,
log entry 19). -/
def listTag : BitVec 19 := 31

/-- A packet of this module. -/
def State.newPacket (s : State) (kind dst part : Nat) : Packet :=
  { kind := BitVec.ofNat 4 kind, vc := BitVec.ofNat 3 (vcOf kind), dir := 0, msk := 0, dst := BitVec.ofNat 17 dst
    src := s.wlk.moduleId, part := BitVec.ofNat 4 part, gaddr := 0, core := 0, cnt := 0, cen := 0, etag := 0 }

/-- The answer to a packet: KIND 3 ACK or 4 REFUSE, with N and the reason in CNT (R427, R428). -/
def State.answerTo (s : State) (p : Packet) (kind n reason : Nat) : Packet :=
  { s.newPacket kind p.src.toNat p.part.toNat with gaddr := BitVec.ofNat 41 n, cnt := BitVec.ofNat 8 reason, etag := p.etag }

/-! ## Shape and routes (R429, R430) -/

/-- Ld of a dimension. -/
def WlkSt.len (w : WlkSt) (d : Nat) : Nat := nth 0 w.shape d
/-- Modules of the shape. -/
def WlkSt.modules (w : WlkSt) : Nat := 2 ^ w.shape.sum
/-- Coordinate d of a module ID. -/
def WlkSt.coord (w : WlkSt) (id d : Nat) : Nat := id / 2 ^ (w.shape.take d).sum % 2 ^ w.len d
/-- A module ID with coordinate d replaced. -/
def WlkSt.withCoord (w : WlkSt) (id d v : Nat) : Nat := id - w.coord id d * 2 ^ (w.shape.take d).sum + v * 2 ^ (w.shape.take d).sum

/-- The port of a dimension and direction, and the dimension of a port. -/
def portOf (d : Nat) (minus : Bool) : Nat := 2 * d + b2n (!minus)
def dimOf (port : Nat) : Nat := port / 2

/-- The module ID at the far end of a port, and the port there (R429, R432). -/
def WlkSt.farEnd (w : WlkSt) (port : Nat) : Nat × Nat :=
  let d := dimOf port
  let s := 2 ^ w.len d
  let a := w.coord w.moduleId.toNat d
  let b := if port % 2 == 1 then (a + 1) % s else (a + s - 1) % s
  (w.withCoord w.moduleId.toNat d b, port / 2 * 2 + (1 - port % 2))

/-- Whether packets may take a port: it is up, or retrains and holds them (R424). -/
def State.usable (s : State) (port : Nat) : Bool := (s.port port).st == .up || (s.port port).st == .retraining

/-- A route: this module, a port with the DIR to carry, or none. -/
inductive Route where
  | here
  | out (port : Nat) (dir : BitVec 1)
  | unreachable
  deriving DecidableEq, Repr

/-- The route of a packet that arrived on a port, or was made here (R430). -/
def State.route (s : State) (p : Packet) (arrived : Option Nat) : Route :=
  let w := s.wlk
  match (List.range 6).find? fun d => w.coord s.myId d != w.coord p.dst.toNat d with
  | none => .here
  | some d =>
    let sz := 2 ^ w.len d
    let a := w.coord s.myId d
    let b := w.coord p.dst.toNat d
    let f := (b + sz - a) % sz
    let minus := if arrived.map dimOf == some d then p.dir == 1 else decide (sz - f < f)
    let pick (m : Bool) : Route := .out (portOf d m) (BitVec.ofNat 1 (b2n m))
    if s.usable (portOf d minus) then pick minus
    else if s.usable (portOf d (!minus)) then pick (!minus) else .unreachable

/-- The channel of a packet on the port it leaves by: the even one of its pair as it enters a dimension, the odd one once it
has crossed that dimension's dateline, which one that came in by the minus port did at coordinate 0 (R431). -/
def State.channelOut (s : State) (p : Packet) (arrived : Option Nat) (port : Nat) : BitVec 3 :=
  let even := p.vc.toNat / 2 * 2
  match arrived with
  | some q =>
    let d := dimOf port
    if dimOf q == d then
      let a := s.wlk.coord s.myId d
      let crossed := if q % 2 == 0 then a == 0 else a + 1 == 2 ^ s.wlk.len d
      BitVec.ofNat 3 (if crossed then even + 1 else p.vc.toNat)
    else BitVec.ofNat 3 even
  | none => BitVec.ofNat 3 even

/-- The channel of a packet that waited at a port and takes another: within the dimension it keeps the one it has (R431). -/
def channelAgain (p : Packet) (held port : Nat) : BitVec 3 := if dimOf port == dimOf held then p.vc else BitVec.ofNat 3 (p.vc.toNat / 2 * 2)

/-! ## Sending -/

/-- The largest run of queued packets that one block takes, each while credits last on its channel: packets taken, packets
left, credits left. A packet whose channel has waited stays behind (R431). -/
def takeBlock : Nat → List Nat → List Nat → List Packet → List Packet × List Packet × List Nat
  | _, cr, _, [] => ([], [], cr)
  | room, cr, stuck, p :: r =>
    let n := unitsOf p
    let v := p.vc.toNat
    if n ≤ room && n ≤ nth 0 cr v && !stuck.contains v then
      let x := takeBlock (room - n) (upd cr v fun c => c - n) stuck r
      (p :: x.1, x.2.1, x.2.2)
    else
      let x := takeBlock room cr (v :: stuck) r
      (x.1, p :: x.2.1, x.2.2)

/-- The channel whose credits the next block returns: the first with units owed. -/
def Port.owedVc (p : Port) : Nat := (findIdx (fun n => n != 0) p.owed).getD 0

/-- A block of a port with the latest ACK and the credits it returns (R422, R423). -/
def Port.block (p : Port) (bkind : Nat) (seq : BitVec 12) (payload : List Byte) : Block :=
  let v := p.owedVc
  { bkind := BitVec.ofNat 4 bkind, seq := seq, ack := p.expect - 1, ackv := p.accepted, nak := false
    cvc := BitVec.ofNat 3 v, credits := BitVec.ofNat 11 (min (nth 0 p.owed v) 2047), payload := payload }

/-- A block sent with its CRC: its credits are returned. -/
def Port.send (p : Port) (b : Block) : Port :=
  { p with sent := b.withCrc :: p.sent, owed := upd p.owed b.cvc.toNat fun n => n - b.credits.toNat }

/-- Queued packets sent as data blocks, while the port is up, the retry buffer has room and credits last (R423, R431). -/
def State.flushPort (s : State) (port : Nat) : Nat → State
  | 0 => s
  | f + 1 =>
    let p := s.port port
    if p.st != .up || 512 ≤ p.retry.length then s
    else
      match takeBlock 15 p.credits [] p.queue with
      | ([], _, _) => s
      | (ps, rest, cr) =>
        let s := s.modPort port fun p =>
          { p.send (p.block 1 p.nextSeq (ps.flatMap packetBytes)) with
            queue := rest, credits := cr, nextSeq := p.nextSeq + 1, seqSent := min 4096 (p.seqSent + 1)
            lastBlockAt := if p.retry.isEmpty then s.time.now else p.lastBlockAt
            retry := p.retry ++ [{ seq := p.nextSeq, packets := ps, resends := 0 }] }
        (s.aonAdd (recPort port) 1 1).flushPort port f

/-- A packet queued at a port and sent as far as the port allows. -/
def State.enqueue (s : State) (port : Nat) (p : Packet) : State :=
  (s.modPort port fun x => { x with queue := x.queue ++ [p] }).flushPort port ((s.port port).queue.length + 1)

/-- An idle block: it carries the latest ACK, a NAK, and credits (R422, R423). -/
def State.sendIdle (s : State) (port : Nat) (nak : Bool) : State :=
  s.modPort port fun p => p.send { p.block 0 0 [] with nak := nak }

/-- A control block sent (R423, R426). -/
def State.sendCtl (s : State) (port : Nat) (content : List Byte) : State := s.modPort port fun p => p.send (p.block 2 0 content)

/-- A module declared dead or named by a DEAD: marked once, vector 4, and DEAD on every other port that is up. What the mark
does to stores, shuttles, the group and reductions follows in the same command (R434, R435). -/
def State.markDead (s : State) (id : Nat) (arrived : Option Nat) : State :=
  if s.wlk.dead.contains id then s
  else
    let s := s.modWlk fun w => { w with
      dead := id :: w.dead, deadPending := w.deadPending ++ [id], deadCount := satAdd w.deadCount 1, deadLast := BitVec.ofNat 17 id
      deadTimes := s.time.now :: w.deadTimes, listOut := w.listOut.filter (· != id) }
    let s := s.msix 0 4
    let ports := (List.range 12).filter fun q => (s.port q).st == .up && some q != arrived
    s.each ports fun s q =>
      let far := (s.port q).peer.toNat
      s.enqueue q { s.newPacket 6 far 0 with body := toBytes 16 id, dir := BitVec.ofNat 1 (1 - q % 2) }

/-- A seam queue's packet: HOLD_NS from now (R458). -/
def State.seamEntry (s : State) (p : Packet) : SeamQ := { p := p, holdUntil := s.time.now + BitVec.ofNat 64 s.seam.holdNs.toNat }

end Sys2Proof.Machine
end

