-- ==== Sys2Proof/Machine/Status.lean ====
section
/-! DEFINITION. Live commands and their status words (R373, R375, R376). -/

namespace Sys2Proof.Machine

/-! ## Functions that answer (R360, R380, R383) -/

/-- The enrolled owner's key hash (R400). -/
def Otp.owner (o : Otp) : Option (BitVec 512) :=
  match o.owners.getLast? with
  | none => none
  | some k => if k == BitVec.allOnes 512 then none else some k

/-- SHA-512 of an uncompressed P-521 public key (R400). -/
def keyHash (x y : Nat) : BitVec 512 := sha512 (0x04 :: (beBytes 66 x ++ beBytes 66 y))

/-- Whether a digest is signed under one of the keys whose hashes are given (R409, R411). -/
def signedBy (digest : BitVec 512) (sig : Option EcSig) (keys : List (BitVec 512)) : Bool :=
  match sig with
  | none => false
  | some g => keys.contains (keyHash g.x g.y) && ecdsaOk g.x g.y (beNat (toBytes 64 digest.toNat)) g.r g.s

/-- A bit of the owner policy: 0 while no owner is enrolled (R401). -/
def State.policyBit (s : State) (i : Nat) : Bool := s.thm.otp.owner.isSome && s.thm.flash.policy.getLsbD i

/-- Whether a function answers requests: enabled, and not in D3hot. -/
def State.fnUp (s : State) (fn : Nat) : Bool := (s.fn fn).enabled && !(s.fn fn).d3hot

/-- Whether IDE stream k covers a function and is in the Secure state; stream 0 is the link stream. -/
def State.ideSecure (s : State) (k fn : Nat) : Bool :=
  nth .insecure s.hif.ide k == .secure && (k == 0 || (decide (k ≤ 4) && Config.ideCovers k fn))

/-- Whether a function is held back for want of an IDE stream in the Secure state (R380). -/
def State.ideHeld (s : State) (fn : Nat) : Bool := s.policyBit 2 && !(List.range 5).any fun k => s.ideSecure k fn

/-- Whether a packet to a function comes outside a Secure stream that covers it, where the policy requires IDE (R380). -/
def State.tlpHeld (s : State) (fn : Nat) (t : Tlp) : Bool :=
  s.policyBit 2 && !(match t.stream with
    | some k => s.ideSecure k fn
    | none => false)

/-- Whether an agent's register write reaches the block: a host function's does while the function answers and is not held back. -/
def State.reaches (s : State) : Agent → Bool
  | .pf0 => s.fnUp 0 && !s.ideHeld 0
  | .vf n => s.fnUp n && !s.ideHeld n
  | .firmware => true

/-! ## Status words of commands -/

/-- A live command's status word written now, as it stands (R376). -/
def State.writeCmdStatus (s : State) (c : LiveCmd) : State :=
  s.hostWrite c.fn c.statusAddr (toBytes 8 (statusWord c.state.toNat 0 c.code.toNat c.tag c.count.toNat).toNat)

/-- The live command of a function with a tag. -/
def State.liveCmd (s : State) (fn : Nat) (tag : Word) : Option LiveCmd := s.hif.cmds.find? fun c => c.fn == fn && c.tag == tag

/-- A live command changed. -/
def State.modCmd (s : State) (fn : Nat) (tag : Word) (f : LiveCmd → LiveCmd) : State :=
  s.modHif fun h => { h with cmds := h.cmds.map fun c => if c.fn == fn && c.tag == tag then f c else c }

/-- COUNT raised by k. -/
def State.cmdCount (s : State) (fn : Nat) (tag : Word) (k : Nat) : State :=
  s.modCmd fn tag fun c => { c with count := satAdd c.count k }

/-- COUNT set. -/
def State.cmdCountTo (s : State) (fn : Nat) (tag : Word) (k : Nat) : State :=
  s.modCmd fn tag fun c => { c with count := BitVec.ofNat 32 (sat32 k) }

/-- STATE changed, with the status word written (R376). -/
def State.cmdState (s : State) (fn : Nat) (tag : Word) (st : Nat) : State :=
  let s := s.modCmd fn tag fun c => { c with state := BitVec.ofNat 4 st, statusAt := s.time.now }
  match s.liveCmd fn tag with
  | some c => s.writeCmdStatus c
  | none => s

/-- A live command ends in a STATE with a code: its last status word, and it is live no more (R375, R376). -/
def State.cmdEnd (s : State) (fn : Nat) (tag : Word) (st code : Nat) : State :=
  match s.liveCmd fn tag with
  | none => s
  | some c =>
    let s := s.writeCmdStatus { c with state := BitVec.ofNat 4 st, code := BitVec.ofNat 12 code }
    s.modHif fun h => { h with cmds := h.cmds.filter fun c => !(c.fn == fn && c.tag == tag) }

end Sys2Proof.Machine
end

