-- ==== Sys2Proof/Machine/Seam.lean ====
section
/-! DEFINITION. Seam reduction: the bucket table and the shares, contributions, seam queues and combining, the owner's
accumulation and close, publication, landing and commit (chapter 14). -/

namespace Sys2Proof.Machine

/-! ## Seam packets (R457) -/

def seamStep (p : Packet) : Word := BitVec.ofNat 32 (low80 p / 2 ^ 48)
def seamBucket (p : Packet) : Nat := nbits (low80 p) 47 36
def seamFirst (p : Packet) : Nat := nbits (low80 p) 35 14
def seamFmt (p : Packet) : Nat := nbits (low80 p) 13 11
def seamVoid (p : Packet) : Bool := nbits (low80 p) 10 10 == 1
def seamHeld (p : Packet) : Bool := nbits (low80 p) 9 9 == 1
/-- Meta unit: COUNT, SSUM, NDIV; and the data units. -/
def seamCount (p : Packet) : Nat := leAt p.body 0 4 % 2 ^ 18
def seamSsum (p : Packet) : Nat := leAt p.body 4 4
def seamNdiv (p : Packet) : Nat := leAt p.body 8 1 % 64
def seamData (p : Packet) : List Byte := p.body.drop 16

/-- Bits [79:0] of a seam header. -/
def seamLow (step : Word) (bucket first fmt : Nat) (void held : Bool) : Nat :=
  step.toNat * 2 ^ 48 + bucket * 2 ^ 36 + first * 2 ^ 14 + fmt * 2 ^ 11 + b2n void * 2 ^ 10 + b2n held * 2 ^ 9

/-- A meta unit; NDIV has 6 bits. -/
def seamMeta (count ssum ndiv : Nat) : List Byte := toBytes 4 count ++ toBytes 4 ssum ++ toBytes 8 (ndiv % 64)

/-- Whether a seam packet is well formed: reserved bits 0, FMT used, units that match it (R457, R473). -/
def seamShapeOk (p : Packet) : Bool :=
  let param := p.kind == 0xB
  let noData := seamVoid p || seamHeld p
  low80 p % 512 == 0 && p.msk == 0 && seamFmt p ≤ 5 && (param == (seamFmt p == 5))
    && leAt p.body 0 4 / 2 ^ 18 == 0 && leAt p.body 8 8 / 64 == 0
    && p.body.length == (if noData then 16 else 144)
    && (if param then seamCount p == 0 else true)

/-- Elements a packet covers. -/
def seamElems (p : Packet) : Nat :=
  match seamFmt p with
  | 1 | 5 => 64
  | 3 => 1024
  | 4 => 128
  | _ => 32

/-! ## Buckets and shares (R452, R453, R454) -/

/-- S of a bucket for M replicas. -/
def shareLen (m elems : Nat) : Nat := ceilDiv elems (1024 * m) * 1024

/-- The replica set of this module: local IDs m × W × D + d × W + w (R453). -/
def State.replicaIds (s : State) : List Nat :=
  let w := s.wlk.w.toNat
  let d := s.wlk.d.toNat
  let base := s.wlk.localId.toNat % (w * d)
  (List.range (if s.wlk.m == 0 then 131072 else s.wlk.m.toNat)).map fun m => m * w * d + base

/-- The module of a local ID, from the member table (R436). -/
def State.member (s : State) (localId : Nat) : Nat := s.natAt (s.wlk.tableAddr.toNat + 4 * localId) 4 % 2 ^ 17

/-- The modules of the replica set in local order. -/
def State.replicas (s : State) : List Nat := s.replicaIds.map s.member

/-- Number of replicas, and this module's place among them. -/
def State.replicaM (s : State) : Nat := s.replicaIds.length
def State.myReplica (s : State) : Nat := s.wlk.localId.toNat / (s.wlk.w.toNat * s.wlk.d.toNat)

/-- The replica that owns share k of bucket b, and the share of a bucket that replica m owns (R453). -/
def ownerOf (m k b : Nat) : Nat := (k + b) % m
def shareOwned (m me b : Nat) : Nat := (me + m - b % m) % m

/-- The bucket elements of a share: from, to (exclusive); empty where they meet. -/
def shareRange (m elems k : Nat) : Nat × Nat :=
  let l := shareLen m elems
  (min elems (k * l), min elems ((k + 1) * l))

/-- Bytes of one bucket's part of an ACC half: 4.25 × S (R454). -/
def accBytes (m : Nat) (b : Bucket) : Nat := shareLen m b.elems * 17 / 4

/-- H, and the start of a bucket within a half. -/
def Reduce.half (r : Reduce) (m : Nat) : Nat := (r.buckets.map (accBytes m)).sum
def Reduce.accAt (r : Reduce) (m b : Nat) (step : Word) : Nat :=
  r.acc.toNat + (step.toNat % 2) * r.half m + ((r.buckets.take b).map (accBytes m)).sum

def Reduce.bucket (r : Reduce) (b : Nat) : Bucket := nth { first := 0, elems := 0 } r.buckets b

/-- Place of a step in the run, modulo 2^32: 0 for FIRST_STEP; and the number of steps committed. -/
def Reduce.rel (r : Reduce) (step : Word) : Nat := (step - r.firstStep).toNat
def Reduce.doneRel (r : Reduce) (committed : Word) : Nat := (committed + 1 - r.firstStep).toNat

/-- Whether a step lies before another: steps count modulo 2^32. -/
def stepBelow (a b : Word) : Bool := b != a && !(b - a).msb

/-- Whether a step sends (R456). -/
def Reduce.sends (r : Reduce) (step : Word) : Bool := r.mode != 1 || r.rel step % r.n == r.n - 1

/-! ## Memory of a reduction -/

/-- A virtual address of an area, if it still maps Normal memory of this module with W = 1 (R451). -/
def State.seamAt (s : State) (part va : Nat) : Option (Nat × Nat) := s.endTarget part va

/-- n bytes at a virtual address within one page, or the address whose access faults. -/
def State.seamRead (s : State) (part va n : Nat) : Except Nat (List Byte) :=
  match s.seamAt part va with
  | some (a, key) => if s.damagedAt a n then .error (va + (s.badAt a n - a)) else .ok (s.keyBytes key a n)
  | none => .error va

/-- The lines that a read touches in L2 (R220, R227). -/
def State.seamTouch (s : State) (part va n : Nat) : State :=
  match s.seamAt part va with
  | some (a, _) => s.agentRead true part a n
  | none => s

def State.seamWrite (s : State) (part va : Nat) (bs : List Byte) : Except Nat State :=
  match s.seamAt part va with
  | some (a, key) => .ok (s.normalWrite part 0 key a bs)
  | none => .error va

/-- A value read, changed and written back. -/
def State.seamUpdate (s : State) (part va n : Nat) (f : List Byte → List Byte) : Except Nat State :=
  match s.seamRead part va n with
  | .ok old => (s.seamTouch part va n).seamWrite part va (f old)
  | .error e => .error e

/-- Steps that may fault, in order. -/
def State.tryEach {α : Type} (s : State) : List α → (State → α → Except Nat State) → Except Nat State
  | [], _ => .ok s
  | a :: r, f => match f s a with
    | .ok s => s.tryEach r f
    | .error e => .error e

/-- n values of w bytes each from an address on. -/
def State.seamVals (s : State) (part va w : Nat) : Nat → Except Nat (List Nat)
  | 0 => .ok []
  | n + 1 =>
    match s.seamVals part va w n, s.seamRead part (va + w * n) w with
    | .ok l, .ok x => .ok (l ++ [ofBytes x])
    | .error e, _ => .error e
    | _, .error e => .error e

/-- The touches of n bytes from an address on. -/
def State.seamTouches (s : State) (part va n : Nat) : State :=
  s.each (List.range (ceilDiv (va % 128 + n) 128)) fun s k => s.seamTouch part (va / 128 * 128 + 128 * k) 128

/-! ## Float helpers -/

/-- A FP32 value divided by a positive integer, with one rounding to nearest even. -/
def fDivNat (a n : Nat) : Nat :=
  match fdec fp32 a with
  | .nan => fp32.nanCode
  | .inf s => fenc fp32 (.inf s)
  | .fin s m e =>
    let q := m * 2 ^ 64 / n
    let sticky := b2n (m * 2 ^ 64 % n != 0)
    fenc fp32 (.fin s (2 * q + sticky) (e - 65))

/-- An integer as FP32. -/
def fOfInt (i : Int) : Nat := fenc fp32 (fvOfInt i)

/-- BF16 widened to FP32, and FP32 rounded to BF16. -/
def fWiden (c : Nat) : Nat := fenc fp32 (fdec bf16 c)
def fNarrow (c : Nat) : Nat := fenc bf16 (fdec fp32 c)

/-! ## Sending through ports (R430, R435, R458, R459) -/

/-- Data of two packets of one format added element by element. -/
def addData (fmt : Nat) (a b : List Byte) : List Byte :=
  if fmt == 1 then (List.range 64).flatMap fun i => toBytes 2 (fAdd bf16 (leAt a (2 * i) 2) (leAt b (2 * i) 2))
  else (List.range 32).flatMap fun i =>
    let x := leAt a (4 * i) 4
    let y := leAt b (4 * i) 4
    toBytes 4 (if fmt == 0 then fAdd fp32 x y else (x + y) % 2 ^ 32)

/-- COUNT and SSUM of two packets added (R458). -/
def addMeta (a b : Packet) : List Byte :=
  seamMeta (seamCount a + seamCount b) (fAdd fp32 (seamSsum a) (seamSsum b)) (seamNdiv a)

/-- Whether two packets may meet in one queue: DST, PART, STEP, BUCKET and NDIV equal, and the COUNT sum within bounds. -/
def sameSeam (a b : Packet) : Bool :=
  a.dst == b.dst && a.part == b.part && seamStep a == seamStep b && seamBucket a == seamBucket b && seamNdiv a == seamNdiv b
    && seamCount a + seamCount b ≤ 131072

/-- A VOTE1 packet as its 8 VOTE8 packets, and a VOTE8 packet as itself (R458). -/
def vote8s (p : Packet) : List Packet :=
  if seamFmt p != 3 then [p]
  else (List.range 8).map fun k =>
    let data := (List.range 128).map fun i =>
      let e := 128 * k + i
      BitVec.ofNat 8 ((nth (0#8) (seamData p) (e / 8)).toNat / 2 ^ (e % 8) % 2)
    { withLow80 p (seamLow (seamStep p) (seamBucket p) (seamFirst p + 4 * k) 4 false false) with body := p.body.take 16 ++ data }

/-- Whether a vote packet's group, or range, meets another's. -/
def votesMeet (a b : Packet) : Bool :=
  let va := seamFmt a == 3
  let vb := seamFmt b == 3
  (va || seamFmt a == 4) && (vb || seamFmt b == 4) && seamCount a + seamCount b ≤ 255
    && (if va || vb then seamFirst a / 32 == seamFirst b / 32 else seamFirst a == seamFirst b)

/-- A VOTE8 packet put among queued ones: added to the packet of its range, or last in the queue. -/
def addVote8 (hold : Dword) : List SeamQ → Packet → List SeamQ
  | [], p => [{ p := p, holdUntil := hold }]
  | q :: r, p =>
    if sameSeam q.p p && seamFmt q.p == 4 && seamFirst q.p == seamFirst p && seamCount q.p + seamCount p ≤ 255 then
      { q with p := { q.p with body := addMeta q.p p ++ (List.range 128).map fun i => nth 0 (seamData q.p) i + nth 0 (seamData p) i } } :: r
    else q :: addVote8 hold r p

/-- A packet combined with a queued one, if one matches (R458). -/
def combine (hold : Dword) (queue : List SeamQ) (p : Packet) : Option (List SeamQ) :=
  let f := seamFmt p
  match findIdx (fun q => sameSeam q.p p && (if f ≤ 2 then seamFmt q.p == f && seamFirst q.p == seamFirst p else votesMeet q.p p)) queue with
  | none => none
  | some i =>
    if f ≤ 2 then
      some (upd queue i fun q => { q with p := { q.p with body := addMeta q.p p ++ addData f (seamData q.p) (seamData p) } })
    else
      let spread := queue.flatMap fun q => if sameSeam q.p p && votesMeet q.p p then (vote8s q.p).map fun v => { q with p := v } else [q]
      some ((vote8s p).foldl (addVote8 hold) spread)

/-- Outgoing SEAM_ADD: combined, held, or, on a bypassed port, sent as SEAM_WRITE. The queue holds 256: what came first goes on where the
queue needs its place (R458, R459). -/
def State.seamOut (s : State) (port : Nat) (p : Packet) : State :=
  let x := s.port port
  if x.bypass then
    (s.modPort port fun x => { x with converted := x.converted + 1 }).enqueue port { p with kind := 0xA }
  else
    let e := s.seamEntry p
    match combine e.holdUntil x.seamQ p with
    | some q =>
      let extra := q.length - 256
      let s := s.modPort port fun x => { x with seamQ := q.drop extra, combined := x.combined + 1 }
      s.each (q.take extra) fun s o => s.enqueue port o.p
    | none =>
      if x.seamQ.length < 256 then s.modPort port fun x => { x with seamQ := x.seamQ ++ [e] }
      else
        match x.seamQ with
        | old :: rest => (s.modPort port fun x => { x with seamQ := rest ++ [e] }).enqueue port old.p
        | [] => s

/-- A packet that takes a route, on the channel that each port gives it. Unreachable marks the destination dead; a packet for a dead
module is discarded, and so is one whose source is dead (R430, R435). -/
def State.forward (s : State) (p : Packet) (route : Route) (vcAt : Nat → BitVec 3) : State :=
  if s.wlk.dead.contains p.dst.toNat || s.wlk.dead.contains p.src.toNat then s
  else
    match route with
    | .here => s
    | .unreachable => s.markDead p.dst.toNat none
    | .out port dir =>
      let p := { p with dir := dir, vc := vcAt port }
      if p.kind == 9 then s.seamOut port p else s.enqueue port p

/-- A packet made here, or arrived on a port, sent by its route. -/
def State.send (s : State) (p : Packet) (arrived : Option Nat) : State := s.forward p (s.route p arrived) (s.channelOut p arrived)

/-- A packet that waited at a port sent by another: it keeps its direction while it can, and its channel (R430, R431, R433). -/
def State.resend (s : State) (p : Packet) (held : Nat) : State := s.forward p (s.route p (some held)) (channelAgain p held)

/-- SEAM_QUEUE_HOLD_EXPIRY: packets whose hold has ended go on to wait for credit (R458). -/
def State.seamHoldExpiry (s : State) (port : Nat) : State :=
  let x := s.port port
  let due := x.seamQ.filter fun q => decide (q.holdUntil ≤ s.time.now)
  let s := s.modPort port fun x => { x with seamQ := x.seamQ.filter fun q => !decide (q.holdUntil ≤ s.time.now) }
  s.each (due.map (·.p)) fun s p => s.enqueue port p

/-! ## The reduction of a partition -/

def State.modReduce (s : State) (part : Nat) (f : Reduce → Reduce) : State :=
  s.modSeamPart part fun x => { x with reduce := x.reduce.map f }

/-- Whether a module no longer takes part: dead, or it has ended its reduction (R470, R471). -/
def State.seamGone (s : State) (r : Reduce) (id : Nat) : Bool := s.wlk.dead.contains id || r.gone.contains id

/-- Live members of the replica set. -/
def State.liveReplicas (s : State) (r : Reduce) : List Nat := s.replicas.filter fun id => !s.seamGone r id

/-- The record of an event of the reduction (R532 source 0x11). -/
def State.seamRecord (s : State) (cls : RecCls) (part code : Nat) (step : Word) (bucket : Nat) (addr : Nat) : State :=
  s.record cls (.fn (part + 1)) (unitId 0x10 part) 0x11 code part
    (toBytes 4 step.toNat ++ toBytes 4 bucket ++ toBytes 8 addr)

/-- A counter of NOTE_CORE raised by 1. -/
def State.note (s : State) (r : Reduce) (n : Nat) : State := s.cntAdd r.noteCore.toNat n 1

/-- NDIV of what a reduction sends: N in baste mode, else 1 (R457). -/
def Reduce.ndiv (r : Reduce) : Nat := if r.mode == 1 then r.n else 1

/-- The steps of a reduction that are open: the one after COMMITTED, and those with a share open (R470; log entry 99). -/
def Reduce.openSteps (r : Reduce) (committed : Word) : List Word :=
  (committed + 1) :: ((r.shares.map (·.step)).eraseDups.filter fun t => t != committed + 1)

/-- The (step, bucket) of every unpublished share that this module owns of a step that is open (R470). -/
def State.unpublished (s : State) (part : Nat) (r : Reduce) : List (Word × Nat) :=
  let m := s.replicaM
  (r.openSteps (s.seamPart part).committed).flatMap fun t => ((List.range r.buckets.length).filter fun b =>
    let g := shareRange m (r.bucket b).elems (shareOwned m s.myReplica b)
    g.1 != g.2 && !r.shares.any fun x => x.step == t && x.bucket == b && x.published).map fun b => (t, b)

/-- A REDUCE ends before its last step: VOID notices for the unpublished shares it owns of every open step, its ACC halves
discarded, its status, and the record with the faulting address, if any (R470). Cause 7 faulting access, 8 FLR, 9 group stopped. -/
def State.endReduce (s : State) (part code addr : Nat) : State :=
  match (s.seamPart part).reduce with
  | none => s
  | some r =>
    let opens := s.unpublished part r
    let s := s.modSeamPart part fun x => { x with reduce := none }
    let others := (s.liveReplicas r).filter fun id => id != s.myId
    let notices := opens.flatMap fun x => others.map fun id => (x, id)
    let s := s.each notices fun s e =>
      let m := s.replicaM
      let first := (shareRange m (r.bucket e.1.2).elems (shareOwned m s.myReplica e.1.2)).1 / 32
      s.send { withLow80 (s.newPacket 0xB e.2 part) (seamLow e.1.1 e.1.2 first 5 true false) with body := seamMeta 0 0 r.ndiv } none
    let s := if code == 7 then s.cmdEnd r.fn r.tag 7 0x013 else if code == 8 then s.modHif (fun h => { h with cmds := h.cmds.filter fun c => !(c.fn == r.fn && c.tag == r.tag) }) else s.cmdEnd r.fn r.tag 6 0
    s.seamRecord .partition part code (s.seamPart part).committed 0 addr

/-- A REDUCE ended by an access that faults: one to data that cannot be corrected writes its tier's record too (R243, R451, R470). -/
def State.seamFault (s : State) (part va : Nat) : State :=
  let s := match s.seamAt part va with
    | some (a, _) => s.when (s.damagedAt a 1) fun s => s.ueRead a part
    | none => s
  s.endReduce part 7 va

/-! ## Contributions (R455, R456) -/

/-- The gradients of a bucket, as FP32 codes. -/
def State.gradOf (s : State) (part : Nat) (r : Reduce) (b : Bucket) : Except Nat (List Nat) :=
  s.seamVals part (r.grad.toNat + 4 * b.first) 4 b.elems

/-- One 1,024-element group in one-bit mode: the sign bits, the scale, and the remnants (R456). -/
def oneBitGroup (g rem : List Nat) : List Bool × Nat × List Nat :=
  let v := (g.zip rem).map fun e => fAdd fp32 e.1 (fWiden e.2)
  if v.any fun x => !(fdec fp32 x).isFin then (g.map fun _ => false, fp32.nanCode, g.map fun _ => 0)
  else
    let s := fMul fp32 ((iter 10 (pairUp (fAdd fp32)) (v.map (fAbs fp32))).headD 0) (fenc fp32 (.fin false 1 (-10)))
    let bits := v.map fun x => x % fp32.signBit == 0 || x < fp32.signBit
    (bits, s, (v.zip bits).map fun e => fNarrow (fAdd fp32 e.1 (if e.2 then fNeg fp32 s else s)))

/-- Sign bits as bytes, bit i of byte j for element 8j + i (R457). -/
def signBytes (bits : List Bool) : List Byte :=
  (List.range (bits.length / 8)).map fun j => BitVec.ofNat 8 (((List.range 8).map fun i => b2n (nth false bits (8 * j + i)) * 2 ^ i).sum)

/-- The packets of a list of FP32 codes that start at bucket element `at_`, in a packet format. -/
def State.dataPackets (s : State) (part : Nat) (step : Word) (bucket fmt ndiv : Nat) (dstOf : Nat → Nat) (vals : List Nat) : List Packet :=
  let n := if fmt == 1 then 64 else 32
  (List.range (vals.length / n)).map fun k =>
    let chunk := (vals.drop (k * n)).take n
    let data := if fmt == 1 then chunk.flatMap fun v => toBytes 2 (fNarrow v) else chunk.flatMap fun v => toBytes 4 v
    { withLow80 (s.newPacket 9 (dstOf (k * n)) part) (seamLow step bucket (k * n / 32) fmt false false) with body := seamMeta 1 0 ndiv ++ data }

/-- The contribution packets of a bucket, and the state with the accumulator or the remnants updated, or the faulting address. -/
def State.contribution (s : State) (part : Nat) (r : Reduce) (step : Word) (bi : Nat) : Except Nat (State × List Packet) :=
  let b := r.bucket bi
  let m := s.replicaM
  let len := shareLen m b.elems
  let dstOf (e : Nat) : Nat := nth 0 s.replicas (ownerOf m (e / len) bi)
  let idx := List.range b.elems
  match s.gradOf part r b with
  | .error e => .error e
  | .ok g =>
    let s := s.seamTouches part (r.grad.toNat + 4 * b.first) (4 * b.elems)
    if r.mode == 0 then .ok (s, s.dataPackets part step bi r.fmt 1 dstOf g)
    else if r.mode == 1 then
      let aux := r.aux.toNat + 4 * b.first
      match s.seamVals part aux 4 b.elems with
      | .error e => .error e
      | .ok old =>
        let v := (old.zip g).map fun e => fAdd fp32 e.1 e.2
        let send := r.sends step
        match (s.seamTouches part aux (4 * b.elems)).tryEach idx fun s i => s.seamWrite part (aux + 4 * i) (toBytes 4 (if send then 0 else nth 0 v i)) with
        | .error e => .error e
        | .ok s => .ok (s, if send then s.dataPackets part step bi 0 r.ndiv dstOf v else [])
    else
      let aux := r.aux.toNat + 2 * b.first
      match s.seamVals part aux 2 b.elems with
      | .error e => .error e
      | .ok rem =>
        let groups := (List.range (b.elems / 1024)).map fun k => oneBitGroup ((g.drop (1024 * k)).take 1024) ((rem.drop (1024 * k)).take 1024)
        let newRem := groups.flatMap fun x => x.2.2
        let events := (groups.filter fun x => x.2.1 == fp32.nanCode).length
        let s := s.modSeamPart part fun x => { x with nonFinite := x.nonFinite + events }
        match (s.seamTouches part aux (2 * b.elems)).tryEach idx fun s i => s.seamWrite part (aux + 2 * i) (toBytes 2 (nth 0 newRem i)) with
        | .error e => .error e
        | .ok s => .ok (s, (groups.zip (List.range groups.length)).map fun e =>
            { withLow80 (s.newPacket 9 (dstOf (1024 * e.2)) part) (seamLow step bi (32 * e.2) 3 false false) with
              body := seamMeta 1 e.1.2.1 1 ++ signBytes e.1.1 })

/-! ## At the owner (R460 to R463) -/

/-- What a packet adds to element i of its range: the FP32 or INT32 addend. -/
def seamAddend (p : Packet) (i : Nat) : Nat :=
  let d := seamData p
  match seamFmt p with
  | 1 => fWiden (leAt d (2 * i) 2)
  | 3 => fOfInt ((nth (0#8) d (i / 8)).toNat / 2 ^ (i % 8) % 2 : Nat)
  | 4 => fOfInt (nth (0#8) d i).toNat
  | _ => leAt d (4 * i) 4

/-- The span records of a share: address of span j's COUNT and SSUM (R454). -/
def Reduce.spanAt (r : Reduce) (m b : Nat) (step : Word) (j : Nat) : Nat :=
  r.accAt m b step + 4 * shareLen m (r.bucket b).elems + 8 * j

/-- A packet added into the owner's ACC half, from share element `off` on. -/
def State.accAdd (s : State) (part : Nat) (r : Reduce) (m : Nat) (p : Packet) (off : Nat) : Except Nat State :=
  let step := seamStep p
  let b := seamBucket p
  let base := r.accAt m b step
  let n := seamElems p
  let sums := s.tryEach (List.range n) fun s i => s.seamUpdate part (base + 4 * (off + i)) 4 fun old =>
    let x := seamAddend p i
    toBytes 4 (if seamFmt p == 2 then (ofBytes old + x) % 2 ^ 32 else fAdd fp32 (ofBytes old) x)
  match sums with
  | .error e => .error e
  | .ok s => s.tryEach (List.range (n / 32)) fun s j => s.seamUpdate part (r.spanAt m b step (off / 32 + j)) 8 fun old =>
      toBytes 4 (leAt old 0 4 + seamCount p) ++ toBytes 4 (fAdd fp32 (leAt old 4 4) (seamSsum p))

/-- The region of a share zeroed as it opens (R461). -/
def State.accZero (s : State) (part : Nat) (r : Reduce) (m b : Nat) (step : Word) : Except Nat State :=
  s.tryEach (List.range (accBytes m (r.bucket b) / 8)) fun s i => s.seamWrite part (r.accAt m b step + 8 * i) (toBytes 8 0)

/-- The value that replaces a sum at the close (R462). -/
def closeValue (r : Reduce) (sum c ssum : Nat) : Nat :=
  if c == 0 || (r.mode == 0 && r.fmt == 2) then sum
  else if r.mode == 2 then
    let v : Int := match fdec fp32 sum with
      | .fin neg m e => toIntRne neg m e
      | _ => 0
    fDivNat (fMul fp32 (fDivNat ssum c) (fOfInt (2 * v - c))) c
  else fDivNat sum (c * (if r.mode == 1 then r.n else 1))

/-- The COUNTs of the spans of a share. -/
def State.spanCounts (s : State) (part : Nat) (r : Reduce) (m b : Nat) (step : Word) : List Nat :=
  let rg := shareRange m (r.bucket b).elems (shareOwned m s.myReplica b)
  (List.range ((rg.2 - rg.1) / 32)).map fun j => match s.seamRead part (r.spanAt m b step j) 4 with
    | .ok x => ofBytes x
    | .error _ => 0

/-- OPT_CNT additions that the owner's commit allows (R463). -/
def State.optFlush (s : State) (part : Nat) : State :=
  match (s.seamPart part).reduce with
  | none => s
  | some r =>
    let ok (t : Word) : Bool := decide (r.rel t ≤ r.doneRel (s.seamPart part).committed)
    let n := (r.optWait.filter ok).length
    (s.modReduce part fun r => { r with optWait := r.optWait.filter fun t => !ok t }).cntAdd r.noteCore.toNat r.optCnt n

/-- What a close writes: every span divided by its COUNT, and the close list's next entry (R462, R463). -/
def State.closeWrites (s : State) (part : Nat) (r : Reduce) (sh : Share) (step : Word) (b : Nat) : Except Nat State :=
  let m := s.replicaM
  let counts := s.spanCounts part r m b step
  let short := (counts.filter fun c => c < sh.expect_).length
  let n := ((r.closeN.find? fun e => e.1 == step).map (·.2)).getD 0
  let divided := s.tryEach ((List.range counts.length).zip counts) fun s e =>
    match s.seamRead part (r.spanAt m b step e.1) 8 with
    | .error e => .error e
    | .ok rec => (s.seamTouch part (r.spanAt m b step e.1) 8).tryEach (List.range 32) fun s i =>
        s.seamUpdate part (r.accAt m b step + 4 * (32 * e.1 + i)) 4 fun old => toBytes 4 (closeValue r (ofBytes old) e.2 (leAt rec 4 4))
  match divided with
  | .error e => .error e
  | .ok s => s.seamWrite part (r.close.toNat + step.toNat % 2 * 32768 + 8 * n)
      (toBytes 4 (b2n (short != 0) * 4096 + b) ++ toBytes 4 step.toNat)

/-- A share closes: spans divided, the close list appended, OPT_CNT and COUNT raised (R462, R463). -/
def State.closeShare (s : State) (part : Nat) (step : Word) (b : Nat) : State :=
  match (s.seamPart part).reduce with
  | none => s
  | some r =>
    match r.shares.find? fun x => x.step == step && x.bucket == b && !x.closed with
    | none => s
    | some sh =>
      let counts := s.spanCounts part r s.replicaM b step
      let short := (counts.filter fun c => c < sh.expect_).length
      let void := (counts.filter fun c => c == 0).length
      let n := ((r.closeN.find? fun e => e.1 == step).map (·.2)).getD 0
      match s.closeWrites part r sh step b with
      | .error e => s.seamFault part e
      | .ok s =>
        let s := s.modSeamPart part fun x => { x with short := satAdd x.short short, void := satAdd x.void void }
        let s := s.modReduce part fun r => { r with
          shares := r.shares.map fun x => if x.step == step && x.bucket == b then { x with closed := true } else x
          closeN := (step, n + 1) :: r.closeN.filter fun e => e.1 != step
          optWait := step :: r.optWait }
        (s.cmdCount r.fn r.tag 1).optFlush part

/-- Whether an open share may close: every span's COUNT has reached EXPECT (R461, R471). -/
def State.shareFull (s : State) (part : Nat) (r : Reduce) (x : Share) : Bool :=
  !x.closed && (s.spanCounts part r s.replicaM x.bucket x.step).all fun c => x.expect_ ≤ c

/-- Whether DEADLINE_US has passed since a share opened. -/
def State.sharePast (s : State) (r : Reduce) (x : Share) : Bool := decide (x.openAt.toNat + r.deadlineUs * 1000 ≤ s.now)

/-- A contribution at its owner (R460, R461): late, or added to its share, which it may open and may close. The packet has
passed the checks of R473. -/
def State.ownerAdd (s : State) (part : Nat) (p : Packet) : State :=
  match (s.seamPart part).reduce with
  | none => s
  | some r =>
    let m := s.replicaM
    let step := seamStep p
    let b := seamBucket p
    let late := s.modSeamPart part fun x => { x with late := satAdd x.late 1 }
    let rg := shareRange m (r.bucket b).elems (shareOwned m s.myReplica b)
    let off := 32 * seamFirst p - rg.1
    let writes (s : State) : State := s.when (p.kind == 0xA) fun s => s.modSeamPart part fun x => { x with writes := satAdd x.writes 1 }
    if r.rel step < r.doneRel (s.seamPart part).committed then writes late
    else
      match r.shares.find? fun x => x.step == step && x.bucket == b with
      | some x =>
        if x.closed then writes late
        else if s.sharePast r x then writes (late.closeShare part step b)
        else
          match s.accAdd part r m p off with
          | .error e => s.seamFault part e
          | .ok s => (writes s).when ((writes s).shareFull part r x) fun s => s.closeShare part step b
      | none =>
        match s.accZero part r m b step with
        | .error e => s.seamFault part e
        | .ok s =>
          let x : Share := { step := step, bucket := b, openAt := s.time.now, expect_ := (s.liveReplicas r).length }
          let s := s.modReduce part fun r => { r with shares := r.shares ++ [x] }
          match s.accAdd part r m p off with
          | .error e => s.seamFault part e
          | .ok s => (writes s).when ((writes s).shareFull part r x) fun s => s.closeShare part step b

/-- A contribution packet goes to its owner: across a port, or into this module's own share (R456, R460). -/
def State.contribute (s : State) (part : Nat) (p : Packet) : State :=
  if p.dst.toNat == s.myId then s.ownerAdd part p else s.send p none

/-! ## SEAM_POST (R455) -/

/-- A post ignored (R455, R465): an absorbed record. -/
def State.seamIgnored (s : State) (part code : Nat) (step : Word) (bucket : Nat) : State :=
  s.seamRecord .absorbed part code step bucket 0

/-- SEAM_POST_READ_COMPLETE: the oldest post whose step may be read is read and sent, and POST_CNT rises (R455, R456). -/
def State.postRead (s : State) (part : Nat) : State :=
  match (s.seamPart part).reduce with
  | none => s
  | some r =>
    match r.posts with
    | [] => s
    | (step, b) :: rest =>
      if r.doneRel (s.seamPart part).committed < r.rel step then s
      else
        match s.contribution part r step b with
        | .error e => s.seamFault part e
        | .ok (s, ps) =>
          let s := s.modReduce part fun r => { r with posts := rest, posted := (step, b) :: r.posted }
          let s := s.each ps fun s p => s.contribute part p
          s.note r r.postCnt

/-- A post of bucket b of step t. -/
def State.seamPost (s : State) (part : Nat) (step : Word) (b : Nat) : State :=
  match (s.seamPart part).reduce with
  | none => s.seamIgnored part 5 step b
  | some r =>
    let n := r.rel step
    if n < r.doneRel (s.seamPart part).committed || r.steps ≤ n || r.buckets.length ≤ b
        || (r.posts ++ r.posted).contains (step, b) then s.seamIgnored part 5 step b
    else s.modReduce part fun r => { r with posts := r.posts ++ [(step, b)] }

/-! ## Publication and landing (R464 to R467) -/

/-- The parameter version that holds step t's values: the standby one until t is committed, then the active one. -/
def State.paramVer (s : State) (part : Nat) (r : Reduce) (step : Word) : Dword :=
  let x := s.seamPart part
  let standby := if x.active then r.param0 else r.param1
  let active := if x.active then r.param1 else r.param0
  if r.rel step < r.doneRel x.committed then active else standby

/-- A SEAM_PARAM packet of a range of an owned share, read as it is sent; a fault ends the REDUCE. -/
def State.sendParam (s : State) (part : Nat) (r : Reduce) (step : Word) (b first dst : Nat) : Except Nat State :=
  let va := (s.paramVer part r step).toNat + 2 * ((r.bucket b).first + 32 * first)
  match s.seamRead part va 128 with
  | .error e => .error e
  | .ok d => .ok ((s.seamTouch part va 128).send
      { withLow80 (s.newPacket 0xB dst part) (seamLow step b first 5 false false) with body := seamMeta 0 0 r.ndiv ++ d } none)

/-- SEAM_PUBLISH (R465). -/
def State.seamPublish (s : State) (part : Nat) (step : Word) (b : Nat) : State :=
  match (s.seamPart part).reduce with
  | none => s.seamIgnored part 6 step b
  | some r =>
    match r.shares.find? fun x => x.step == step && x.bucket == b && x.closed && !x.published with
    | none => s.seamIgnored part 6 step b
    | some _ =>
      let m := s.replicaM
      let rg := shareRange m (r.bucket b).elems (shareOwned m s.myReplica b)
      let s := s.modReduce part fun r => { r with shares := r.shares.map fun x =>
        if x.step == step && x.bucket == b then { x with published := true } else x }
      let others := (s.liveReplicas r).filter fun id => id != s.myId
      let firsts := (List.range ((rg.2 - rg.1) / 64)).map fun k => rg.1 / 32 + 2 * k
      let sends := others.flatMap fun id => firsts.map fun f => (id, f)
      let s := match s.tryEach sends fun s e => s.sendParam part r step b e.2 e.1 with
        | .ok s => s
        | .error e => s.seamFault part e
      match (s.seamPart part).reduce with
      | some r => s.note r r.paramCnt
      | none => s

/-- Whether share k of a bucket has landed whole at this member; its own shares have once published (R465, R466). -/
def State.shareLanded (s : State) (r : Reduce) (step : Word) (b k : Nat) : Bool :=
  let m := s.replicaM
  let rg := shareRange m (r.bucket b).elems k
  if rg.1 == rg.2 then true
  else if k == shareOwned m s.myReplica b then r.shares.any fun x => x.step == step && x.bucket == b && x.published
  else (List.range ((rg.2 - rg.1) / 64)).all fun j => r.landed.contains (step, b, rg.1 / 32 + 2 * j)

/-- The owner of share k of a bucket. -/
def State.shareOwner (s : State) (b k : Nat) : Nat := nth 0 s.replicas (ownerOf s.replicaM k b)

/-! ## Members lost (R471) -/

/-- A member gone from a reduction: EXPECT falls in the open shares, which may close (R471). -/
def State.seamLost (s : State) (part id : Nat) : State :=
  match (s.seamPart part).reduce with
  | none => s
  | some r =>
    if !s.replicas.contains id || r.gone.contains id then s
    else
      let s := s.modReduce part fun r => { r with
        gone := id :: r.gone
        shares := r.shares.map fun x => if x.closed then x else { x with expect_ := x.expect_ - 1 } }
      let opens := match (s.seamPart part).reduce with
        | some r => r.shares.filter fun x => s.shareFull part r x
        | none => []
      s.each opens fun s x => s.closeShare part x.step x.bucket

/-! ## Landing -/

/-- SEAM_PARAM at a member, after the checks of R473: landed, returned HELD, or, from the owner, a VOID notice (R466 to
R468, R471). A HELD packet that comes back is resent 20 µs later. -/
def State.seamParam (s : State) (part : Nat) (p : Packet) : State :=
  match (s.seamPart part).reduce with
  | none => s
  | some r =>
    let step := seamStep p
    let b := seamBucket p
    let done := r.doneRel (s.seamPart part).committed
    let n := r.rel step
    if seamHeld p then
      s.modReduce part fun r => { r with held := r.held ++ [{ p := p, dst := p.src.toNat, at_ := s.time.now + 20000 }] }
    else if seamVoid p then
      s.seamLost part p.src.toNat
    else if done < n then
      s.send { withLow80 (s.newPacket 0xB p.src.toNat part) (seamLow step b (seamFirst p) 5 false true) with body := p.body.take 16 } none
    else if n < done then s
    else
      let va := (s.paramVer part r step).toNat + 2 * ((r.bucket b).first + 32 * seamFirst p)
      match s.seamWrite part va (seamData p) with
      | .error e => s.seamFault part e
      | .ok s =>
        let key := (step, b, seamFirst p)
        let k := 32 * seamFirst p / shareLen s.replicaM (r.bucket b).elems
        let before := s.shareLanded r step b k
        let s := s.modReduce part fun r => { r with landed := if r.landed.contains key then r.landed else key :: r.landed }
        match (s.seamPart part).reduce with
        | some r' => if !before && s.shareLanded r' step b k then s.note r' r'.paramCnt else s
        | none => s

/-- SEAM_HELD_RESEND: ranges whose 20 µs have passed are sent again (R467). -/
def State.heldResend (s : State) (part : Nat) : State :=
  match (s.seamPart part).reduce with
  | none => s
  | some r =>
    let due := r.held.filter fun h => decide (h.at_ ≤ s.time.now)
    let s := s.modReduce part fun r => { r with held := r.held.filter fun h => !decide (h.at_ ≤ s.time.now) }
    s.each due fun s h =>
      if s.seamGone r h.dst then s
      else
        match s.sendParam part r (seamStep h.p) (seamBucket h.p) (seamFirst h.p) h.dst with
        | .ok s => s
        | .error e => s.seamFault part e

/-! ## Commit (R468 to R470) -/

/-- The shares of a bucket. -/
def State.shareNums (s : State) : List Nat := List.range s.replicaM

/-- Whether a share is void for this member: its owner is gone, and it has not landed whole (R468, R471, R472). -/
def State.shareVoid (s : State) (r : Reduce) (step : Word) (b k : Nat) : Bool :=
  s.seamGone r (s.shareOwner b k) && !s.shareLanded r step b k

/-- Whether step t is complete at this member. -/
def State.stepComplete (s : State) (r : Reduce) (step : Word) : Bool :=
  !r.sends step || (List.range r.buckets.length).all fun b => s.shareNums.all fun k => s.shareLanded r step b k || s.shareVoid r step b k

/-- A void share copied from the active version to the standby one. -/
def State.copyVoid (s : State) (part : Nat) (r : Reduce) (b k : Nat) : Except Nat State :=
  let x := s.seamPart part
  let standby := if x.active then r.param0 else r.param1
  let active := if x.active then r.param1 else r.param0
  let rg := shareRange s.replicaM (r.bucket b).elems k
  s.tryEach (List.range ((rg.2 - rg.1) / 4)) fun s i =>
    let o := 2 * ((r.bucket b).first + rg.1) + 8 * i
    match s.seamRead part (active.toNat + o) 8 with
    | .ok d => (s.seamTouch part (active.toNat + o) 8).seamWrite part (standby.toNat + o) d
    | .error e => .error e

/-- SEAM_COMMIT: at the later of the boundary and completion (R469); after the last step the REDUCE ends (R470). -/
def State.seamCommit (s : State) (part : Nat) : State :=
  match (s.seamPart part).reduce with
  | none => s
  | some r =>
    let x := s.seamPart part
    let t := x.committed + 1
    let n := r.rel t
    if !stepBelow t r.boundary || r.steps ≤ n || !s.stepComplete r t then s
    else
      let voids := if r.sends t then (List.range r.buckets.length).flatMap fun b => (s.shareNums.filter fun k => s.shareVoid r t b k).map fun k => (b, k) else []
      match s.tryEach voids fun s e => s.copyVoid part r e.1 e.2 with
      | .error e => s.seamFault part e
      | .ok s =>
        let s := s.modSeamPart part fun x => { x with active := if r.sends t then !x.active else x.active, committed := t }
        let s := s.modReduce part fun r => { r with
          shares := r.shares.filter fun y => y.step != t, landed := r.landed.filter fun y => y.1 != t
          posted := r.posted.filter fun y => y.1 != t, closeN := r.closeN.filter fun y => y.1 != t }
        let s := (s.note r r.commitCnt).optFlush part
        if n + 1 == r.steps then (s.modSeamPart part fun x => { x with reduce := none }).cmdEnd r.fn r.tag 5 0 else s

/-- SEAM_BOUNDARY: a value not above COMMITTED + 1 is ignored (R469). -/
def State.seamBoundary (s : State) (part : Nat) (step : Word) : State :=
  match (s.seamPart part).reduce with
  | none => s
  | some _ =>
    if stepBelow ((s.seamPart part).committed + 1) step then
      s.modReduce part fun r => { r with boundary := if stepBelow r.boundary step then step else r.boundary }
    else s

end Sys2Proof.Machine
end

