-- ==== Sys2Proof/Machine/Barrier.lean ====
section
/-! DEFINITION. The time tree of a coupled group and the step barrier on it (R436, R439 to R442). -/

namespace Sys2Proof.Machine

/-! ## Directions (R430) -/

/-- Whether the way from coordinate a to b of a dimension of size n goes in the minus direction (R430). -/
def goesMinus (a b n : Nat) : Bool := decide (n - (b + n - a) % n < (b + n - a) % n)

/-- Hops from a coordinate to another. -/
def hopsOf (a b n : Nat) : Nat := min ((b + n - a) % n) (n - (b + n - a) % n)

/-- The dimension of a module's last hop from the anchor: the highest in which they differ. -/
def WlkSt.lastDim (w : WlkSt) (anchor id : Nat) : Option Nat :=
  (List.range 6).reverse.find? fun d => w.coord anchor d != w.coord id d

/-! ## Membership (R436) -/

/-- Members of the group. -/
def State.groupSize (s : State) : Nat := s.wlk.w.toNat * s.wlk.d.toNat * (if s.wlk.m == 0 then 131072 else s.wlk.m.toNat)
def State.members (s : State) : List Nat := (List.range s.groupSize).map s.member
/-- Whether a module is a member that is not lost. -/
def State.liveMember (s : State) (id : Nat) : Bool :=
  s.members.contains id && !s.wlk.dead.contains id && !s.wlk.lostMembers.any fun m => m.1 == id
/-- Whether the group runs (GSTATE 2 or 3). -/
def State.grouped (s : State) : Bool := s.wlk.gstate == .formed || s.wlk.gstate == .degraded
/-- Whether a partition takes part in the group that runs. -/
def State.inGroup (s : State) (p : Nat) : Bool := s.grouped && s.wlk.parts.getLsbD p
/-- Whether this module is the acting anchor. -/
def State.isAnchor (s : State) : Bool := s.wlk.anchor == s.wlk.moduleId

/-! ## The tree (R442) -/

/-- The neighbour of a module in a dimension and direction. -/
def WlkSt.next (w : WlkSt) (id d : Nat) (minus : Bool) : Nat :=
  let n := 2 ^ w.len d
  let a := w.coord id d
  w.withCoord id d (if minus then (a + n - 1) % n else (a + 1) % n)

/-- Whether a hop cannot be taken, as far as this module knows: its end is dead or has left, or the port here that it uses is down. -/
def State.blocked (s : State) (id d : Nat) (minus : Bool) : Bool :=
  let far := s.wlk.next id d minus
  s.wlk.dead.contains far || (s.wlk.lostMembers.any fun m => m.1 == far) || (id == s.myId && !s.usable (portOf d minus))
    || (far == s.myId && !s.usable (portOf d (!minus)))

/-- The last hop of the way within a dimension: the module before the target, and the direction into it. Where a hop cannot be taken
the way turns to the other direction and keeps it (R430). -/
def State.lastHop (s : State) (d target : Nat) : Nat → Nat → Bool → Option (Nat × Bool)
  | 0, _, _ => none
  | n + 1, id, minus =>
    let m := if s.blocked id d minus then !minus else minus
    if s.blocked id d m then none
    else if s.wlk.next id d m == target then some (id, m) else s.lastHop d target n (s.wlk.next id d m) m

/-- The last hop of the route from the acting anchor to a module: the dimension, the module before it and the direction. -/
def State.hopTo (s : State) (id : Nat) : Option (Nat × Nat × Bool) :=
  let w := s.wlk
  let anchor := w.anchor.toNat
  (w.lastDim anchor id).bind fun d =>
    let n := 2 ^ w.len d
    let a := w.coord anchor d
    (s.lastHop d id (2 * n) (w.withCoord id d a) (goesMinus a (w.coord id d) n)).map fun h => (d, h.1, h.2)

/-- The time parent of a module: one hop back on the route from the anchor. -/
def State.parentOf (s : State) (id : Nat) : Option Nat := (s.hopTo id).map (·.2.1)

/-- The port of this module that faces its parent. -/
def State.parentPort (s : State) : Option Nat := (s.hopTo s.myId).map fun h => portOf h.1 (!h.2.2)

/-- Hops of a module from the acting anchor, of which those in the last dimension follow its last hop's direction. -/
def State.depthOf (s : State) (id : Nat) : Nat :=
  let w := s.wlk
  let anchor := w.anchor.toNat
  ((List.range 6).map fun d =>
    let n := 2 ^ w.len d
    let a := w.coord anchor d
    let b := w.coord id d
    match s.hopTo id with
    | some (e, _, m) => if e == d then (if m then (a + n - b) % n else (b + n - a) % n) else hopsOf a b n
    | none => hopsOf a b n).sum

/-- The live children of this module on the time tree. -/
def State.children (s : State) : List Nat :=
  let w := s.wlk
  let near := (List.range 12).filterMap fun q => if w.len (dimOf q) == 0 then none else some (w.farEnd q).1
  near.eraseDups.filter fun id => s.liveMember id && s.parentOf id == some s.myId

/-! ## The barrier (R441) -/

/-- A BARRIER packet. -/
def State.barrierMsg (s : State) (dst p : Nat) (step : Word) (go : Bool) : Packet :=
  { s.newPacket 5 dst p with body := toBytes 4 step.toNat ++ [BitVec.ofNat 8 (p + 16 * b2n go)] ++ List.replicate 11 0 }

/-- go for a step: passed to the children, and to others whose arrival came here; the next list may be published. -/
def State.barrierGo (s : State) (p : Nat) (step : Word) : State :=
  let others := s.children ++ (s.obPart p).barrierKids.filter fun id => s.liveMember id && !s.children.contains id
  let s := s.modObPart p fun o => { o with goStep := step, barrierKids := [], barrierSent := false }
  s.each others fun s id => s.send (s.barrierMsg id p step true) none

/-- This module's arrival at the barrier of the step in flight, once its updates are complete and its live children have
arrived: arrive to the parent, or go from the anchor. Between the lists of a step whose lists the anchor writes for all, the barrier
stands for the draft list's updates (log entry 19). -/
def State.barrierTry (s : State) (p : Nat) : State :=
  let o := s.obPart p
  if s.inGroup p && (o.phase == .idle || (o.phase == .updating && o.running.isNone)) && !o.barrierSent && o.step == o.goStep + 1 && s.children.all o.barrierKids.contains then
    if s.isAnchor then s.barrierGo p o.step
    else
      match s.parentOf s.myId with
      | some up => (s.modObPart p fun o => { o with barrierSent := true }).send (s.barrierMsg up p o.step false) none
      | none => s
  else s

/-- Whether a partition may publish its next list as far as its group allows (R440, R441). -/
def State.barrierOpen (s : State) (p : Nat) : Bool :=
  if s.wlk.gstate == .stopped && s.wlk.parts.getLsbD p then false
  else !s.inGroup p || (s.obPart p).step == (s.obPart p).goStep

end Sys2Proof.Machine
end

