-- ==== Sys2Proof/Machine/Text.lean ====
section
/-! DEFINITION. Tokens and text: UTF-8, pieces and byte-level byte-pair encoding, detokenisation, stop strings (R287 to R291). -/

namespace Sys2Proof.Machine

/-! ## UTF-8 -/

/-- What a byte list begins with: a character of n bytes, the start of one that more bytes may complete, or a maximal
ill-formed subpart of n bytes (R290). -/
inductive U8 where
  | char (n cp : Nat)
  | short
  | bad (n : Nat)
  deriving DecidableEq, Repr

/-- Bounds of the second byte after a lead byte, and the number of bytes; none for a byte that begins no character. -/
def utf8Lead (b : Nat) : Option (Nat × Nat × Nat) :=
  if 0xC2 ≤ b ∧ b ≤ 0xDF then some (2, 0x80, 0xBF)
  else if b == 0xE0 then some (3, 0xA0, 0xBF)
  else if b == 0xED then some (3, 0x80, 0x9F)
  else if 0xE1 ≤ b ∧ b ≤ 0xEF then some (3, 0x80, 0xBF)
  else if b == 0xF0 then some (4, 0x90, 0xBF)
  else if 0xF1 ≤ b ∧ b ≤ 0xF3 then some (4, 0x80, 0xBF)
  else if b == 0xF4 then some (4, 0x80, 0x8F)
  else none

/-- Continuation bytes after the second: how many of `want` are there, and their value. -/
def utf8Rest : Nat → List Nat → Nat → Nat → U8
  | 0, _, v, n => .char n v
  | k + 1, l, v, n =>
    match l with
    | [] => .short
    | b :: r => if 0x80 ≤ b ∧ b ≤ 0xBF then utf8Rest k r (v * 64 + b % 64) (n + 1) else .bad n

/-- The first character of a byte list that is not empty. -/
def utf8 (l : List Byte) : U8 :=
  match l with
  | [] => .short
  | b :: r =>
    let b := b.toNat
    if b < 0x80 then .char 1 b
    else
      match utf8Lead b with
      | none => .bad 1
      | some (n, lo, hi) =>
        match r with
        | [] => .short
        | c :: r => if lo ≤ c.toNat ∧ c.toNat ≤ hi then utf8Rest (n - 2) (r.map (·.toNat)) (b % 2 ^ (7 - n) * 64 + c.toNat % 64) 2 else .bad 1

/-- Characters of a valid text, each with its bytes; none when the text is not valid UTF-8. -/
def utf8Chars : Nat → List Byte → Option (List (List Byte × Nat))
  | _, [] => some []
  | 0, _ => none
  | f + 1, l =>
    match utf8 l with
    | .char n cp => (utf8Chars f (l.drop n)).map fun r => (l.take n, cp) :: r
    | _ => none

/-! ## Pieces and merges (R288) -/

/-- Group of a character in an image's split table. -/
def imgGroup (i : ModelImage) (cp : Nat) : Nat := ((nth none i.split (Config.category i.unicode cp))).getD 255

/-- The pieces of a text as byte strings: a boundary where the group changes, and on both sides of a character of group 255. -/
def imgPieces (i : ModelImage) : List (List Byte × Nat) → List (List Byte)
  | [] => []
  | (b, cp) :: r =>
    match r, imgPieces i r with
    | (_, cp2) :: _, p :: ps => if imgGroup i cp == imgGroup i cp2 && imgGroup i cp != 255 then (b ++ p) :: ps else b :: p :: ps
    | _, ps => b :: ps

/-- The merge of lowest rank for a pair, the first in the table among equal ranks. -/
def mergeOf : List Merge → Nat → Nat → Option Merge
  | [], _, _ => none
  | m :: r, a, b =>
    let rest := mergeOf r a b
    if m.left == a && m.right == b then
      match rest with
      | some n => if n.rank < m.rank then some n else some m
      | none => some m
    else rest

/-- The leftmost pair of lowest rank: its place and merge. -/
def bestMerge (ms : List Merge) : Nat → List Nat → Option (Nat × Merge)
  | at_, a :: b :: r =>
    let later := bestMerge ms (at_ + 1) (b :: r)
    match mergeOf ms a b with
    | none => later
    | some m => match later with
      | some (j, n) => if n.rank < m.rank then some (j, n) else some (at_, m)
      | none => some (at_, m)
  | _, _ => none

/-- Merges applied until none is left. -/
def applyMerges (ms : List Merge) : Nat → List Nat → List Nat
  | 0, l => l
  | f + 1, l =>
    match bestMerge ms 0 l with
    | none => l
    | some (i, m) => applyMerges ms f (l.take i ++ [m.result] ++ l.drop (i + 2))

/-- Token IDs of a valid text (R288). -/
def imgTokens (i : ModelImage) (chars : List (List Byte × Nat)) : List Nat :=
  (imgPieces i chars).flatMap fun p => applyMerges i.merges p.length (p.map fun b => nth 0 i.byteTable b.toNat)

/-- Vocabulary size V. -/
def imgSize (i : ModelImage) : Nat := i.vocab.length
def imgToken (i : ModelImage) (t : Nat) : VocabEntry := nth { bytes := [], control := true } i.vocab t

/-- Whether an image's tables can be used (R287, R288, R297, and the exponent base of R181). -/
def imgOk (i : ModelImage) : Bool :=
  decide (256 ≤ imgSize i) && decide (imgSize i ≤ 1048576) && i.vocab.all (fun v => v.bytes.length ≤ 64)
    && i.split.length == 30 && i.split.all (·.isSome) && Config.unicodeKnown i.unicode
    && i.byteTable.length == 256 && i.byteTable.all (fun t => decide (t < imgSize i) && !(imgToken i t).control)
    && i.merges.all (fun m => [m.left, m.right, m.result].all fun t => decide (t < imgSize i) && !(imgToken i t).control)
    && [16, 32, 64, 128, 256].contains i.pageT && decide (i.expBase.toNat ≤ 0x5D00)

/-! ## Detokenisation (R290) -/

/-- U+FFFD. -/
def fffd : List Byte := [0xEF, 0xBF, 0xBD]

/-- The characters that a byte stream gives so far, and the bytes held back; at the end, held bytes give U+FFFD. -/
def render (final : Bool) : Nat → List Byte → List (List Byte)
  | _, [] => []
  | 0, _ => []
  | f + 1, l =>
    match utf8 l with
    | .char n _ => l.take n :: render final f (l.drop n)
    | .bad n => fffd :: render final f (l.drop n)
    | .short => if final then [fffd] else []

def rendered (final : Bool) (l : List Byte) : List (List Byte) := render final l.length l

/-- The characters that fit in a capacity, and whether all do. -/
def fitChars (cap : Nat) : List (List Byte) → List Byte × Bool
  | [] => ([], true)
  | c :: r =>
    if c.length ≤ cap then
      let x := fitChars (cap - c.length) r
      (c ++ x.1, x.2)
    else ([], false)

/-! ## Stop strings (R291) -/

/-- Whether s ends l's first e bytes. -/
def endsAt (l s : List Byte) (e : Nat) : Bool := decide (s.length ≤ e) && (l.take e).drop (e - s.length) == s

/-- Where the text is cut by the first stop string that completes after byte `from_`: at the first byte at which one
completes, before the one that starts earliest. -/
def stopCut (stops : List (List Byte)) (l : List Byte) : Nat → Nat → Option Nat
  | 0, _ => none
  | f + 1, from_ =>
    let e := from_ + 1
    match (stops.filter fun s => !s.isEmpty && endsAt l s e).map (·.length) with
    | [] => stopCut stops l f e
    | n :: r => some (e - r.foldl max n)

end Sys2Proof.Machine
end

