-- ==== Sys2Proof/Machine/Book.lean ====
section
/-! DEFINITION. Order Book entries: deadlines, states, waits and accounts, side areas, KV pages, token delivery and endings
(R289 to R299, R308, R319, R320, R333, R334, R350, R351). -/

namespace Sys2Proof.Machine

/-! ## Free choices -/

/-- A free choice among n ways (log entry 3). -/
def State.pick (s : State) (n : Nat) : Nat := Config.freeChoice s.time.free n % n

/-- The first of n numbers that satisfies p, from i on, in a circle. -/
def circleFind (p : Nat → Bool) (n : Nat) : Nat → Nat → Option Nat
  | 0, _ => none
  | f + 1, i => if p (i % n) then some (i % n) else circleFind p n f (i + 1)

/-! ## Fields of an entry -/

/-- No deadline (R307). -/
def noDl : Nat := 2 ^ 64 - 1

/-- deadline(s) of R307 and R333. -/
def Entry.deadline (e : Entry) : Nat :=
  if e.accTokens == 0 then (if e.firstDl == 0 then noDl else e.firstDl.toNat)
  else if e.interDl == 0 then noDl else e.lastTime.toNat + e.interDl * 1000

/-- Status FLAGS (R319). -/
def Entry.flags (e : Entry) : Nat :=
  8 * b2n e.toileUsed + 4 * b2n e.truncated + 2 * b2n e.wasPreempted + b2n (e.accTokens != 0)

/-- Status STATE of an ESTATE (R294). -/
def ESt.statusState : ESt → Nat
  | .free => 0
  | .admission => 1
  | .queued => 2
  | .prefill | .decode => 3
  | .preempted => 4
  | .closing => 5

/-- ESTATE code (R294). -/
def ESt.code : ESt → Nat
  | .free => 0
  | .admission => 1
  | .queued => 2
  | .prefill => 3
  | .decode => 4
  | .preempted => 5
  | .closing => 6

/-- Whether an entry holds a live sequence that has not begun to close. -/
def Entry.live (e : Entry) : Bool := e.st != .free && e.st != .closing

/-- A request that a load holds in STATE 2: its input is not tokenised yet (R24). -/
def Entry.held (e : Entry) : Bool := e.st == .queued && e.promptLen == 0

/-- Counts of SIDE_N (R292): bias entries, stop strings, stop tokens. -/
def sideBias (n : BitVec 16) : Nat := n.toNat % 128
def sideStops (n : BitVec 16) : Nat := nbits n.toNat 9 7
def sideStopTokens (n : BitVec 16) : Nat := nbits n.toNat 14 10

/-- The stop strings and the stop tokens of a sequence (R295). -/
def Entry.stops (e : Entry) : List (List Byte) :=
  (List.range (sideStops e.sideN)).map fun k => slice e.sideBytes (512 + 64 * k + 1) (leAt e.sideBytes (512 + 64 * k) 1 % 64)
def Entry.stopTokens (e : Entry) : List Nat :=
  (List.range (sideStopTokens e.sideN)).map fun k => leAt e.sideBytes (768 + 4 * k) 4

/-- The sequences of a partition that are not FREE, by index. -/
def State.seqsOf (s : State) (p : Nat) : List (Nat × Entry) :=
  s.ob.entries.filter fun e => e.2.part.toNat == p && e.2.st != .free

/-- The live sequences that no load holds: those that a drain waits for (R23). -/
def State.draining (s : State) : List (Nat × Entry) := s.ob.entries.filter fun e => e.2.st != .free && !e.2.held

/-- The sequence of a function with a tag. -/
def State.seqTagged (s : State) (fn : Nat) (tag : Word) : Option Nat :=
  (s.ob.entries.find? fun e => e.2.fn == fn && e.2.tag == tag && e.2.st != .free).map (·.1)

/-! ## Status words of requests (R319, R376) -/

/-- The status word of a live sequence written. -/
def State.entryStatus (s : State) (q : Nat) : State :=
  let e := s.entry q
  let w := statusWord e.st.statusState e.flags 0x100 e.tag e.accTokens
  (s.hostWrite e.fn e.statusAddr (toBytes 8 w.toNat)).modEntry q fun e => { e with status := w, statusAt := s.time.now }

/-! ## Client accounts (R350, R351) -/

def State.modAcct (s : State) (c : Nat) (f : Account → Account) : State :=
  s.modOb fun o => { o with accts := tmod {} o.accts c f }

/-- HIST bucket of a wait of w µs (R351). -/
def histBucket (w : Nat) : Nat := if w < 100 then 0 else min 15 (log2 (w / 100) + 1)

/-- A wait of w µs ended (R351). -/
def Account.wait (a : Account) (w : Nat) : Account :=
  { a with
    waitTotal := a.waitTotal + BitVec.ofNat 64 w
    waitMax := BitVec.ofNat 32 (max a.waitMax.toNat (sat32 w))
    hist := tmod 0 a.hist (histBucket w) fun n => satAdd n 1 }

/-! ## Solo mode (R308) -/

/-- SOLO_AUTO binds the live sequence of the partition that reached QUEUED first. -/
def State.soloBind (s : State) (p : Nat) : State :=
  let o := s.obPart p
  if !(o.solo && o.soloAuto) then s
  else
    let cur := s.entry o.soloSeq.toNat
    if cur.st != .free && cur.part.toNat == p then s
    else
      let first := (s.seqsOf p).foldl (fun (m : Option (Nat × Entry)) e =>
        if e.2.queuedSeq == 0 then m
        else match m with
          | some x => if e.2.queuedSeq < x.2.queuedSeq then some e else m
          | none => some e) none
      match first with
      | some (q, _) => s.modObPart p fun o => { o with soloSeq := BitVec.ofNat 14 q }
      | none => s

/-! ## Entry states (R294, R296, R351) -/

/-- The wait of a sequence ends now, in ACC_WAIT and in its client's account. -/
def State.endWait (s : State) (q : Nat) : State :=
  let e := s.entry q
  match e.waitFrom with
  | none => s
  | some t =>
    let w := (s.now - t.toNat) / 1000
    (s.modEntry q fun e => { e with waitFrom := none, accWait := sat32 (e.accWait + w) }).modAcct e.client.toNat fun a => a.wait w

/-- A sequence enters a state. Its wait ends or begins; the first time in QUEUED is numbered and binds solo mode; the prompt
part of its side area returns as prefill ends; the status word is written when its STATE changes. -/
def State.setEst (s : State) (q : Nat) (st : ESt) : State :=
  let old := (s.entry q).st
  if old == st then s
  else
    let s := s.endWait q
    let s := s.modEntry q fun e => { e with
      st := st
      waitFrom := if st == .queued || st == .preempted then some s.time.now else none
      sideKib := if old == .prefill && st == .decode then min e.sideKib 1 else e.sideKib }
    let s := if st == .queued && (s.entry q).queuedSeq == 0 then
        let n := s.ob.queuedCtr + 1
        ((s.modOb fun o => { o with queuedCtr := n }).modEntry q fun e => { e with queuedSeq := n }).soloBind (s.entry q).part.toNat
      else s
    if st == .free || st == .closing || old.statusState == st.statusState then s else s.entryStatus q

/-! ## Side areas (R294, R295, R327) -/

/-- Side areas in use: (KiB offset, KiB length). -/
def State.sideUsed (s : State) : List (Nat × Nat) :=
  (s.ob.entries.filter fun e => e.2.sideKib != 0).map fun e =>
    ((e.2.sideAddr.toNat - s.ob.sideBase.toNat * 1024) / 1024, e.2.sideKib)

/-- KiB that a prompt of n tokens needs. -/
def sideNeed (n : Nat) : Nat := 1 + ceilDiv (4 * n) 1024

/-- Whether a run of the side store is free. -/
def State.sideFits (s : State) (off n : Nat) : Bool :=
  decide (off + n ≤ s.ob.sideSize.toNat) && s.sideUsed.all fun u => decide (off + n ≤ u.1 ∨ u.1 + u.2 ≤ off)

/-- The side block and the prompt token IDs. A SEED of 0 takes the time of admission (R295). -/
def Entry.sideArea (e : Entry) : List Byte :=
  let b := e.sideBytes
  let nb := sideBias e.sideN
  let seed := if zeroAt b 832 8 then toBytes 8 e.admitTime.toNat else slice b 832 8
  slice b 0 (8 * nb) ++ List.replicate (512 - 8 * nb) 0
    ++ ((List.range 4).flatMap fun k =>
        let n := leAt b (512 + 64 * k) 1 % 64
        if k < sideStops e.sideN then slice b (512 + 64 * k) (1 + n) ++ List.replicate (63 - n) 0 else List.replicate 64 0)
    ++ ((List.range 16).flatMap fun k => if k < sideStopTokens e.sideN then slice b (768 + 4 * k) 4 else List.replicate 4 0)
    ++ seed ++ List.replicate 184 0 ++ e.prompt.flatMap (toBytes 4)

/-- A sequence takes a free run of the side store, which one is free (log entry 17), and its side area is written; without
one it stays as it is. -/
def State.placeSide (s : State) (q : Nat) : State :=
  let e := s.entry q
  let n := sideNeed e.promptLen
  let size := s.ob.sideSize.toNat
  match circleFind (fun o => s.sideFits o n) size size (s.pick size) with
  | none => s
  | some off =>
    let a := (s.ob.sideBase.toNat + off) * 1024
    ((s.bump.hubWrite a e.sideArea).modEntry q fun e => { e with sideAddr := BitVec.ofNat 64 a, sideKib := n }).setEst q .queued

/-! ## KV pages (R297 to R299, R346) -/

/-- Bytes of a KV page. -/
def kvPage : Nat := 0x200000

/-- T of the active image. -/
def State.pageT (s : State) : Nat := match s.ob.image with
  | some i => i.pageT
  | none => 16

/-- A page of a partition's pool: which one is free (log entry 17). -/
def State.takePage (s : State) (p : Nat) : Option (Nat × State) :=
  match (s.obPart p).pool with
  | [] => none
  | a :: r =>
    let i := s.pick (r.length + 1)
    some (nth a (a :: r) i, s.bump.modObPart p fun o => { o with pool := dropAt o.pool i })

/-- A directory word written: word k names the page at a, or none for 0. -/
def State.dirWrite (s : State) (q k a : Nat) : State :=
  s.hubWrite ((s.entry q).kvdir.toNat + 8 * k) (toBytes 8 (if a == 0 then 0 else a + 1))

/-- Main pages of a sequence that lie in LPDDR6, and in stacked memory. -/
def Entry.demotedPages (e : Entry) : SMap Nat := e.pages.filter fun x => isLpd x.2
def Entry.stackPages (e : Entry) : SMap Nat := e.pages.filter fun x => !isLpd x.2

/-- Main pages that positions below `upto` need and the sequence lacks, by number. -/
def Entry.lacking (e : Entry) (t upto : Nat) : List Nat :=
  (List.range (ceilDiv upto t)).filter fun j => !e.pages.any fun x => x.1 == j

/-- Pages to allocate for positions below `upto`, with tree pages or without: directory, main, tree. -/
def Entry.pageNeed (e : Entry) (t upto : Nat) (tree : Bool) : Nat :=
  b2n (e.kvdir == 0) + (e.lacking t upto).length + (if tree then (if 32 ≤ t then 1 else 2) - e.treePages.length else 0)

/-- The tree pages of a sequence return to the pool. -/
def State.dropTreePages (s : State) (q : Nat) : State :=
  let e := s.entry q
  if e.treePages.isEmpty then s
  else
    let s := s.modObPart e.part.toNat fun o => { o with pool := o.pool ++ e.treePages }
    let s := s.modEntry q fun e => { e with treePages := [] }
    (s.dirWrite q 0 0).dirWrite q 1 0

/-- One page allocated for the directory, a main page or a tree page. -/
def State.allocDir (s : State) (q : Nat) : State :=
  match s.takePage (s.entry q).part.toNat with
  | none => s
  | some (a, s) => (s.zeroRange a kvPage).modEntry q fun e => { e with kvdir := BitVec.ofNat 64 a }
def State.allocMain (s : State) (q j : Nat) : State :=
  match s.takePage (s.entry q).part.toNat with
  | none => s
  | some (a, s) => (s.modEntry q fun e => { e with pages := tinsert (terase e.pages j) j a }).dirWrite q (2 + j) a
def State.allocTree (s : State) (q : Nat) : State :=
  match s.takePage (s.entry q).part.toNat with
  | none => s
  | some (a, s) =>
    let k := (s.entry q).treePages.length
    (s.modEntry q fun e => { e with treePages := e.treePages ++ [a] }).dirWrite q k a

/-- The pages of R299 allocated, or PAGE_HOLD set: whether the sequence may be listed. -/
def State.ensurePages (s : State) (q upto : Nat) (tree : Bool) : State × Bool :=
  let s := if tree then s else s.dropTreePages q
  let e := s.entry q
  let t := s.pageT
  if (s.obPart e.part.toNat).pool.length < e.pageNeed t upto tree then (s.modEntry q fun e => { e with pageHold := true }, false)
  else
    let s := s.modEntry q fun e => { e with pageHold := false }
    let s := if e.kvdir == 0 then s.allocDir q else s
    let s := s.each (e.lacking t upto) fun s j => s.allocMain q j
    let trees := if tree then (if 32 ≤ t then 1 else 2) - e.treePages.length else 0
    (iter trees (fun s => s.allocTree q) s, true)

/-- Whether the stacked pages of a sequence are zeroed as they return: its client is being revoked, or its partition unbound
(R394, R405). -/
def State.zeroesPages (s : State) (e : Entry) : Bool :=
  (s.thm.clients.any fun c => c.id == e.client && c.revoking) || (s.part e.part.toNat).unbind.isSome

/-- The pages and the side area of a sequence return (R296, R352); those in LPDDR6 are not zeroed, since their key is erased
(R405), and the side area is in an unbinding (R394). -/
def State.returnPages (s : State) (q : Nat) : State :=
  let e := s.entry q
  let p := e.part.toNat
  let back := (e.stackPages.map (·.2)) ++ e.treePages ++ e.targets ++ (if e.kvdir == 0 then [] else [e.kvdir.toNat])
  let s := s.when (s.zeroesPages e) fun s => s.each back fun s a => s.zeroRange a kvPage
  let s := s.when (s.part p).unbind.isSome fun s => s.zeroRange e.sideAddr.toNat (1024 * e.sideKib)
  let gone := e.demotedPages.length
  let s := s.modObPart p fun o => { o with
    pool := o.pool ++ back
    demoteUsed := o.demoteUsed.filter fun d => d.2.1 != q
    demoted := BitVec.ofNat 16 (o.demoted.toNat - gone) }
  s.modEntry q fun e => { e with pages := [], treePages := [], targets := [], kvdir := 0, sideKib := 0, sideAddr := 0 }

/-! ## Text output (R290 to R292, R319) -/

/-- The text output that a sequence's stream gives, within its capacity. -/
def Entry.textNow (e : Entry) (final : Bool) : List Byte := (fitChars e.outTxtCap (rendered final e.stream)).1

/-- Length of the longest common prefix. -/
def commonLen : List Byte → List Byte → Nat
  | a :: r, b :: t => if a == b then commonLen r t + 1 else 0
  | _, _ => 0

/-- The text bytes and then the length word written, where they differ from what stands in host memory. -/
def State.textOut (s : State) (q : Nat) (old new_ : List Byte) : State :=
  let e := s.entry q
  if e.outTxtCap == 0 || old == new_ then s
  else
    let k := commonLen old new_
    let s := if k < new_.length then s.hostWrite e.fn (e.outTxtAddr + BitVec.ofNat 64 (8 + k)) (new_.drop k) else s
    if old.length == new_.length then s else s.hostWrite e.fn e.outTxtAddr (toBytes 8 new_.length)

/-! ## Endings (R296, R308, R320, R322) -/

/-- Ending codes that set TRUNCATED. -/
def truncates (code : Nat) : Bool := [0x104, 0x105, 0x106, 0x108].contains code

/-- The entry freed: pages and side area first, ENDED, solo mode (R296, R308, R351). -/
def State.freeEntry (s : State) (q : Nat) (counted : Bool) : State :=
  let e := s.entry q
  let p := e.part.toNat
  let s := (s.endWait q).returnPages q
  let s := s.modOb fun o => { o with entries := terase o.entries q }
  let s := s.modObPart p fun o => { o with
    listed := o.listed.filter (· != q)
    backup := o.backup.filter fun b => b.1 != q
    solo := o.solo && (o.soloAuto || o.soloSeq.toNat != q) }
  (s.when counted fun s => s.modAcct e.client.toNat fun a => { a with ended := satAdd a.ended 1 }).soloBind p

/-- A sequence ends: final text, the status word with STATE and CODE, and the entry is free. `old` is the text output as it
stands in host memory. -/
def State.closeWith (s : State) (q state code : Nat) (old : List Byte) (counted : Bool) : State :=
  if !(s.entry q).live then s
  else
    let s := s.setEst q .closing
    let s := s.modEntry q fun e => { e with truncated := e.truncated || truncates code }
    let s := s.textOut q old ((s.entry q).textNow true)
    let e := s.entry q
    (s.hostWrite e.fn e.statusAddr (toBytes 8 (statusWord state e.flags code e.tag e.accTokens).toNat)).freeEntry q counted

def State.closeEntry (s : State) (q state code : Nat) : State := s.closeWith q state code ((s.entry q).textNow false) true

/-- A sequence closed by an FLR: nothing is written to the host (R381). -/
def State.dropSeq (s : State) (q : Nat) : State := if (s.entry q).live then s.freeEntry q true else s

/-- Whether a sequence is in a partition's running list (R322). -/
def State.inStep (s : State) (q : Nat) : Bool :=
  let o := s.obPart (s.entry q).part.toNat
  match o.running with
  | some l => o.listed.contains q && l.rows.any fun r => r.kind != 0 && r.seq == q
  | none => false

/-- Cancel with an ending code: at once, or after the running step (R322). -/
def State.cancelSeq (s : State) (q code : Nat) : State :=
  if !(s.entry q).live then s
  else if s.inStep q then s.modEntry q fun e => { e with cancelPending := true, endCode := code }
  else s.closeEntry q 6 code

/-! ## Token delivery (R291, R318 to R320, R333, R334, R341) -/

/-- One token of an output: the entry with it counted and its text joined to the stream, and the code it ends with, by rank. -/
def Entry.feed (e : Entry) (i : ModelImage) (toile : Bool) (tok pos : Nat) : Entry × Option Nat :=
  let v := imgToken i tok
  let stopTok := e.stopTokens.contains tok
  let before := e.stream.length
  let grown := if v.control || stopTok then e.stream else e.stream ++ v.bytes
  let cut := stopCut e.stops grown (grown.length - before) before
  let e := { e with
    accTokens := e.accTokens + 1
    accToile := e.accToile + b2n toile
    toileUsed := e.toileUsed || toile
    stream := match cut with
      | some n => grown.take n
      | none => grown }
  let full := e.outTxtCap != 0 && !(fitChars e.outTxtCap (rendered false e.stream)).2
  let code := if cut.isSome then some 0x101
    else if stopTok then some 0x102
    else if e.maxTokens ≤ e.accTokens then some 0x103
    else if 1048575 ≤ pos then some 0x106
    else if e.outTokCap ≤ e.accTokens then some 0x104
    else if full then some 0x105 else none
  (e, code)

/-- Tokens fed in order until one ends the sequence: the entry, how many were taken, the code. -/
def Entry.feedAll (i : ModelImage) (toile : Bool) : Entry → List Nat → Nat → Nat → Entry × Nat × Option Nat
  | e, [], _, n => (e, n, none)
  | e, t :: r, pos, n =>
    match e.feed i toile t pos with
    | (e, some code) => (e, n + 1, some code)
    | (e, none) => feedAll i toile e r (pos + 1) (n + 1)

/-- A miss counted (R334): of the deadline that applied before the write. -/
def State.miss (s : State) (q : Nat) (first : Bool) : State :=
  let e := s.entry q
  (s.modObPart e.part.toNat fun o => { o with misses := satAdd o.misses 1 }).modAcct e.client.toNat fun a =>
    if first then { a with firstMisses := satAdd a.firstMisses 1 } else { a with interMisses := satAdd a.interMisses 1 }

/-- New tokens of a sequence written: token IDs, text, length word, status word, in this order (R319). `pos` is the position
of the first. -/
def State.deliver (s : State) (q : Nat) (toks : List Nat) (pos : Nat) (toile : Bool) : State :=
  match s.ob.image with
  | none => s
  | some i =>
    let e0 := s.entry q
    let old := e0.textNow false
    let (e, n, code) := Entry.feedAll i toile e0 toks pos 0
    let dl := e0.deadline
    let late := dl != noDl && decide (dl < s.now)
    let s := s.modEntry q fun _ => { e with lastTime := s.time.now, freshResume := false }
    let s := s.hostWrite e.fn (e.outTokAddr + BitVec.ofNat 64 (4 * e0.accTokens))
      ((toks.take n).flatMap fun t => toBytes 4 (t + 2 ^ 31 * b2n toile))
    let s := s.modAcct e.client.toNat fun a => { a with
      tokens := a.tokens + BitVec.ofNat 64 n, toileTokens := a.toileTokens + BitVec.ofNat 64 (n * b2n toile) }
    let s := s.when late fun s => s.miss q (e0.accTokens == 0)
    match code with
    | some c => s.closeWith q 5 c old true
    | none => (s.textOut q old ((s.entry q).textNow false)).entryStatus q

end Sys2Proof.Machine
end

