-- ==== Sys2Proof/Machine/Lists.lean ====
section
/-! DEFINITION. Cutting lists: candidates and their order, the build of the draft and main lists, rows and headers in memory,
publication (R299 to R310), and the monitor's evaluation (R336 to R338). -/

namespace Sys2Proof.Machine

/-! ## Order (R307) -/

/-- Insertion sort by a strict order. -/
def insertBy {α : Type} (lt : α → α → Bool) (a : α) : List α → List α
  | [] => [a]
  | b :: r => if lt a b then a :: b :: r else b :: insertBy lt a r
def sortBy {α : Type} (lt : α → α → Bool) (l : List α) : List α := l.foldl (fun r a => insertBy lt a r) []

/-- The keys of R307: deadline, PRIORITY (greater first), ADMIT_TIME, sequence index. -/
def seqBefore (a b : Nat × Entry) : Bool :=
  if a.2.deadline != b.2.deadline then decide (a.2.deadline < b.2.deadline)
  else if a.2.priority != b.2.priority then decide (b.2.priority < a.2.priority)
  else if a.2.admitTime != b.2.admitTime then decide (a.2.admitTime < b.2.admitTime)
  else decide (a.1 < b.1)

/-- Whether a sequence is in QUEUED, PREFILL or DECODE with its side area in place. -/
def Entry.listable (e : Entry) : Bool :=
  (e.st == .queued || e.st == .prefill || e.st == .decode) && e.sideKib != 0 && !e.held

/-- Whether a partition is served: formed, bound, with list buffers (R322, R329). -/
def State.served (s : State) (p : Nat) : Bool :=
  (s.part p).st == .formed && (s.part p).bound && (s.obPart p).listBase != 0

/-- Restriction to the solo sequence (R308). -/
def PtnOb.soloOnly (o : PtnOb) (l : List (Nat × Entry)) : List (Nat × Entry) :=
  if o.solo then l.filter fun e => e.1 == o.soloSeq.toNat else l

/-- The candidates of the main list, in order (R307). -/
def State.candidates (s : State) (p : Nat) : List (Nat × Entry) :=
  sortBy seqBefore ((s.obPart p).soloOnly ((s.seqsOf p).filter fun e =>
    e.2.listable && !e.2.pageHold && !e.2.toileNext && !e.2.cancelPending))

/-- The candidates of the draft list served by the toile alone, in order (R307). -/
def State.toileCandidates (s : State) (p : Nat) : List (Nat × Entry) :=
  sortBy seqBefore ((s.obPart p).soloOnly ((s.seqsOf p).filter fun e =>
    e.2.st == .decode && e.2.toileNext && !e.2.pageHold && !e.2.cancelPending))

/-- Candidates but for PAGE_HOLD (R343); in solo mode the solo sequence alone can be one (R307, R352). -/
def State.heldSeqs (s : State) (p : Nat) : List (Nat × Entry) :=
  sortBy seqBefore ((s.obPart p).soloOnly ((s.seqsOf p).filter fun e =>
    e.2.listable && e.2.pageHold && !e.2.toileNext && !e.2.cancelPending))

/-! ## Rows of one sequence (R301 to R306, R309, R310) -/

/-- TREE_ROWS of a partition, 1 to 32. -/
def PtnOb.rowsPerTree (o : PtnOb) : Nat := o.treeRows.toNat

/-- A row outside a tree. -/
def plainRow (q kind : Nat) (sample : Bool) (position token : Nat) : Row :=
  { seq := q, kind := kind, sample := sample, toile := false, position := position, node := 0, parent := 0, depth := 0
    token := token, base := 0 }

/-- TREE node word i (1 to 31). -/
def Entry.node (e : Entry) (i : Nat) : Nat := (tget 0 e.tree i).toNat
def nodeToken (w : Nat) : Nat := nbits w 19 0
def nodeParent (w : Nat) : Nat := nbits w 24 20
def nodeDepth (w : Nat) : Nat := nbits w 27 25

/-- The LAG catch-up rows (R306): node word k holds the token fed at POSITION − LAG + k − 1. -/
def catchUp (q : Nat) (e : Entry) : List Row :=
  (List.range e.lag).map fun k => plainRow q 1 false (e.position - e.lag + k) (nodeToken (e.node (k + 1)))

/-- The rows of a prompt chunk (R305). -/
def chunkRows (q : Nat) (e : Entry) : List Row :=
  (List.range (min 256 (e.promptLen - e.position))).map fun k =>
    let pos := e.position + k
    plainRow q 1 (pos + 1 == e.promptLen) pos (nth 0 e.prompt pos)

/-- The verify rows of a tree of n nodes (R310). -/
def verifyRows (q : Nat) (e : Entry) (n : Nat) : List Row :=
  { plainRow q 4 true e.position e.lastToken with node := 0 }
    :: (List.range n).map fun i =>
      let w := e.node (i + 1)
      { plainRow q 4 true (e.position + nodeDepth w) (nodeToken w) with node := i + 1, parent := nodeParent w, depth := nodeDepth w }

/-- Whether a sequence decodes with a tree (R307). -/
def Entry.usesTree (e : Entry) (treeRows : Nat) : Bool := e.st == .decode && decide (1 < treeRows)

/-- The main rows of a sequence. A tree is counted with the TREE_ROWS − 1 nodes it may have, since the toile's tree of this
step is not known as the lists are built (log entry 18). -/
def mainRows (q : Nat) (e : Entry) (treeRows : Nat) : List Row :=
  catchUp q e ++
    (if e.st == .decode then
      if e.usesTree treeRows then
        { plainRow q 4 true e.position e.lastToken with node := 0 }
          :: (List.range (treeRows - 1)).map fun i => { plainRow q 4 true (e.position + 1) 0 with node := i + 1, depth := 1 }
      else [plainRow q 2 true e.position e.lastToken]
    else chunkRows q e)

/-- The positions whose pages the main rows of a sequence need, and whether tree pages (R299, R312). -/
def Entry.pagesWanted (e : Entry) (treeRows : Nat) : Nat × Bool :=
  if e.st == .decode then
    if e.usesTree treeRows then (min (e.position + 1 + min 7 (treeRows - 1)) 0x100000, true)
    else (min (e.position + 1) 0x100000, false)
  else (e.position + min 256 (e.promptLen - e.position), false)

/-- PAGE_HOLD cleared where the pool can supply the pages, in the order of R307 (R299). -/
def State.clearHolds (s : State) (p : Nat) : State :=
  let o := s.obPart p
  let t := s.pageT
  ((s.heldSeqs p).foldl (fun (x : State × Nat) e =>
    let w := e.2.pagesWanted o.rowsPerTree
    let n := e.2.pageNeed t w.1 w.2
    if n ≤ x.2 then (x.1.modEntry e.1 fun e => { e with pageHold := false }, x.2 - n) else x) (s, o.pool.length)).1

/-! ## The build (R304, R307) -/

/-- Runs of rows with BASE set, padded to a multiple of 32. -/
def basedRows : Nat → List (List Row) → List Row
  | _, [] => []
  | n, g :: r => g.map (fun x => { x with base := n }) ++ basedRows (n + g.length) r
def finishRows (gs : List (List Row)) : List Row :=
  let rows := basedRows 0 gs
  rows ++ List.replicate (ceilDiv rows.length 32 * 32 - rows.length) (plainRow 0 0 false 0 0)

/-- The rows of each sequence of a list, padding left out. -/
def groupRows : List Row → List (Nat × List Row)
  | [] => []
  | r :: rest =>
    if r.kind == 0 then groupRows rest
    else
      match groupRows rest with
      | (q, g) :: more => if q == r.seq then (q, r :: g) :: more else (r.seq, [r]) :: (q, g) :: more
      | [] => [(r.seq, [r])]

/-- The main list's sequences with their rows, and the state with their pages allocated. -/
def State.buildMain (s : State) (p : Nat) : State × List (Nat × List Row) :=
  let o := s.obPart p
  let limit := 32 * (o.passesM1.toNat + 1)
  let out := (s.candidates p).foldl (fun (x : State × List (Nat × List Row) × Nat) e =>
    let rows := mainRows e.1 e.2 o.rowsPerTree
    if limit < x.2.2 + rows.length then x
    else
      let w := e.2.pagesWanted o.rowsPerTree
      match x.1.ensurePages e.1 w.1 w.2 with
      | (s, true) => (s, x.2.1 ++ [(e.1, rows)], x.2.2 + rows.length)
      | (s, false) => (s, x.2)) (s, [], 0)
  (out.1, out.2.1)

/-- The toile rows of the draft list (R307, R340). -/
def State.buildToile (s : State) (p : Nat) : State × List (List Row) :=
  ((s.toileCandidates p).take 1024).foldl (fun (x : State × List (List Row)) e =>
    match x.1.ensurePages e.1 (min (e.2.position + 1) 0x100000) false with
    | (s, true) => (s, x.2 ++ [[{ plainRow e.1 3 false e.2.position e.2.lastToken with toile := true }]])
    | (s, false) => (s, x.2)) (s, [])

/-- The draft roots of the main list's trees; a sequence for which the draft list has no room takes a plain row. -/
def State.buildRoots (s : State) (treeRows : Nat) : List (Nat × List Row) → List (List Row) → List (List Row) →
    State × List (List Row) × List (List Row)
  | [], draft, main => (s, draft, main)
  | (q, rows) :: r, draft, main =>
    let e := s.entry q
    if !e.usesTree treeRows then s.buildRoots treeRows r draft (main ++ [rows])
    else if draft.length < 1024 then s.buildRoots treeRows r (draft ++ [[plainRow q 3 false e.position e.lastToken]]) (main ++ [rows])
    else s.buildRoots treeRows r draft (main ++ [catchUp q e ++ [plainRow q 2 true e.position e.lastToken]])

/-- The draft and main lists of a partition (R307). -/
def State.build (s : State) (p : Nat) : State × List Row × List Row :=
  if !s.served p then (s, [], [])
  else
    let s := s.clearHolds p
    let (s, main) := s.buildMain p
    let (s, toile) := s.buildToile p
    let (s, draft, main) := s.buildRoots (s.obPart p).rowsPerTree main toile []
    (s, finishRows draft, finishRows main)

/-- The main list once the trees are known: each tree's real rows in place; a sequence that has ended or is being cancelled is
left out (R306, R310, R317, R322). -/
def State.finishMain (s : State) (p : Nat) (rows : List Row) : List Row :=
  let o := s.obPart p
  finishRows ((groupRows rows).filterMap fun (q, g) =>
    let e := s.entry q
    if !e.listable || e.cancelPending || e.part.toNat != p then none
    else if g.any fun r => r.kind == 4 then some (g.filter (fun r => r.kind != 4) ++ verifyRows q e (min e.treeN (o.listTree - 1)))
    else some g)

/-! ## Prediction (R336, R337) -/

/-- PASSES and P of a list. -/
def passesOf (rows : List Row) : Nat := ceilDiv rows.length 32
def prefillOf (rows : List Row) : Nat := ceilDiv (rows.filter fun r => r.kind == 1).length 128

/-- Table index of a list's shape (R353). -/
def predIndex (lkind : Nat) (rows : List Row) : Nat :=
  if lkind == 1 then passesOf rows - 1 else 32 + (passesOf rows - 1) * 9 + prefillOf rows

/-- A prediction looked up, in units of 100 µs. -/
def PtnOb.lookup (o : PtnOb) (i : Nat) : Nat :=
  let e := tget ({} : Pred) o.preds i
  if e.seen then e.pred else o.cold.toNat

/-- An entry after a segment of m units (R337). -/
def Pred.measured (e : Pred) (m hyst : Nat) : Pred :=
  if !e.seen then { seen := true, run := 0, pred := m }
  else if e.pred < m then { e with pred := m, run := 0 }
  else if m < e.pred then
    if hyst ≤ e.run + 1 then { e with pred := e.pred - 1, run := 0 } else { e with run := e.run + 1 }
  else { e with run := 0 }

/-- A measured segment, in ns, entered under a table index. -/
def State.measured (s : State) (p i ns : Nat) : State :=
  s.modObPart p fun o => { o with preds := tmod {} o.preds i fun e => e.measured (min 4095 (ceilDiv ns 100000)) o.hystNow.toNat }

/-- The monitor's evaluation of a partition (R338, R339), from which DLM_PTN_CFG's values apply (R355). -/
def State.evaluate (s : State) (p : Nat) : State :=
  let s := s.each (s.seqsOf p) fun s e => s.modEntry e.1 fun e => { e with toileNext := false }
  let s := s.modObPart p fun o => { o with hystNow := o.hyst }
  let o := s.obPart p
  let (_, draft, main) := s.build p
  let pd := if draft.isEmpty then 0 else o.lookup (predIndex 1 draft)
  let pm := if main.isEmpty then 0 else o.lookup (predIndex 2 main)
  let s := s.modObPart p fun o => { o with lastPred := BitVec.ofNat 12 (min 0xFFF (pd + pm)) }
  let due := (s.candidates p).filter fun e =>
    e.2.st == .decode && e.2.deadline != noDl && !o.nofall && decide (e.2.lag < 31)
      && decide (e.2.deadline < s.now + (pd + pm) * 100000 + o.marginUs.toNat * 1000)
  (s.each due fun s e => s.modEntry e.1 fun e => { e with toileNext := true }).modObPart p fun o =>
    { o with fallbacks := satAdd o.fallbacks due.length }

/-! ## Publication (R300, R301, R304) -/

/-- The 16 bytes of a row. -/
def Row.bytes (r : Row) : List Byte :=
  toBytes 8 (r.seq + r.kind * 2 ^ 14 + b2n r.sample * 2 ^ 17 + b2n r.toile * 2 ^ 18 + r.position * 2 ^ 20 + r.node * 2 ^ 40
    + r.parent * 2 ^ 45 + r.depth * 2 ^ 50) ++ toBytes 8 (r.token + r.base * 2 ^ 32)

/-- A row read back from its bytes. -/
def rowAt (b : List Byte) (i : Nat) : Row :=
  let lo := leAt b i 8
  let hi := leAt b (i + 8) 8
  { seq := nbits lo 13 0, kind := nbits lo 16 14, sample := nbits lo 17 17 == 1, toile := nbits lo 18 18 == 1
    position := nbits lo 39 20, node := nbits lo 44 40, parent := nbits lo 49 45, depth := nbits lo 52 50
    token := nbits hi 31 0, base := nbits hi 41 32 }

/-- A list's header and rows (R300). -/
def State.listBytes (s : State) (step : Word) (lkind result : Nat) (rows : List Row) : List Byte :=
  let seqs := ((rows.filter fun r => r.kind != 0).map (·.seq)).eraseDups.length
  toBytes 4 step.toNat ++ toBytes 1 lkind ++ toBytes 1 (passesOf rows) ++ toBytes 2 seqs
    ++ toBytes 4 ((s.ob.image.map fun i => i.id.toNat).getD 0) ++ toBytes 4 0 ++ toBytes 8 s.now ++ toBytes 8 result
    ++ List.replicate 32 0 ++ rows.flatMap Row.bytes

/-- The two buffers that the next list takes (R300, R329). -/
def PtnOb.listAt (o : PtnOb) : Nat := o.listBase.toNat + 0x8000 * b2n o.toggle
def PtnOb.resultAt (o : PtnOb) : Nat := o.resultBase.toNat + 0x20000 * b2n o.toggle

/-- The bundles of a list's programs launched on the partition's cores that are in service (R304). -/
def State.launchList (s : State) (p lkind : Nat) : State :=
  let rows := match s.ob.image with
    | some i => i.launches.filter fun l => l.part == p && l.lkind == lkind
    | none => []
  s.each rows fun s l =>
    let k := s.core l.core.toNat
    if k.quar || k.held || !(s.partOf l.core.toNat == some p) then s
    else s.queueLaunch l.core.toNat { writer := .firmware, desc := l.desc, ob := some (p, (s.obPart p).step) }

/-- A list of the group's anchor sent into every other live member's list buffer, 64 bytes a WRITE (R439; log entry 19). -/
def State.sendList (s : State) (p at_ : Nat) (bytes : List Byte) : State :=
  if !(s.inGroup p) || s.wlk.w.toNat * s.wlk.d.toNat ≤ 1 then s
  else
    let others := s.members.filter fun id => id != s.myId && s.liveMember id
    s.each others fun s id =>
      s.each (List.range (ceilDiv bytes.length 64)) fun s k =>
        (s.modWlk fun w => { w with listOut := id :: w.listOut }).send
          { s.newPacket 1 id p with gaddr := BitVec.ofNat 41 (at_ / 64 + k), etag := listTag, body := slice bytes (64 * k) 64 } none

/-- Whether a partition's lists come from its group's anchor, each list then a round of the barrier (R439, R441; DEDUCED, log entry
19). -/
def State.sharesLists (s : State) (p : Nat) : Bool := s.inGroup p && decide (1 < s.wlk.w.toNat * s.wlk.d.toNat)

/-- Step limit in ms; 0 selects 100 (R328). -/
def PtnOb.limitMs (o : PtnOb) : Nat := if o.stepLimitMs == 0 then 100 else o.stepLimitMs.toNat

/-- A list published: written to its buffer, its programs launched, the partition's step state set (R300, R304, R330). -/
def State.publish (s : State) (p lkind : Nat) (rows : List Row) : State :=
  let o := s.obPart p
  let bytes := s.listBytes o.step lkind o.resultAt rows
  let s := (s.hubWrite o.listAt bytes).sendList p o.listAt bytes
  let seqs := ((rows.filter fun r => r.kind != 0).map (·.seq)).eraseDups
  let s := s.modObPart p fun x => { x with
    toggle := !x.toggle
    phase := if lkind == 1 then .draft else .main
    goStep := if x.goStep == x.step then x.step - 1 else x.goStep
    rows := rows.length
    running := some { result := o.resultAt, lkind := lkind, rows := rows, publishAt := s.time.now }
    listed := (x.listed ++ seqs).eraseDups }
  let s := if lkind == 2 then s.each seqs fun s q => if (s.entry q).st == .queued then s.setEst q .prefill else s else s
  s.launchList p lkind

/-- Whether a bundle that the engine launched for a partition is in BSTATE 1 (R321). -/
def State.obBundles (s : State) (p : Nat) : Bool :=
  s.cores.any fun c => c.2.bundles.any fun b => b.2.st == .running && (b.2.obPart.map (·.1)) == some p

/-- Whether a step stands between its lists: the draft list's results are taken and the main list waits for the barrier's go. -/
def PtnOb.between (o : PtnOb) : Bool := o.phase == .updating && o.running.isNone

/-- Whether a partition's next list may be published now (R31, R321, R441, R545). -/
def State.mayPublish (s : State) (p : Nat) : Bool :=
  let o := s.obPart p
  o.phase == .idle && s.served p && s.ob.image.isSome && !s.ob.hold && s.barrierOpen p && !(o.waitBundles && s.obBundles p)

/-- Whether this module is a member that takes its lists from the group's anchor (R439). -/
def State.takesLists (s : State) (p : Nat) : Bool :=
  s.sharesLists p && !s.isAnchor

/-- The list that the anchor has put into this member's buffer, published if it is the next one (R439). -/
def State.publishTaken (s : State) (p : Nat) : State :=
  let o := s.obPart p
  let b := s.bytesAt o.listAt 64
  let step := BitVec.ofNat 32 (leAt b 0 4)
  let lkind := leAt b 4 1
  if (step == o.step + 1 || (step == o.step && lkind == 2)) && (lkind == 1 || lkind == 2) then
    let n := 32 * leAt b 5 1
    let all := s.bytesAt (o.listAt + 64) (16 * n)
    let rows := (List.range n).map fun i => rowAt all (16 * i)
    let s := s.modObPart p fun x => { x with
      toggle := !x.toggle, step := step, phase := if lkind == 1 then .draft else .main, rows := n, listed := []
      goStep := step - 1, barrierSent := false, listLimit := x.limitMs
      running := some { result := o.resultAt, lkind := lkind, rows := rows, publishAt := s.time.now } }
    s.launchList p lkind
  else s

/-- The next list of a partition: evaluation, build, publication; without a row the partition idles (R307, R338). -/
def State.nextList (s : State) (p : Nat) : State :=
  if !s.mayPublish p then s
  else if s.takesLists p then s.publishTaken p
  else
    let s := s.evaluate p
    let (s, draft, main) := s.build p
    if draft.isEmpty && main.isEmpty then s
    else
      let s := s.modObPart p fun o => { o with
        step := o.step + 1, waitBundles := false, listed := [], backup := [], draftSeg := none, segSkewed := false
        listTree := o.rowsPerTree, listLimit := o.limitMs, mainNext := if draft.isEmpty then [] else main }
      if draft.isEmpty then s.publish p 2 main else s.publish p 1 draft

end Sys2Proof.Machine
end

