-- ==== Sys2Proof/Machine/Steps.lean ====
section
/-! DEFINITION. Steps: what the engine does with a finished list, endings and aborts of a step, pre-emption and resumption, and
the registers of the Order Book and of the deadline monitor (R311 to R332, R337, R343 to R358). -/

namespace Sys2Proof.Machine

/-! ## Register writes of the partition block -/

/-- Local address of a register of a partition block (R20). -/
def ptnRegAddr (p off : Nat) : Nat := 0x030010000000 + p * 0x1000000 + off

/-- A VF's write to an `OB_`, `DLM_` or `PTN_` register: dropped, row 3 of the violation table (R244, R324, R353, R384); nothing of a
VF that does not answer (R360, R380). -/
def State.vfDrop (s : State) (vf addr : Nat) : State :=
  if s.reaches (.vf vf) then s.hostViolation vf 3 1 (addr % 0x1000000) else s

/-- A register write that a VF may not make. -/
def State.wideWrite (s : State) (agent : Agent) (addr : Nat) (f : State → State) : State :=
  match agent with
  | .vf n => s.vfDrop n addr
  | _ => f s

/-- The new value of a register whose fields lie each in one half (R8, R362). -/
def mergeWrite (old : Dword) (op : RegOp) : Dword :=
  match op.part with
  | .full => op.value
  | .low => (old &&& 0xFFFFFFFF00000000#64) ||| (op.value &&& 0x00000000FFFFFFFF#64)
  | .high => (old &&& 0x00000000FFFFFFFF#64) ||| (op.value &&& 0xFFFFFFFF00000000#64)

/-! ## Pre-emption (R343 to R346) -/

/-- A sequence pre-empted now (R345). -/
def State.preemptNow (s : State) (q : Nat) (trig : Trigger) : State :=
  let e := s.entry q
  if !(e.st == .prefill || e.st == .decode) then s
  else
    let p := e.part.toNat
    let s := s.dropTreePages q
    let s := s.modEntry q fun e => { e with
      toileNext := false, wasPreempted := true, freshResume := false, pageHold := false, preemptPending := false
      trigger := some trig, resumeAsked := false, treeN := 0, treeDepth := 0, tree := e.tree.filter fun n => decide (n.1 ≤ e.lag)
      preempts := min 4095 (e.preempts + 1), copy := .demoting }
    let s := s.modAcct e.client.toNat fun a => { a with preempts := satAdd a.preempts 1 }
    let s := s.modObPart p fun o => { o with winPages := o.demotePages.toNat, winBase := o.demoteBase.toNat * kvPage }
    s.setEst q .preempted

/-- The window pages of a client that are free: window index and local address (R346). -/
def State.freeWindow (s : State) (p client pages base : Nat) : List (Nat × Nat) :=
  match s.clientKey client with
  | none => []
  | some key => (List.range pages).filterMap fun k =>
      match s.walk p (base + k * kvPage) with
      | none => none
      | some l =>
        if l.size == kvPage && l.key == key && modOf l.addr == s.myId && s.lpdHere (locOf l.addr)
            && !(s.obPart p).demoteUsed.any fun d => d.1 == k then some (k, locOf l.addr) else none

/-- Victim order: lowest PRIORITY, then latest deadline, then latest ADMIT_TIME (R344). -/
def victimBefore (a b : Nat × Entry) : Bool :=
  if a.2.priority != b.2.priority then decide (a.2.priority < b.2.priority)
  else if a.2.deadline != b.2.deadline then decide (b.2.deadline < a.2.deadline)
  else if a.2.admitTime != b.2.admitTime then decide (b.2.admitTime < a.2.admitTime)
  else decide (b.1 < a.1)

/-- Demotion pages of a client free and not yet promised to a sequence being demoted. -/
def State.windowLeft (s : State) (p client : Nat) : Nat :=
  let o := s.obPart p
  let free := (s.freeWindow p client o.demotePages.toNat (o.demoteBase.toNat * kvPage)).length
  let promised := ((s.seqsOf p).filter fun e => e.2.client.toNat == client && e.2.copy == .demoting).map fun e => e.2.stackPages.length
  free - promised.sum

/-- Pool pages that the demotions under way will free. -/
def State.pagesComing (s : State) (p : Nat) : Nat :=
  let o := s.obPart p
  let going := (s.seqsOf p).filter fun e => e.2.copy == .demoting
  let clients := (going.map fun e => e.2.client.toNat).eraseDups
  (clients.map fun c =>
    min (s.freeWindow p c o.demotePages.toNat (o.demoteBase.toNat * kvPage)).length
      ((going.filter fun e => e.2.client.toNat == c).map fun e => e.2.stackPages.length).sum).sum

/-- Victims pre-empted for one held candidate until its pages are free or none remains (R344). `taken` pool pages go to held
candidates before it. -/
def State.victimsFor (s : State) (p : Nat) (h : Nat × Entry) (need taken : Nat) : Nat → State
  | 0 => s
  | f + 1 =>
    let o := s.obPart p
    if taken + need ≤ o.pool.length + s.pagesComing p then s
    else
      let vs := (s.seqsOf p).filter fun e =>
        (e.2.st == .prefill || e.2.st == .decode) && decide (e.2.priority < h.2.priority) && !e.2.freshResume
          && !e.2.cancelPending && !(o.solo && e.1 == o.soloSeq.toNat) && s.windowLeft p e.2.client.toNat != 0
      match sortBy victimBefore vs with
      | [] => s
      | v :: _ => (s.preemptNow v.1 .pages).victimsFor p h need taken f

/-- The Pages trigger at the end of a step's updates (R343). -/
def State.pagesTrigger (s : State) (p : Nat) : State :=
  let t := s.pageT
  let rows := (s.obPart p).rowsPerTree
  ((s.heldSeqs p).foldl (fun (x : State × Nat) h =>
    let w := h.2.pagesWanted rows
    let need := h.2.pageNeed t w.1 w.2
    (x.1.victimsFor p h need x.2 (x.1.seqsOf p).length, x.2 + need)) (s, 0)).1

/-- One main KV page copied, the bytes as the keys give them. -/
def State.copyPage (s : State) (srcKey src dstKey dst : Nat) : State :=
  s.homeWrite 16 dstKey dst (s.keyBytes srcKey src kvPage)

/-- DEMOTION_PAGE_COPY: the next main page of a pre-empted sequence goes to a demotion page of its client; demotion ends when
no page or no demotion page is left, or when a resume has been asked (R346, R352). -/
def execDemotionPageCopy (seq : Nat) (s : State) : Out :=
  let e := s.entry seq
  let p := e.part.toNat
  let o := s.obPart p
  if e.st != .preempted || e.copy != .demoting then .next s
  else if e.resumeAsked then .next (s.modEntry seq fun e => { e with copy := .none })
  else
    match e.stackPages, s.freeWindow p e.client.toNat o.winPages o.winBase, s.clientKey e.client.toNat with
    | (j, src) :: _, (k, dst) :: _, some key =>
      let s := s.copyPage 0 src key dst
      let s := s.modEntry seq fun e => { e with pages := tinsert (terase e.pages j) j dst }
      let s := s.dirWrite seq (2 + j) dst
      .next (s.modObPart p fun o => { o with
        pool := o.pool ++ [src], demoteUsed := (k, seq, dst) :: o.demoteUsed, demoted := satAdd o.demoted 1 })
    | _, _, _ => .next (s.modEntry seq fun e => { e with copy := .none })

/-! ## Resumption (R348, R349) -/

/-- A sequence whose pages are back returns to its work (R348). -/
def State.resumed (s : State) (q : Nat) : State :=
  let e := s.entry q
  let s := s.modEntry q fun e => { e with copy := .none, resumeAsked := false, trigger := none, freshResume := true }
  s.setEst q (if e.position < e.promptLen then .prefill else .decode)

/-- Order of the sequences that resume by themselves. -/
def resumeBefore (a b : Nat × Entry) : Bool :=
  if a.2.priority != b.2.priority then decide (b.2.priority < a.2.priority)
  else if a.2.admitTime != b.2.admitTime then decide (a.2.admitTime < b.2.admitTime) else decide (a.1 < b.1)

/-- Whether a pre-empted sequence may start to resume, but for pool pages (R348). -/
def State.mayResume (s : State) (q : Nat) : Bool :=
  let e := s.entry q
  let p := e.part.toNat
  e.st == .preempted && e.copy != .promoting && !e.cancelPending &&
    (match e.trigger with
    | some .pages =>
      (s.heldSeqs p).all (fun h => decide (h.2.priority ≤ e.priority)) &&
        ((sortBy resumeBefore ((s.seqsOf p).filter fun x => x.2.st == .preempted && x.2.trigger == some .pages
            && x.2.copy != .promoting)).head?.map (·.1)) == some q
    | _ => e.resumeAsked)

/-- n pool pages taken, each a free choice. -/
def State.takePages (s : State) (p : Nat) : Nat → List Nat × State
  | 0 => ([], s)
  | n + 1 =>
    match s.takePage p with
    | none => ([], s)
    | some (a, s) => let r := s.takePages p n; (a :: r.1, r.2)

/-- RESUME_START: once FREE is at least the demoted pages plus 2, the copies back begin (R348). -/
def execResumeStart (seq : Nat) (s : State) : Out :=
  let e := s.entry seq
  let p := e.part.toNat
  let n := e.demotedPages.length
  if s.mayResume seq && n + 2 ≤ (s.obPart p).pool.length then
    if n == 0 then .next (s.resumed seq)
    else
      let r := s.takePages p n
      .next (r.2.modEntry seq fun e => { e with copy := .promoting, targets := r.1 })
  else .next s

/-- PROMOTION_PAGE_COPY: the next demoted page copied back; after the last the sequence resumes (R348). -/
def execPromotionPageCopy (seq : Nat) (s : State) : Out :=
  let e := s.entry seq
  let p := e.part.toNat
  if e.st != .preempted || e.copy != .promoting then .next s
  else
    match e.demotedPages, e.targets with
    | (j, src) :: _, dst :: rest =>
      let s := s.copyPage ((s.clientKey e.client.toNat).getD 0) src 0 dst
      let s := s.modEntry seq fun e => { e with pages := tinsert (terase e.pages j) j dst, targets := rest }
      let s := s.dirWrite seq (2 + j) dst
      let s := s.modObPart p fun o => { o with
        demoteUsed := o.demoteUsed.filter fun d => d.2.2 != src, demoted := BitVec.ofNat 16 (o.demoted.toNat - 1) }
      if (s.entry seq).demotedPages.isEmpty then .next (s.resumed seq) else .next s
    | _, _ => .next s

/-! ## The end of a step (R321, R322, R337, R343) -/

/-- Whether a sequence is in its partition's running step: listed in it, or in the main list that follows the draft list (R322,
R345). -/
def State.inRunningStep (s : State) (q : Nat) : Bool :=
  let o := s.obPart (s.entry q).part.toNat
  o.phase != .idle && (o.listed.contains q || o.mainNext.any fun r => r.kind != 0 && r.seq == q)

/-- Pending cancels of a partition's sequences take effect (R322). -/
def State.doCancels (s : State) (p : Nat) : State :=
  s.each ((s.seqsOf p).filter fun e => e.2.cancelPending && !s.inStep e.1) fun s e =>
    s.closeEntry e.1 6 (if e.2.endCode == 0 then 0x107 else e.2.endCode)

/-- A step is over: cancels, pre-emptions decided for this moment, the Pages trigger, the barrier. -/
def State.stepEnd (s : State) (p : Nat) : State :=
  let s := s.modObPart p fun o => { o with phase := .idle, rows := 0, running := none, mainNext := [], backup := [], draftSeg := none, listed := [] }
  let s := s.doCancels p
  let s := s.each ((s.seqsOf p).filter fun e => e.2.preemptPending) fun s e => s.preemptNow e.1 .host
  (s.pagesTrigger p).barrierTry p

/-- A step that ran to its end: STRIKE cleared, the segments measured (R321, R337). -/
def State.stepSuccess (s : State) (p : Nat) : State :=
  let o := s.obPart p
  let s := s.each o.listed fun s q => s.modEntry q fun e => { e with strike := false }
  let s := match o.draftSeg with
    | some (i, ns) => s.measured p i ns
    | none => s
  let s := match o.running with
    | some l => if l.lkind == 2 && !o.segSkewed then s.measured p (predIndex 2 l.rows) (s.now - l.publishAt.toNat) else s
    | none => s
  s.stepEnd p

/-- A step aborted (R321, R352): no result is taken. Under a lost store every sequence that the step has listed ends with 0x10F;
else the sequences of the running list take a strike, or end at their second. -/
def State.stepAbort (s : State) (p : Nat) (lost : Bool) : State :=
  let o := s.obPart p
  if o.phase == .idle then s
  else
    let seqs := match o.running with
      | some l => if lost then o.listed else (groupRows l.rows).map (·.1) |>.filter o.listed.contains
      | none => o.listed
    let s := s.each o.backup fun s b => s.modEntry b.1 fun e => { e with tree := b.2.1, treeN := b.2.2.1, treeDepth := b.2.2.2 }
    let s := s.modObPart p fun o => { o with
      aborts := satAdd o.aborts 1, running := none, phase := .idle, waitBundles := true, listed := [], backup := [] }
    let s := s.record .contained .module (unitId 0x10 p) 0x0D 1 p (toBytes 4 (seqs.foldl min 16383) ++ toBytes 4 o.step.toNat)
    let s := s.partEvent p .abort
    let s := s.each seqs fun s q =>
      let e := s.entry q
      if !e.live then s
      else if e.cancelPending then s.closeEntry q 6 (if e.endCode == 0 then 0x107 else e.endCode)
      else if lost then s.closeEntry q 7 0x10F
      else if e.strike then s.closeEntry q 7 0x10D
      else s.modEntry q fun e => { e with strike := true }
    s.stepEnd p

/-- Steps of which a launched bundle has aborted (R64, R321); a bundle of an earlier step aborts none. -/
def State.stepSettle (s : State) : State :=
  s.each (List.range 16) fun s p =>
    let o := s.obPart p
    if o.phase != .idle && s.cores.any (fun c => c.2.bundles.any fun b => b.2.aborting && b.2.obPart == some (p, o.step))
    then s.stepAbort p false else s

/-- BUNDLE_END (R43, R321). -/
def execBundleEnd (core : CoreId) (bundle : BitVec 6) (s : State) : Out :=
  let s := s.stepSettle
  if (s.core core.toNat).bundleDone bundle.toNat then .next (s.endBundle core.toNat bundle.toNat) else .next s

/-- KNOT_WATCHDOG_EXPIRY (R61). -/
def execKnotWatchdogExpiry (core : CoreId) (knot : BitVec 4) (t : Dword) (s : State) : Out :=
  .next (((s.at_ t).knotExpiry core.toNat knot).stepSettle)

/-! ## Result records (R316, R317) -/

/-- The tree of a record: its node words, if it names the sequence and respects R309 for at most `most` nodes. -/
def treeRecord (b : List Byte) (q v most : Nat) : Option (List Nat) :=
  let n := leAt b 3 1
  let words := (List.range n).map fun i => leAt b (4 + 4 * i) 4
  let depthOf (i : Nat) : Nat := if i == 0 then 0 else nodeDepth (nth 0 words (i - 1))
  let ok := (List.range n).all fun k =>
    let w := nth 0 words k
    let i := k + 1
    w / 2 ^ 28 == 0 && decide (nodeParent w < i) && nodeDepth w == depthOf (nodeParent w) + 1
      && decide (depthOf k ≤ nodeDepth w) && decide (nodeToken w < v)
  if leAt b 0 2 == q && leAt b 2 1 == 1 && n ≤ most && ok then some words else none

/-- The token of a toile token record. -/
def toileRecord (b : List Byte) (q v : Nat) : Option Nat :=
  let tok := leAt b 12 4
  if leAt b 0 2 == q && leAt b 2 1 == 3 && zeroAt b 3 9 && zeroAt b 16 112 && tok < v then some tok else none

/-- Path nodes in order, each one deeper and the child of the one before. -/
def pathOk (g : List Row) : Nat → Nat → List Nat → Bool
  | _, _, [] => true
  | prev, d, n :: r =>
    n != 0 && g.any (fun x => x.kind == 4 && x.node == n && x.depth == d + 1 && x.parent == prev) && pathOk g n (d + 1) r

/-- The path and bonus of an accept record for a sequence's main rows; the bonus of rows without SAMPLE is not looked at. -/
def acceptRecord (b : List Byte) (q v : Nat) (g : List Row) : Option (List Nat × Nat) :=
  let a := leAt b 4 1
  let path := (List.range a).map fun k => leAt b (5 + k) 1
  let bonus := leAt b 12 4
  if leAt b 0 2 == q && leAt b 2 1 == 2 && leAt b 3 1 == 0 && decide (a ≤ 7) && zeroAt b (5 + a) (7 - a) && zeroAt b 16 112
      && (!(g.any (·.sample)) || bonus < v) && pathOk g 0 0 path then some (path, bonus) else none

/-- The result record of a run of rows. -/
def State.resultOf (s : State) (l : CutList) (g : List Row) : List Byte :=
  s.bytesAt (l.result + 128 * ((g.head?.map (·.base)).getD 0)) 128

/-- A sequence whose record fails a check ends (R317). -/
def State.badRecord (s : State) (p q : Nat) : State :=
  (s.record .contained .module (unitId 0x0A q) 0x0D 2 p (toBytes 4 q ++ toBytes 4 (s.obPart p).step.toNat)).closeEntry q 7 0x10E

/-! ## Updates after a list (R310, R312, R318) -/

/-- The bytes of a KV slot: T of them make a page (log entry 20). -/
def State.slotLen (s : State) : Nat := kvPage / s.pageT

/-- KV of tree slot i moved to a main position (R298, R312). -/
def State.moveSlot (s : State) (q i pos : Nat) : State :=
  let e := s.entry q
  let t := s.pageT
  let n := s.slotLen
  let src := nth 0 e.treePages (i / t) + i % t * n
  let dst := tget 0 e.pages (pos / t) + pos % t * n
  s.homeWrite 16 0 dst (s.bytesAt src n)

/-- A toile token record applied (R318, R340). -/
def State.applyToile (s : State) (q tok : Nat) : State :=
  let s := s.modEntry q fun e => { e with
    position := e.position + 1, lag := e.lag + 1, treeN := 0, treeDepth := 0
    tree := tset 0 e.tree (e.lag + 1) (BitVec.ofNat 32 e.lastToken), lastToken := tok }
  s.deliver q [tok] (s.entry q).position true

/-- A tree record applied (R309, R310). -/
def State.applyTree (s : State) (p q : Nat) (words : List Nat) : State :=
  let e := s.entry q
  let keep := words.filter fun w => decide (e.position + nodeDepth w ≤ 1048575)
  let s := s.modObPart p fun o => { o with backup := (q, e.tree, e.treeN, e.treeDepth) :: o.backup }
  s.modEntry q fun e => { e with
    treeN := keep.length
    treeDepth := (keep.map nodeDepth).foldl max 0
    tree := ((List.range keep.length).zip keep).map (fun w => (w.1 + 1, BitVec.ofNat 32 w.2)) |>.filter fun w => w.2 != 0 }

/-- A sequence that is still listed in the partition's step. -/
def State.stillListed (s : State) (p q : Nat) : Bool := (s.obPart p).listed.contains q && (s.entry q).live

/-- The main list of a step whose draft list's results are taken, published with the sequences that still run; without a row the
step is over (R304, R322). -/
def State.publishMain (s : State) (p : Nat) : State :=
  let main := s.finishMain p (s.obPart p).mainNext
  if main.isEmpty then s.stepSuccess p else (s.publish p 2 main).doCancels p

/-- The draft list's records taken; the main list follows, at once or on the barrier's go, or the step is over (R304, R310, R318,
R322, R340). -/
def State.afterDraft (s : State) (p : Nat) (l : CutList) : State :=
  let v := (s.ob.image.map imgSize).getD 0
  let o := s.obPart p
  let s := s.each (groupRows l.rows) fun s (q, g) =>
    if !s.stillListed p q then s
    else
      let b := s.resultOf l g
      if g.any (·.toile) then
        match toileRecord b q v with
        | some tok => s.applyToile q tok
        | none => s.badRecord p q
      else
        match treeRecord b q v (min 31 (o.listTree - 1)) with
        | some words => s.applyTree p q words
        | none => s.badRecord p q
  let s := s.modObPart p fun o => { o with
    draftSeg := if o.segSkewed then none else some (predIndex 1 l.rows, s.now - l.publishAt.toNat), segSkewed := false }
  if (s.finishMain p o.mainNext).isEmpty then s.stepSuccess p
  else
    let s := s.modObPart p fun o => { o with running := none, phase := .updating }
    if s.sharesLists p then s.barrierTry p else s.publishMain p

/-- An accept record applied to a sequence's main rows (R305, R306, R312). -/
def State.applyAccept (s : State) (q : Nat) (g : List Row) (path : List Nat) (bonus : Nat) : State :=
  let e := s.entry q
  if e.st == .decode then
    let toks := (path.map fun n => ((g.find? fun r => r.kind == 4 && r.node == n).map (·.token)).getD 0) ++ [bonus]
    let s := s.each ((List.range path.length).zip path) fun s x => s.moveSlot q x.2 (e.position + 1 + x.1)
    let s := s.modEntry q fun e => { e with position := e.position + path.length + 1, lastToken := bonus, lag := 0 }
    s.deliver q toks (e.position + 1) false
  else
    let fresh := (g.filter fun r => r.kind == 1 && decide (e.position ≤ r.position)).length
    if g.any (·.sample) then
      let s := (s.modEntry q fun e => { e with position := e.promptLen, lastToken := bonus, lag := 0 }).setEst q .decode
      s.deliver q [bonus] e.promptLen false
    else s.modEntry q fun e => { e with position := e.position + fresh, lag := 0 }

/-- The main list's records taken, and the step is over (R312, R317, R319). -/
def State.afterMain (s : State) (p : Nat) (l : CutList) : State :=
  let v := (s.ob.image.map imgSize).getD 0
  let s := s.each (groupRows l.rows) fun s (q, g) =>
    if !s.stillListed p q then s
    else
      match acceptRecord (s.resultOf l g) q v g with
      | some (path, bonus) => s.applyAccept q g path bonus
      | none => s.badRecord p q
  s.stepSuccess p

/-- The updates of a step's finished list (R319, R330): a member that takes its lists from the anchor holds no entries to update. -/
def State.stepUpdate (s : State) (p : Nat) : State :=
  let o := s.obPart p
  match o.phase, o.running with
  | .updating, some l =>
    if s.takesLists p then s.stepEnd p else if l.lkind == 1 then s.afterDraft p l else s.afterMain p l
  | _, _ => s

/-- A write of OB_STEP_DONE that does not name the running list: ignored, with an absorbed record (R331). -/
def State.strayDone (s : State) (p : Nat) (op : RegOp) : State :=
  s.record .absorbed (acctOf op.agent) (unitId 0x10 p) 0x0D 3 p (toBytes 4 0 ++ toBytes 4 (op.value.toNat / 2 ^ 32))

/-- OB_STEP_DONE (R331): ERR aborts the step; otherwise the engine starts to update the entries, PHASE 3 (R330). The updates
themselves come as the block idles or at the partition's next publication (DESIGN CHOICE, log entry 90). -/
def execObStepDone (part : Nat) (op : RegOp) (t : Dword) (s : State) : Out :=
  let s := s.at_ t
  .next (s.wideWrite op.agent (ptnRegAddr part 0x400018) fun s =>
    let o := s.obPart part
    match o.running with
    | some l =>
      if o.phase != .updating && op.part == .full && bits op.value 63 32 == o.step && op.value.toNat % 256 == l.lkind then
        if bit op.value 8 then s.stepAbort part false else s.modObPart part fun o => { o with phase := .updating }
      else s.strayDone part op
    | none => s.strayDone part op)

/-- CUTTING_LIST_PUBLISH: the updates still due, then the partition's next list as its barrier allows (R307, R441). -/
def execCuttingListPublish (part : Nat) (t : Dword) (s : State) : Out :=
  let s := (s.at_ t).stepUpdate part
  if (s.obPart part).between then .next (if s.barrierOpen part then s.publishMain part else s)
  else .next (s.nextList part)

/-- STEP_LIMIT_EXPIRY: no OB_STEP_DONE within the limit that the list was built with; the step aborts and firmware resets each core
of the partition (R321, R328). -/
def execStepLimitExpiry (part : Nat) (t : Dword) (s : State) : Out :=
  let s := s.at_ t
  let o := s.obPart part
  match o.running with
  | some l =>
    if o.phase != .updating && decide (l.publishAt.toNat + o.listLimit * 1000000 ≤ s.now) then
      .next (((coresOf (s.part part).quads).foldl (fun s c => s.coreReset c) s).stepAbort part false)
    else .next s
  | none => .next s

/-! ## Registers of the Order Book (R326, R328) -/

/-- OB_PEEK_SEL_WRITE: the entry's snapshot (R326). -/
def execObPeekSelWrite (op : RegOp) (s : State) : Out :=
  if isWide op.agent && covers op 13 0 then
    let i := op.value.toNat % 16384
    .next (s.modOb fun o => { o with peekSel := BitVec.ofNat 14 i, peek := tget {} o.entries i })
  else .next s

/-- OB_PTN_CFG as a word (R328). -/
def PtnOb.cfgWord (o : PtnOb) : Dword :=
  fld o.stepLimitMs.toNat 48 ||| fld o.passesM1.toNat 32 ||| fld o.treeRows.toNat 20 ||| fld (b2n o.solo) 15
    ||| fld (b2n o.soloAuto) 14 ||| fld o.soloSeq.toNat 0

/-- OB_PTN_CFG_WRITE (R328): a TREE_ROWS outside 1 to 32 leaves the register unchanged with an absorbed record. -/
def execObPtnCfgWrite (part : Nat) (op : RegOp) (s : State) : Out :=
  .next (s.wideWrite op.agent (ptnRegAddr part 0x400000) fun s =>
    let v := mergeWrite (s.obPart part).cfgWord op
    let rows := nbits v.toNat 25 20
    if rows == 0 || 32 < rows then s.refusedWrite (unitId 0x10 part) part (ptnRegAddr part 0x400000) (acctOf op.agent)
    else
      (s.modObPart part fun o => { o with
        stepLimitMs := bits v 63 48, passesM1 := bits v 36 32, treeRows := bits v 25 20
        solo := bit v 15, soloAuto := bit v 14, soloSeq := bits v 13 0 }).soloBind part)

/-! ## Registers of the deadline monitor (R354, R355) -/

/-- DLM_ACCT_SEL_WRITE: the account's snapshot (R354). -/
def execDlmAcctSelWrite (op : RegOp) (s : State) : Out :=
  if isWide op.agent && covers op 11 0 then
    let c := op.value.toNat % 4096
    .next (s.modOb fun o => { o with acctSel := BitVec.ofNat 12 c, acctPeek := tget {} o.accts c })
  else .next s

/-- ACCT_CLEAR_ALL (R354). -/
def execAcctClearAll (agent : Agent) (s : State) : Out :=
  if isWide agent then
    .next (s.modOb fun o => { o with
      accts := if s.time.now == 0 then [] else (List.range 4096).map fun c => (c, { since := s.time.now }) })
  else .next s

/-- ACCT_CLEAR_CLIENT (R354). -/
def execAcctClearClient (agent : Agent) (client : BitVec 12) (s : State) : Out :=
  if isWide agent then .next (s.modAcct client.toNat fun _ => { since := s.time.now }) else .next s

/-- SEEN and RUN cleared in every prediction entry (R355). -/
def State.clearPreds (s : State) (p : Nat) : State :=
  s.modObPart p fun o => { o with preds := (o.preds.map fun e => (e.1, { e.2 with seen := false, run := 0 })).filter fun e => e.2 != {} }

/-- DLM_PTN_CFG as a word (R355). -/
def PtnOb.dlmWord (o : PtnOb) : Dword :=
  fld o.marginUs.toNat 48 ||| fld o.cold.toNat 36 ||| fld o.hyst.toNat 32 ||| fld (b2n o.nofall) 1

/-- DLM_PTN_CFG_WRITE (R355): HYST 0 leaves the register unchanged with an absorbed record. -/
def execDlmPtnCfgWrite (part : Nat) (op : RegOp) (s : State) : Out :=
  .next (s.wideWrite op.agent (ptnRegAddr part 0x480000) fun s =>
    let v := mergeWrite (s.obPart part).dlmWord op
    if nbits v.toNat 35 32 == 0 then s.refusedWrite (unitId 0x10 part) part (ptnRegAddr part 0x480000) (acctOf op.agent)
    else
      let s := s.modObPart part fun o => { o with
        marginUs := bits v 63 48, cold := bits v 47 36, hyst := bits v 35 32, nofall := bit v 1 }
      s.when (covers op 0 0 && bit op.value 0) fun s => s.clearPreds part)

/-- PREDICTION_CLEAR: the CLEAR bit of DLM_PTN_CFG (R355). -/
def execPredictionClear (part : Nat) (agent : Agent) (s : State) : Out :=
  .next (s.wideWrite agent (ptnRegAddr part 0x480000) fun s => s.clearPreds part)

end Sys2Proof.Machine
end

