-- ==== Sys2Proof/Machine/Commands.lean ====
section
/-! DEFINITION. Ring entries that the module has read: requests and the commands on sequences, and their admission (R288, R289,
R294, R322, R368 to R378). -/

namespace Sys2Proof.Machine

/-! ## Entries read and waiting -/

/-- Place of the oldest entry of a function's ring among those read. -/
def HifSt.inboxAt (h : HifSt) (fn ring : Nat) : Option Nat := findIdx (fun e => e.fn == fn && e.ring == ring) h.inbox

/-- The oldest entry of a function's ring. -/
def State.front (s : State) (fn ring : Nat) : Option InEntry := (s.hif.inboxAt fn ring).bind fun i => s.hif.inbox[i]?

/-- The state without it. -/
def State.dropFront (s : State) (fn ring : Nat) : State :=
  match s.hif.inboxAt fn ring with
  | some i => s.modHif fun h => { h with inbox := dropAt h.inbox i }
  | none => s

/-- TAG and STATUS_ADDR of an entry of either ring (R370, R372). -/
def InEntry.tag (e : InEntry) : Word := BitVec.ofNat 32 (leAt e.bytes 4 4)
def InEntry.statusAddr (e : InEntry) : Dword := BitVec.ofNat 64 (leAt e.bytes 8 8)

/-- A status word of an entry that holds no live thing. -/
def State.entryWord (s : State) (e : InEntry) (st code : Nat) : State :=
  s.hostWrite e.fn e.statusAddr (toBytes 8 (statusWord st 0 code e.tag 0).toNat)

/-- An entry refused by the checks of its fields: STATE 7 with the code, and row 13 of the violation table (R370, R384). -/
def State.refuseEntry (s : State) (e : InEntry) (code : Nat) : State := (s.entryWord e 7 code).hostViolation e.fn 13 4 e.addr

/-! ## Commands in general (R372, R373) -/

/-- Checks common to the commands: bytes 1 to 3 and the parameter bytes that the opcode does not use are 0, the function may
issue it, the tag is not live (R372, R373, R378); in PHASE 7 only FW_ACTIVATE is served (R559; the code is the model's, log entry 100). -/
def State.cmdCodes (s : State) (e : InEntry) (allowed : Bool) (unused : List (Nat × Nat)) : List Nat :=
  (if zeroAt e.bytes 1 3 && unused.all (fun u => zeroAt e.bytes u.1 u.2) then [] else [2])
    ++ (if (s.liveCmd e.fn e.tag).isSome then [5] else []) ++ (if allowed && (s.boot.phase != 7 || leAt e.bytes 0 1 == 0x15) then [] else [7])

/-- A command accepted: its status word with STATE 1, and the command is live (R369, R376). -/
def State.acceptCmd (s : State) (e : InEntry) (kind : CmdKind) : State :=
  let c : LiveCmd := { fn := e.fn, tag := e.tag, kind := kind, statusAddr := e.statusAddr, state := 1, code := 0, count := 0
                       statusAt := s.time.now }
  (s.modHif fun h => { h with cmds := h.cmds ++ [c] }).writeCmdStatus c

/-- The oldest command entry of a function taken when it carries an opcode: refused by its codes, or handed on. -/
def State.takeCmd (s : State) (fn op : Nat) (codes : State → InEntry → List Nat) (f : State → InEntry → State) : State :=
  match s.front fn 1 with
  | none => s
  | some e =>
    if leAt e.bytes 0 1 != op then s
    else
      let s := s.dropFront fn 1
      match lowest (codes s e) with
      | some code => s.refuseEntry e code
      | none => f s e

/-! ## CANCEL, PREEMPT, RESUME (R322, R343, R348, R373) -/

/-- The checks of the three commands on sequences: byte 20 names a VF from PF0, and is 0 from a VF. -/
def seqCmdCodes (s : State) (e : InEntry) : List Nat :=
  let vf := leAt e.bytes 20 1
  s.cmdCodes e true [(21, 43)] ++ (if e.fn == 0 then (if 1 ≤ vf ∧ vf ≤ 16 then [] else [4]) else if vf == 0 then [] else [4])

/-- A command on a sequence: accepted, and ended at once with the code the Order Book answers. -/
def State.seqCmd (s : State) (fn op : Nat) (act : State → Nat → State × Nat) : State :=
  s.takeCmd fn op seqCmdCodes fun s e =>
    let s := s.entryWord e 1 0
    let vf := if fn == 0 then leAt e.bytes 20 1 else fn
    match s.seqTagged vf (BitVec.ofNat 32 (leAt e.bytes 16 4)) with
    | none => s.entryWord e 7 9
    | some q =>
      let r := act s q
      r.1.entryWord e (if r.2 == 0 then 5 else 7) r.2

/-- CANCEL (R322). -/
def execCancel (fn : Nat) (s : State) : Out := .next (s.seqCmd fn 1 fun s q => (s.cancelSeq q 0x107, 0))

/-- PREEMPT: at once, or after the running step (R322, R343, R345). -/
def execPreempt (fn : Nat) (s : State) : Out :=
  .next (s.seqCmd fn 2 fun s q =>
    let e := s.entry q
    if e.st == .prefill || e.st == .decode then
      (if s.inRunningStep q then s.modEntry q fun e => { e with preemptPending := true } else s.preemptNow q .host, 0)
    else (s, 0xA))

/-- RESUME (R348, R352). -/
def execResume (fn : Nat) (s : State) : Out :=
  .next (s.seqCmd fn 3 fun s q =>
    if (s.entry q).st == .preempted then (s.modEntry q fun e => { e with resumeAsked := true }, 0) else (s, 0xA))

/-! ## Requests (R289, R370, R371) -/

/-- Whether a client is granted to a partition (R404). -/
def State.granted (s : State) (client part : Nat) : Bool :=
  s.thm.clients.any fun c => c.id.toNat == client && c.part == part && !c.revoking

/-- The codes that the fields of a request earn (R370, R378, R439). -/
def State.requestCodes (s : State) (e : InEntry) : List Nat :=
  let b := e.bytes
  let part := e.fn - 1
  let format := leAt b 0 1
  let text := format % 2 == 1
  let inA := leAt b 16 8
  let n := leAt b 24 4
  let out := leAt b 32 8
  let maxT := leAt b 28 4
  let tokCap := leAt b 40 4
  let txtCap := leAt b 44 4
  (if format / 2 != 0 || leAt b 1 1 / 16 != 0 || leAt b 2 2 / 4096 != 0 then [2] else [])
    ++ (if s.granted (leAt b 2 2 % 4096) part then [] else [6])
    ++ (if (s.seqTagged e.fn e.tag).isSome then [5] else [])
    ++ (if inA == 0 || (!text && inA % 4 != 0) || out == 0 || out % 8 != 0 || leAt b 56 8 % 8 != 0 then [3] else [])
    ++ (if n == 0 || (!text && 1048575 < n) then [0x10B] else if text && 67108864 < n then [4] else [])
    ++ (if maxT == 0 || 1048576 < maxT || tokCap == 0 || 1048576 < tokCap || 67108864 < txtCap then [4] else [])
    ++ (if s.ob.image.isNone && s.ob.load.isNone then [0xD] else [])
    ++ (if s.inGroup part && 1 < s.wlk.w.toNat * s.wlk.d.toNat && !s.isAnchor then [7] else [])

/-- The parameter block, or the defaults of R371. -/
def defaultParams : List Byte := List.replicate 844 0 ++ toBytes 4 0x3F800000 ++ List.replicate 176 0

/-- Whether the sampler parameters lie in their ranges (R289, R292). -/
def samplerOk (b : List Byte) : Bool :=
  let temp := leAt b 840 4
  let topP := leAt b 844 4
  let n : BitVec 16 := BitVec.ofNat 16 (leAt b 850 2)
  (decide (temp < 0x7F800000) || temp == 0x80000000) && decide (0 < topP) && decide (topP ≤ 0x3F800000)
    && decide (leAt b 848 2 ≤ 1024) && decide (sideBias n ≤ 64) && decide (sideStops n ≤ 4) && decide (sideStopTokens n ≤ 16)
    && !bit n 15 && (List.range (min (sideStops n) 4)).all fun k => let l := leAt b (512 + 64 * k) 1; decide (1 ≤ l) && decide (l ≤ 63)

/-- The codes of R289 that need the active image's tables: token IDs among the stop tokens and biases, and the prompt's. The
prompt's token IDs come with them. -/
def admitCodes (i : ModelImage) (text : Bool) (input side : List Byte) (sideN : BitVec 16) : List Nat × List Nat :=
  let v := imgSize i
  let ids := if text then imgTokens i ((utf8Chars input.length input).getD [])
    else (List.range (input.length / 4)).map fun k => leAt input (4 * k) 4
  let stops := (List.range (sideStopTokens sideN)).map fun k => leAt side (768 + 4 * k) 4
  let biases := (List.range (sideBias sideN)).map fun k => leAt side (8 * k) 4
  ((if (!text && ids.any fun t => decide (v ≤ t)) || stops.any fun t => decide (v ≤ t) then [0x10A] else [])
    ++ (if biases.any fun t => decide (v ≤ t) then [0x10C] else [])
    ++ (if ids.isEmpty || 1048575 < ids.length then [0x10B] else []), ids)

/-- A free Order Book entry: which one is free (log entry 17). -/
def State.freeSeq (s : State) : Option Nat :=
  circleFind (fun q => !s.ob.entries.any fun e => e.1 == q) 16384 16384 (s.pick 16384)

/-- The entry of an accepted request (R292, R293, R370). -/
def InEntry.toEntry (e : InEntry) (now : Dword) (text : Bool) (prm input : List Byte) (prompt : List Nat) : Entry :=
  let b := e.bytes
  let cap := leAt b 40 4
  let first := leAt b 48 4
  { st := .admission, priority := BitVec.ofNat 4 (leAt b 1 1), client := BitVec.ofNat 12 (leAt b 2 2), part := BitVec.ofNat 4 (e.fn - 1)
    textIn := text, tag := e.tag, statusAddr := e.statusAddr
    outTokAddr := BitVec.ofNat 64 (leAt b 32 8), outTxtAddr := BitVec.ofNat 64 (leAt b 32 8 + 8 * ceilDiv cap 2)
    outTokCap := cap, outTxtCap := leAt b 44 4
    firstDl := if first == 0 then 0 else now + BitVec.ofNat 64 (first * 1000), interDl := leAt b 52 4
    maxTokens := leAt b 28 4, temp := BitVec.ofNat 32 (leAt prm 840 4), topP := BitVec.ofNat 32 (leAt prm 844 4)
    topK := leAt prm 848 2, sideN := BitVec.ofNat 16 (leAt prm 850 2), sideBytes := prm.take 840
    admitTime := now, lastTime := now, text := if prompt.isEmpty then input else [], prompt := prompt, fn := e.fn
    status := 0, statusAt := now }

/-- A request whose fields pass and whose host reads succeeded: refused by R289, or accepted in STATE 1, and held in STATE 2
while a load runs (R24, R294). -/
def State.admitRequest (s : State) (e : InEntry) (input prm : List Byte) : State :=
  let text := leAt e.bytes 0 1 % 2 == 1
  let held := s.ob.load.isSome
  let sideN : BitVec 16 := BitVec.ofNat 16 (leAt prm 850 2)
  let badText := text && (utf8Chars input.length input).isNone
  let (more, ids) := match s.ob.image with
    | some i => if held || badText then ([], []) else admitCodes i text input prm sideN
    | none => ([], [])
  let codes := (if samplerOk prm then [] else [0x10C]) ++ (if badText then [0x109] else []) ++ more
    ++ (if s.freeSeq.isNone then [0x110] else [])
  match lowest codes, s.freeSeq with
  | some code, _ => s.entryWord e 7 code
  | none, none => s
  | none, some q =>
    let s := (s.bump.modEntry q fun _ => e.toEntry s.time.now text prm input ids).entryStatus q
    if held then s.setEst q .queued else s

/-- REQUEST: the oldest request entry of a function is refused in STATE 7 or accepted in STATE 1 (R369 to R371, R378). -/
def execRequest (fn : Nat) (input params : HostRead) (s : State) : Out :=
  match s.front fn 0 with
  | none => .next s
  | some e =>
    let s := s.dropFront fn 0
    match lowest (s.requestCodes e) with
    | some code => .next (s.refuseEntry e code)
    | none =>
      let n := if leAt e.bytes 0 1 % 2 == 1 then leAt e.bytes 24 4 else 4 * leAt e.bytes 24 4
      match input, (if leAt e.bytes 56 8 == 0 then .ok defaultParams else params) with
      | .ok inp, .ok prm =>
        if zeroAt prm 852 172 then .next (s.admitRequest e (slice inp 0 n) (slice prm 0 1024)) else .next (s.refuseEntry e 2)
      | _, _ => .next (s.refuseEntry e 8)

/-! ## Tokenising and side areas (R24, R288, R294, R296) -/

/-- A held request checked under the image that it will run under: R289 applies then (log entry 21), and a request that it refuses
changes no account (R351). -/
def State.releaseHeld (s : State) (q : Nat) (i : ModelImage) : State :=
  let e := s.entry q
  let (codes, ids) := admitCodes i e.textIn e.text e.sideBytes e.sideN
  match lowest codes with
  | some code => (s.modEntry q fun e => { e with waitFrom := none }).closeWith q 7 code [] false
  | none => (s.modEntry q fun e => { e with prompt := ids, promptLen := ids.length, text := [] }).placeSide q

/-- TOKENISATION_COMPLETE: the prompt's tokens are known and the side area is filled; ADMIT becomes QUEUED. A request that a load
held is tokenised once no load runs (R24, R288, R294). -/
def execTokenisationComplete (seq : Nat) (s : State) : Out :=
  let e := s.entry seq
  if e.st == .admission && e.promptLen == 0 then
    .next ((s.modEntry seq fun e => { e with promptLen := e.prompt.length, text := [] }).placeSide seq)
  else if e.held then
    match s.ob.image, s.ob.load with
    | some i, none => .next (s.releaseHeld seq i)
    | _, _ => .next s
  else .next s

/-- SIDE_AREA_ALLOCATED: a sequence without a side area obtains one once space is free (R294). -/
def execSideAreaAllocated (seq : Nat) (s : State) : Out :=
  let e := s.entry seq
  if (e.st == .admission || e.st == .queued) && e.promptLen != 0 && e.sideKib == 0 then .next (s.placeSide seq) else .next s

end Sys2Proof.Machine
end

