-- ==== Sys2Proof/Machine/Mapping.lean ====
section
/-! DEFINITION. Firmware's own changes of the translation tables: the leaves of the shared mapping and of the demotion windows, and what
the tables name (R22, R216 to R218, R346, R404, R405, R586). -/

namespace Sys2Proof.Machine

/-- The address of the level-2 entry of a virtual address. -/
def State.entryOf (s : State) (part va : Nat) : Option Nat :=
  if (s.part part).xlatBase == 0 || 2 ^ 48 ≤ va then none
  else
    match s.ownStack (s.part part).xlatBase.toNat 0x10000 with
    | none => none
    | some t1 => (s.ptrOk (s.pte t1 (nbits va 47 36)) 0x80000).map fun t2 => t2 + 16 * nbits va 35 21

/-- A 2 MiB entry written by firmware: the physical address and the attribute word. The leaf that stood there may be used until the next
invalidation completes (R218). Where the tables have no level for the address, nothing is mapped (log entry 91). -/
def State.setEntry (s : State) (part va addr word : Nat) : State :=
  match s.entryOf part va with
  | none => s
  | some a =>
    let s := match s.walk part va with
      | some l => s.modPart part fun p => { p with oldLeaves := (va / l.size * l.size, l) :: p.oldLeaves }
      | none => s
    s.hubWrite a (toBytes 8 addr ++ toBytes 8 word)

/-- Attribute words of a valid 2 MiB leaf (R216): read-only and executable, of TYPE Normal; writable under a client's key. -/
def sharedWord : Nat := 3 + 2 ^ 5
def demoteWord (client : Nat) : Nat := 3 + 2 ^ 4 + 2 ^ 6 + client * 2 ^ 8

/-- A page of a size that starts at a physical address, where an entry is a valid leaf whichever key it asks for. -/
def State.leafSpan (s : State) (e : Nat × Nat) (size : Nat) : Option (Nat × Nat) :=
  (s.leafForm e size).map fun _ => (e.1, size)

/-- What the leaves of a partition's translation name: physical address and size (R216). -/
def State.leavesOf (s : State) (part : Nat) : List (Nat × Nat) :=
  match s.ownStack (s.part part).xlatBase.toNat 0x10000 with
  | none => []
  | some t1 =>
    if (s.part part).xlatBase == 0 then []
    else (List.range 4096).flatMap fun i =>
      match s.ptrOk (s.pte t1 i) 0x80000 with
      | none => []
      | some t2 => (List.range 32768).flatMap fun j =>
          let e := s.pte t2 j
          if nbits e.2 1 1 == 1 then (s.leafSpan e 0x200000).toList
          else
            match s.ptrOk e 512 with
            | none => []
            | some t3 => (List.range 32).filterMap fun k => s.leafSpan (s.pte t3 k) 0x10000

/-- The 64 KiB pages of this module that some partition's leaf names, by number. -/
def State.namedPages (s : State) : List Nat :=
  let leaves := ((List.range 16).flatMap s.leavesOf).filter fun l => modOf l.1 == s.myId
  (leaves.flatMap fun l => (List.range (l.2 / 0x10000)).map fun k => locOf l.1 / 0x10000 + k).eraseDups

/-! ## Demotion windows (R346, R404, R405) -/

/-- The virtual pages of a partition's demotion window. -/
def PtnOb.window (o : PtnOb) : List Nat := (List.range o.demotePages.toNat).map fun k => o.demoteBase.toNat * 0x200000 + k * 0x200000

/-- One demotion page mapped for a client: the first window page without a leaf takes an LPDDR6 page that no leaf names; which one is
free (log entry 91). -/
def State.mapDemotePage (s : State) (part client : Nat) : State :=
  let free := (s.obPart part).window.filter fun va => (s.walk part va).isNone
  let n := Config.lpddrBytes / 0x200000
  let named := s.namedPages
  let open_ := (List.range n).filter fun i => (List.range 32).all fun k => !named.contains (lpdBase / 0x10000 + 32 * i + k)
  match free with
  | [] => s
  | va :: _ =>
    match open_ with
    | [] => s
    | i :: r =>
      let at_ := nth i (i :: r) (Config.freeChoice s.time.free (r.length + 1) % (r.length + 1))
      s.bump.setEntry part va (s.myId * 2 ^ 47 + lpdBase + at_ * 0x200000) (demoteWord client)

/-- The demotion pages of a granted client mapped (R404). -/
def State.mapDemote (s : State) (part client n : Nat) : State :=
  if Config.lpddrGiB == 0 || s.mem.lpdOff then s else iter n (fun s => s.mapDemotePage part client) s

/-- The demotion pages of a client unmapped (R405): the entries of its window pages become invalid. -/
def State.unmapDemote (s : State) (part client : Nat) : State :=
  s.each ((s.obPart part).window.filter fun va =>
    match s.entryOf part va with
    | some a => let w := s.natAt (a + 8) 8; nbits w 6 0 % 2 == 1 && nbits w 6 6 == 1 && nbits w 19 8 == client
    | none => false) fun s va => s.setEntry part va 0 0

/-! ## The shared mapping (R22, R23) -/

/-- The partitions whose translation firmware has set. -/
def State.mappedParts (s : State) : List Nat := (List.range 16).filter fun p => (s.part p).xlatBase != 0

/-- The shared read-only mapping switched from one image's pages to another's, in every partition (R22, R23). -/
def State.switchMaps (s : State) (old new_ : List (Nat × Nat)) : State :=
  s.each s.mappedParts fun s p =>
    let s := s.each (old.filter fun m => !(new_.map (·.1)).contains m.1) fun s m => s.setEntry p m.1 0 0
    s.each new_ fun s m => s.setEntry p m.1 (s.myId * 2 ^ 47 + m.2) sharedWord

end Sys2Proof.Machine
end

