-- ==== Sys2Proof/Machine/Image.lean ====
section
/-! DEFINITION. Loading a Model Image (R21 to R30, R374, R411, R586). -/

namespace Sys2Proof.Machine

/-- PHASE code (R29). -/
def ImgPhase.code : ImgPhase → Nat
  | .empty => 0
  | .staging => 1
  | .active => 2
  | .draining => 3
  | .switching => 4
  | .failed => 5

/-- PHASE changed, with vector 2 (R379). -/
def State.setPhase (s : State) (ph : ImgPhase) : State :=
  if s.ob.phase == ph then s else (s.modOb fun o => { o with phase := ph }).msix 0 2

/-- Whether a load is in PHASE 1, 3 or 4. -/
def State.loading (s : State) : Bool := s.ob.load.isSome

/-! ## The space for staging (R26, R586) -/

/-- Bytes of LPDDR6 that some leaf of a partition's translation names. -/
def State.lpdNamed (s : State) : Nat :=
  (s.namedPages.filter fun p => s.lpdHere (p * 0x10000)).length * 0x10000

/-- Stacked KV pages that some partition's pool or sequence holds. -/
def State.heldPages (s : State) : List Nat :=
  (s.ob.ptn.flatMap fun o => o.pool) ++ s.ob.entries.flatMap fun e =>
    e.2.stackPages.map (·.2) ++ e.2.treePages ++ e.2.targets ++ (if e.2.kvdir == 0 then [] else [e.2.kvdir.toNat])

/-- Bytes of stacked memory that the live KV pages hold. -/
def State.kvBytes (s : State) : Nat :=
  (s.ob.entries.map fun e => e.2.stackPages.length + e.2.treePages.length + b2n (e.2.kvdir != 0)).sum * kvPage

/-- The space that LENGTH must fit, and the part of it that is free now (R26, R586). -/
def State.stageSpace (s : State) : Nat × Nat :=
  if Config.lpddrGiB == 0 || s.mem.lpdOff then
    let space := stackTop - 2 ^ 32 - s.ob.imageLen
    (space, space - s.kvBytes)
  else let space := Config.lpddrBytes - s.lpdNamed; (space, space)

/-- The 64 KiB pages that staging may use (R23, R26, R586): of LPDDR6, those that no leaf names; else of stacked memory, those outside
block 0, the active image and the live KV pages. -/
def State.stagePages (s : State) : List Nat :=
  if Config.lpddrGiB == 0 || s.mem.lpdOff then
    let held := s.heldPages
    let image := (s.ob.image.map fun i => i.weights.map fun w => w.1 / 0x10000).getD []
    (List.range (stackTop / 0x10000)).filter fun p =>
      decide (2 ^ 16 ≤ p) && !image.contains p && !held.contains (p / 32 * 32 * 0x10000)
  else
    let named := s.namedPages
    ((List.range (Config.lpddrBytes / 0x10000)).map fun k => lpdBase / 0x10000 + k).filter fun p => !named.contains p

/-- The image's contents written where they are staged; from which page of the staging space on is free (log entry 92). -/
def State.stageBytes (s : State) (bytes : List Byte) : State :=
  if bytes.isEmpty then s
  else
    let pages := s.stagePages
    let from_ := s.pick (pages.length + 1)
    s.bump.each (List.range (ceilDiv bytes.length 0x10000)) fun s k =>
      s.homeWrite 16 0 (nth 0 pages ((from_ + k) % pages.length) * 0x10000) (slice bytes (k * 0x10000) (min 0x10000 (bytes.length - k * 0x10000)))

/-! ## The load (R23 to R28) -/

/-- The checks of LOAD_IMAGE's parameters (R374). -/
def loadCodes (s : State) (e : InEntry) : List Nat :=
  s.cmdCodes e (e.fn == 0) [(38, 26)] ++ (if leAt e.bytes 16 8 == 0 then [3] else [])
    ++ (if leAt e.bytes 24 8 == 0 || leAt e.bytes 32 4 == 0 then [4] else [])

/-- LOAD_IMAGE (R26, R28, R374, R418, R545, R586). -/
def execLoadImage (fn : Nat) (s : State) : Out :=
  .next (s.takeCmd fn 0x10 loadCodes fun s e =>
    let id : BitVec 32 := BitVec.ofNat 32 (leAt e.bytes 32 4)
    let len := leAt e.bytes 24 8
    let s := s.acceptCmd e .loadImage
    if s.loading || s.thm.form.isSome || s.boot.act.isSome then s.cmdEnd fn e.tag 7 0xC
    else if (s.ob.image.map (·.id)) == some id then s.cmdEnd fn e.tag 5 0
    else
      let space := s.stageSpace
      if space.1 < len then (s.modOb fun o => { o with lastCode := 0x011 }).cmdEnd fn e.tag 7 0x11
      else
        let first := decide (space.2 < len)
        let l : Load := { fn := fn, tag := e.tag, src := BitVec.ofNat 64 (leAt e.bytes 16 8), length := len, id := id
                          drainMs := leAt e.bytes 36 2, drainFirst := first, drainAt := if first then some s.time.now else none }
        ((s.modOb fun o => { o with load := some l }).setPhase (if first then .draining else .staging)).cmdState fn e.tag 3)

/-- The command of a load ends, unless an FLR has ended it (R382). -/
def State.loadEnd (s : State) (l : Load) (state code : Nat) : State := if l.orphan then s else s.cmdEnd l.fn l.tag state code

/-- COUNT of a load that stages: some number of MiB from what it was on (R374; free, log entry 3). -/
def State.stageProgress (s : State) (l : Load) : State :=
  match s.liveCmd l.fn l.tag with
  | none => s
  | some c => s.bump.cmdCountTo l.fn l.tag (c.count.toNat + s.pick (ceilDiv l.length 0x100000 - c.count.toNat + 1))

/-- A load fails with a code: the old image stays active (R27). -/
def State.loadFails (s : State) (l : Load) (code : Nat) : State :=
  let s := s.modOb fun o => { o with load := none, memberLoads := [], lastCode := BitVec.ofNat 12 code }
  (s.setPhase (if s.ob.image.isSome then .active else .failed)).loadEnd l 7 code

/-- Whether an image's weights and its shared mapping lie in stacked memory, outside block 0 (R22; DEDUCED, log entry 92). -/
def imgPlaced (i : ModelImage) : Bool :=
  i.weights.all (fun w => decide (2 ^ 32 ≤ w.1) && isStack w.1)
    && i.maps.all fun m => decide (m.1 < 2 ^ 48) && m.1 % 0x200000 == 0 && m.2 % 0x200000 == 0 && isStack m.2

/-- The code that the checks of a staged image give (R23, R288, R297, R411). -/
def State.imageCode (s : State) (l : Load) (i : ModelImage) : Option Nat :=
  if sha512 i.bytes != i.digest then some 0xE
  else if s.policyBit 0 && !signedBy i.digest i.sig (s.thm.otp.owner.toList ++ s.thm.flash.policyKeys) then some 0xF
  else if i.id != l.id || !imgOk i || !imgPlaced i then some 0x10 else none

/-- How the loads of the group's other live members stand, by local ID, out of what all members say (R439). -/
def State.otherLoads (s : State) (loads : List MemberLoad) : List (Nat × MemberLoad) :=
  if !s.grouped then []
  else (List.range s.groupSize).filterMap fun i =>
    if s.member i == s.myId || !s.liveMember (s.member i) then none else some (i, nth .busy loads i)

/-- A load ended by the failure of another member's: code 0x013, and a record that names the member (R439; its source free, log entry
85). -/
def State.memberFailed (s : State) (l : Load) (id : Nat) : State :=
  let code := Config.memberFailCode
  (s.record .contained .module (unitId 0 0) code.1 code.2 noPart (toBytes 4 id)).loadFails l 0x013

/-- This module's image staged, or a failed host read (none): the checks follow (R23, R374, R378). -/
def State.stagedHere (s : State) (image : Option ModelImage) : State :=
  match s.ob.load, s.ob.phase with
  | some l, .staging =>
    match image with
    | none => (s.stageProgress l).loadFails l 8
    | some i =>
      let s := (s.stageBytes i.bytes).cmdCountTo l.fn l.tag (ceilDiv l.length 0x100000)
      match s.imageCode l i with
      | some code => s.loadFails l code
      | none =>
        let s := s.modOb fun o => { o with load := some { l with staged := some i, drainAt := if l.drainFirst then none else some s.time.now } }
        s.setPhase (if l.drainFirst && !s.grouped then .switching else .draining)
  | _, _ => s

/-- What the members say of their loads: another's failure ends a load that stages or drains here (R439). A failure is heard once. -/
def State.heardLoads (s : State) (loads : List MemberLoad) : State :=
  let s := s.modOb fun o => { o with memberLoads := loads.map fun m => if m == .failed then .busy else m }
  match s.ob.load, (s.otherLoads loads).find? fun m => m.2 == .failed with
  | some l, some m => if s.ob.phase == .staging || s.ob.phase == .draining then s.memberFailed l m.1 else s
  | _, _ => s

/-- IMAGE_STAGING_COMPLETE: the last byte is staged, or a host read failed; or the other members say how theirs stand (R23, R439; log
entry 85). -/
def execImageStagingComplete (staged : Staging) (s : State) : Out :=
  match staged with
  | .here image => .next (s.stagedHere image)
  | .members loads => .next (s.heardLoads loads)

/-- IMAGE_DRAIN_COMPLETE: no live sequence is left; the switch, or the staging in the freed memory, begins (R23, R26). In a group the
anchor releases the switch once every member holds the same staged image (R439). -/
def execImageDrainComplete (s : State) : Out :=
  match s.ob.load, s.ob.phase with
  | some l, .draining =>
    if !s.draining.isEmpty then .next s
    else
      match l.staged with
      | none => .next ((s.modOb fun o => { o with load := some { l with drainAt := none } }).setPhase .staging)
      | some i =>
        if (s.otherLoads s.ob.memberLoads).all fun m => m.2 == .staged i.id then
          .next ((s.modOb fun o => { o with load := some { l with drainAt := none } }).setPhase .switching)
        else .next s
  | _, _ => .next s

/-- IMAGE_DRAIN_LIMIT_EXPIRY: the remaining live sequences are cancelled with code 0x108 (R25). -/
def execImageDrainLimitExpiry (t : Dword) (s : State) : Out :=
  let s := s.at_ t
  match s.ob.load, s.ob.phase with
  | some l, .draining =>
    match l.drainAt with
    | some start =>
      if l.drainMs != 0 && decide (start.toNat + l.drainMs * 1000000 ≤ s.now) then
        .next (s.each s.draining fun s e => s.cancelSeq e.1 0x108)
      else .next s
    | none => .next s
  | _, _ => .next s

/-- IMAGE_SWITCH_COMPLETE: the weights and tables are placed, the shared mapping is switched, firmware has rewritten the codebooks and exponent bases, and the
new image is active (R23, R178, R374). -/
def execImageSwitchComplete (s : State) : Out :=
  match s.ob.load, s.ob.phase with
  | some l, .switching =>
    match l.staged with
    | none => .next s
    | some i =>
      let s := s.each i.weights fun s w => s.homeWrite 16 0 w.1 [w.2]
      let s := s.switchMaps ((s.ob.image.map (·.maps)).getD []) i.maps
      let s := s.modOb fun o => { o with image := some i, imageLen := l.length, load := none, memberLoads := [] }
      let s := s.each (List.range 1024) fun s c => s.imageRegs c
      .next ((s.setPhase .active).loadEnd l 5 0)
  | _, _ => .next s

end Sys2Proof.Machine
end

