-- ==== Sys2Proof/Machine/HostIf.lean ====
section
/-! DEFINITION. The host interface: rings, BAR2, message hold-off, configuration requests and timeouts (R359 to R389). -/

namespace Sys2Proof.Machine

/-! ## Functions and IDE (R360, R380) -/

/-- The function that a register access of an agent counts against; firmware's counts against the page's own. -/
def agentFn (a : Agent) (page : Nat) : Nat :=
  match a with
  | .pf0 => 0
  | .vf n => n
  | .firmware => page

/-- Local address of a register of a function page (R385). -/
def fnRegAddr (fn off : Nat) : Nat := if fn == 0 then regBase + off else ptnRegAddr (fn - 1) off

/-- A write to a ring register that an agent may make: a VF only on its own page; PF0 has no ring 0; a function that answers (R360,
R380). -/
def State.ringWritable (s : State) (a : Agent) (fn ring : Nat) : Bool :=
  (match a with
  | .vf n => n == fn
  | _ => true) && decide (ring < 2) && !(fn == 0 && ring == 0) && s.reaches a

/-- A violation of a ring register write: row and class of R384. -/
def State.ringViolation (s : State) (a : Agent) (fn ring off row cls : Nat) : State :=
  s.hostViolation (agentFn a fn) row cls (barOffset a (fnRegAddr fn (off + ring * 0x40)))

/-! ## Ring registers (R388) -/

/-- RING_TAIL_WRITE: TAIL set, unless the ring is disabled or TAIL lies beyond it (R368, R384 row 9). -/
def execRingTailWrite (fn ring : Nat) (op : RegOp) (s : State) : Out :=
  if !s.ringWritable op.agent fn ring || !covers op 11 0 then .next s
  else
    let r := (s.fn fn).ring ring
    let tail := op.value.toNat % 4096
    if !r.enable || 2 ^ r.log2.toNat ≤ tail then .next (s.ringViolation op.agent fn ring 0x110 9 2)
    else .next (s.modFn fn fun f => f.modRing ring fun r => { r with tail := BitVec.ofNat 12 tail })

/-- HIF_RING_BASE_WRITE: ADDR set, unless the ring is enabled; ADDR spans both halves of the register (R362, R384, R388). -/
def execHifRingBaseWrite (fn ring : Nat) (op : RegOp) (s : State) : Out :=
  if !s.ringWritable op.agent fn ring then .next s
  else if op.part != .full then .next (s.spanning op (fnRegAddr fn (0x100 + ring * 0x40)))
  else
    let r := (s.fn fn).ring ring
    let base := bits op.value 63 12
    if r.enable && base != r.base then .next (s.ringViolation op.agent fn ring 0x100 10 2)
    else .next (s.modFn fn fun f => f.modRing ring fun r => { r with base := base })

/-- ENABLE of a ring set or cleared: 0 to 1 empties the ring and clears its error (R388). -/
def Ring.enableTo (r : Ring) (on : Bool) : Ring :=
  if on && !r.enable then { r with enable := true, head := 0, tail := 0, consumed := 0, err := false } else { r with enable := on }

/-- HIF_RING_CFG_WRITE; a write that sets ENABLE is ignored before PHASE 6 (R380, R384, R388, R558); in PHASE 7 PF0's command
ring may run (R559). -/
def execHifRingCfgWrite (fn ring : Nat) (op : RegOp) (s : State) : Out :=
  if !s.ringWritable op.agent fn ring || !covers op 4 0 then .next s
  else
    let r := (s.fn fn).ring ring
    let log2 := nbits op.value.toNat 4 1
    let on := bit op.value 0
    if on && (s.ideHeld fn || decide (s.boot.phase < 6)) then .next s
    else if log2 < 4 || 12 < log2 then .next (s.ringViolation op.agent fn ring 0x108 14 2)
    else
      let fixed := r.enable && log2 != r.log2.toNat
      let s := if fixed then s.ringViolation op.agent fn ring 0x108 10 2 else s
      .next (s.modFn fn fun f => f.modRing ring fun r => { r with log2 := if fixed then r.log2 else BitVec.ofNat 4 log2 }.enableTo on)

/-- HIF_BAR2_BASE_WRITE: BASE must be a multiple of the aperture size (R384 row 14, R389). BASE spans both halves. -/
def execHifBar2BaseWrite (op : RegOp) (s : State) : Out :=
  match op.agent with
  | .vf _ => .next s
  | a =>
    if op.part != .full then .next (s.spanning op (regBase + 0x1008))
    else
      let base := nbits op.value.toNat 46 30
      if base % s.hif.bar2Size != 0 then .next (s.hostViolation (agentFn a 0) 14 2 0x1008)
      else .next (s.modHif fun h => { h with bar2Base := BitVec.ofNat 17 base })

/-! ## Reading ring entries (R368, R384) -/

/-- Whether a ring has an entry to read. -/
def State.ringReady (s : State) (fn ring : Nat) : Bool :=
  let r := (s.fn fn).ring ring
  s.fnUp fn && r.enable && !r.err && r.head != r.tail && !(fn == 0 && ring == 0)

/-- Host address of a ring's next entry. -/
def Ring.next (r : Ring) : Nat := r.base.toNat * 4096 + 64 * r.head.toNat

/-- A ring stops: ERR set, HEAD held (R384 row 11). -/
def State.stopRing (s : State) (fn ring : Nat) : State :=
  let a := ((s.fn fn).ring ring).next
  ((s.modFn fn fun f => f.modRing ring fun r => { r with err := true }).bitMsix fn).hostViolation fn 11 5 a

/-- The opcodes of R373. -/
def opcodeDefined (op : Nat) : Bool := (decide (1 ≤ op) && decide (op ≤ 4)) || (decide (0x10 ≤ op) && decide (op ≤ 0x15))

/-- RING_ENTRY_READ: the next entry is copied and HEAD advances. An entry without a status address is skipped; a reserved opcode
is answered; any other entry waits for its request or command (R368, R373, R384). -/
def execRingEntryRead (fn ring : Nat) (read : HostRead) (s : State) : Out :=
  if !s.ringReady fn ring then .next s
  else
    match read with
    | .failed => .next (s.stopRing fn ring)
    | .ok bytes =>
      let r := (s.fn fn).ring ring
      let e : InEntry := { fn := fn, ring := ring, addr := r.next, bytes := slice bytes 0 64 }
      let s := s.modFn fn fun f => f.modRing ring fun r =>
        { r with head := BitVec.ofNat 12 ((r.head.toNat + 1) % 2 ^ r.log2.toNat), consumed := r.consumed + 1 }
      if e.statusAddr == 0 || e.statusAddr.toNat % 8 != 0 then .next (s.hostViolation fn 12 1 e.addr)
      else if ring == 1 && !opcodeDefined (leAt e.bytes 0 1) then .next (s.refuseEntry e 1)
      else .next (s.modHif fun h => { h with inbox := h.inbox ++ [e] })

/-! ## BAR2 (R363, R364, R384) -/

/-- What a BAR2 access reaches: a local address with its key, or the violation row. -/
def State.bar2Reach (s : State) (fn offset len : Nat) (write : Bool) : (Nat × Nat) ⊕ Nat :=
  let check (a key : Nat) : (Nat × Nat) ⊕ Nat :=
    match s.place a with
    | .stack | .lpd => if s.place (a + len - 1) == s.place a then .inl (a, key) else .inr 5
    | .window c => if s.place (a + len - 1) == .window c then .inl (a, 0) else .inr 5
    | _ => .inr 5
  if fn == 0 then check (s.hif.bar2Base.toNat * 2 ^ 30 + offset) 0
  else
    let f := s.fn fn
    if !f.bar2En then .inr 6
    else
      match s.walk (fn - 1) (f.vbase.toNat * 2 ^ 30 + offset) with
      | none => .inr 6
      | some l =>
        let g := l.at_ (f.vbase.toNat * 2 ^ 30 + offset)
        if modOf g != s.myId || (write && !l.w) then .inr 6 else check (locOf g) l.key

/-- PARTITION byte of a function: a VF's partition, none for PF0. -/
def fnPart (fn : Nat) : Nat := if fn == 0 then noPart else fn - 1

/-- A TLP that failed its IDE check: dropped, its stream Insecure, an absorbed record (R380). -/
def State.ideFailed (s : State) (fn stream offset : Nat) : State :=
  (s.modHif fun h => { h with ide := upd h.ide stream fun _ => .insecure }).record .absorbed (.fn fn) (unitId 0x0C fn) 0x06 1
    (fnPart fn) (toBytes 8 0 ++ toBytes 8 offset)

/-- A read of a function answered with UR, or with CA, as a host violation of a row; AER holds the advisory error (R384). -/
def State.answerUr (s : State) (fn row offset : Nat) : State :=
  (((s.hostViolation fn row 3 offset).modFn fn fun f => { f with aerUr := true })).complete fn 1 []
def State.answerCa (s : State) (fn row offset : Nat) : State :=
  (((s.hostViolation fn row 3 offset).modFn fn fun f => { f with aerCa := true })).complete fn 2 []

/-- Size of a function's BAR2 in GiB (R363). -/
def State.bar2GiB (s : State) (fn : Nat) : Nat := if fn == 0 then s.hif.bar2Size else s.hif.vfBar2Size

/-- Whether a packet of a function is not for its BAR2: the function does not answer, the packet comes outside the IDE stream that it
must come in, or the access ends beyond the aperture (R360, R363, R380). -/
def State.bar2Shut (s : State) (fn offset len : Nat) (tlp : Tlp) : Bool :=
  !s.fnUp fn || s.tlpHeld fn tlp || decide (s.bar2GiB fn * 2 ^ 30 < offset + len)

/-- BAR2_READ: answered with data, UR or CA; a coherent read at the L2 home, which allocates nothing (R243, R364, R380, R384). -/
def execBar2Read (fn offset len : Nat) (tlp : Tlp) (s : State) : Out :=
  if tlp.ideFail then .next (s.ideFailed fn (tlp.stream.getD 0) offset)
  else if s.bar2Shut fn offset len tlp then .next (s.complete fn 1 [])
  else if tlp.poisoned then .next (s.answerUr fn 8 offset)
  else
    match s.bar2Reach fn offset len false with
    | .inr row => .next (s.answerUr fn row offset)
    | .inl (a, key) =>
      if s.damagedAt a len then
        .next ((s.ueRead (s.badAt a len) (fnPart fn)).answerCa fn 7 offset)
      else .next ((s.agentRead false (fnPart fn) a len).complete fn 0 (s.keyBytes key a len))

/-- BAR2_WRITE: performed coherently, or dropped (R222, R364, R380, R384). -/
def execBar2Write (fn offset : Nat) (bytes : List Byte) (tlp : Tlp) (s : State) : Out :=
  if tlp.ideFail then .next (s.ideFailed fn (tlp.stream.getD 0) offset)
  else if s.bar2Shut fn offset bytes.length tlp then .next s
  else if tlp.poisoned then .next (s.hostViolation fn 8 1 offset)
  else
    match s.bar2Reach fn offset bytes.length true with
    | .inr row => .next (s.hostViolation fn row 1 offset)
    | .inl (a, key) => .next (s.homeWrite (fnPart fn) key a bytes)

/-! ## Messages and timeouts (R379, R384) -/

/-- MSIX_HOLDOFF_EXPIRY: one message for the events that fell within the interval (R379). -/
def execMsixHoldoffExpiry (fn vector : Nat) (t : Dword) (s : State) : Out :=
  let s := s.at_ t
  let key := fn * 16 + vector
  let m := tget ({} : MsixSt) s.hif.msix key
  match m.until_ with
  | none => .next s
  | some e =>
    if s.time.now < e then .next s
    else
      let s := s.modHif fun h => { h with msix := terase h.msix key }
      .next (s.when m.merged fun s => s.msix fn vector)

/-- COMPLETION_TIMEOUT: a host read that got no completion. A request in ADMIT fails with code 0x008, a ring with an entry to
read stops, and a load that stages fails (R378, R384). -/
def execCompletionTimeout (fn ring : Nat) (seq : Option Nat) (s : State) : Out :=
  match seq with
  | some q => if (s.entry q).st == .admission && (s.entry q).fn == fn then .next (s.closeWith q 7 8 [] true) else .next s
  | none =>
    if s.ringReady fn ring then .next (s.stopRing fn ring)
    else
      match s.ob.load, s.ob.phase with
      | some l, .staging => if fn == l.fn && !l.orphan then .next ((s.stageProgress l).loadFails l 8) else .next s
      | _, _ => .next s

end Sys2Proof.Machine
end

