-- ==== Sys2Proof/Machine/Thimble.lean ====
section
/-! DEFINITION. The Thimble's requests: roles, results, the ledger, owner and policy, allowances, clients and their keys
(R395 to R410, R416 to R418, R492, R495). -/

namespace Sys2Proof.Machine

/-! ## Roles (R395) -/

/-- The established session with an ID. -/
def State.session (s : State) (id : Nat) : Option Session := s.thm.sessions.find? fun x => x.id == id && x.established

/-- The roles that the keys held by the Thimble give a session's requester: owner, operator, tenant (R395). -/
def State.keyRoles (s : State) (x : Session) : List Role :=
  match x.key with
  | none => []
  | some k =>
    (if s.thm.otp.owner == some k then [.owner] else [])
      ++ (if s.thm.operatorKey == some k || s.thm.otp.owner.isNone then [.operator] else [])
      ++ ((List.range 16).filter fun p => (s.part p).tenantKey == some k).map Role.tenant

/-- The factory's role, for a key of the factory (R395; log entry 9). -/
def factoryRole (x : Session) : List Role := if (x.key.map Config.factoryKey).getD false then [.factory] else []

/-- The roles that a session's requester holds. -/
def State.roles (s : State) (x : Session) : List Role := factoryRole x ++ s.keyRoles x

/-- ROLE of a ledger entry (R417). -/
def roleCode : Role → Nat
  | .factory => 0
  | .owner => 1
  | .operator => 2
  | .tenant _ => 3

/-- PARTITION of a ledger entry. -/
def rolePart : Role → Nat
  | .tenant p => p
  | _ => 0

/-- Which requester roles a request allows. -/
def isOwner (r : Role) : Bool := r == .owner
def isOperator (r : Role) : Bool := r == .operator
def isFactory (r : Role) : Bool := r == .factory
def isTenant : Role → Bool
  | .tenant _ => true
  | _ => false
/-- The partition of a tenant role. -/
def tenantOf : Role → Option Nat
  | .tenant p => some p
  | _ => none

/-! ## The ledger (R417) -/

/-- A value of an entry in 32 bytes: of a 64-byte one, its SHA-512 truncated. -/
def ledgerHash (v : BitVec 512) : BitVec 256 := (sha512 (toBytes 64 v.toNat)).extractLsb' 0 256

/-- The first 224 bytes of an entry, and all 384. -/
def LedgerEntry.body (e : LedgerEntry) : List Byte :=
  toBytes 8 e.seq ++ toBytes 8 e.time.toNat ++ [e.role, e.result, e.opcode, e.part] ++ toBytes 4 e.remaining.toNat
    ++ List.replicate 8 0 ++ toBytes 32 e.old.toNat ++ toBytes 32 e.new_.toNat ++ toBytes 64 e.prev.toNat
    ++ toBytes 64 e.actor.toNat
def LedgerEntry.bytes (e : LedgerEntry) : List Byte := e.body ++ toBytes 132 e.sig.toNat ++ List.replicate 28 0

/-- Whether only the reserved entries remain. -/
def State.ledgerLow (s : State) : Bool := decide (64512 ≤ s.thm.flash.ledger.length)

/-- An entry appended, with vector 5. -/
def State.ledgerAppend (s : State) (role result op part : Nat) (remaining : Nat) (old new_ : BitVec 256) (actor : BitVec 512) : State :=
  let l := s.thm.flash.ledger
  let e : LedgerEntry :=
    { seq := l.length, time := s.time.now, role := BitVec.ofNat 8 role, result := BitVec.ofNat 8 result
      opcode := BitVec.ofNat 8 op, part := BitVec.ofNat 8 part, remaining := BitVec.ofNat 32 remaining, old := old, new_ := new_
      prev := match l with
        | [] => 0
        | x :: _ => sha512 x.bytes
      actor := actor, sig := 0 }
  let e := { e with sig := Config.deviceSign (sha512 e.body) }
  (s.modFlash fun f => { f with ledger := e :: f.ledger }).msix 0 5

/-! ## Requests in general (R397 to R399) -/

/-- What a ledgered request adds to the ledger: previous and requested value, and the allowance left after it, if its setting
has one. -/
structure LedgerInfo where
  old : BitVec 256
  new_ : BitVec 256
  left : Option Nat

/-- A request: opcode, what its ledger entry holds (none: not ledgered), whether an accepted one consumes an allowance. -/
structure ReqKind where
  op : Nat
  ledger : Option LedgerInfo
  consumes : Bool

/-- A response. -/
def State.respond (s : State) (op : Nat) (id : Word) (code : Nat) (entries : List LedgerEntry) : State :=
  s.modThm fun t => { t with out := .result (BitVec.ofNat 8 op) id (BitVec.ofNat 8 code) entries :: t.out }

/-- A request refused: the absorbed record, the ledger entry of a ledgered one or its count in UNLOGGED, the response. -/
def State.refuseReq (s : State) (k : ReqKind) (r : ThimbleReq) (role : Nat) (part : Nat) (actor : BitVec 512) (code : Nat) : State :=
  let s := s.record .absorbed .module (unitId 0x0D 0) 0x08 code noPart (toBytes 1 k.op ++ toBytes 1 role)
  let s := match k.ledger with
    | none => s
    | some i =>
      if s.ledgerLow then s.modFlash fun f => { f with unlogged := satAdd f.unlogged 1 }
      else s.ledgerAppend role code k.op part (match i.left with
        | some n => n
        | none => 0xFFFFFFFF) i.old i.new_ actor
  s.respond k.op r.reqId code []

/-- A message of a session seen now (R396). -/
def State.touchSession (s : State) (id : Nat) : State :=
  s.modThm fun t => { t with sessions := t.sessions.map fun x => if x.id == id then { x with lastAt := s.time.now } else x }

/-- A Thimble request: the session, a reserved opcode, the reserved bytes, the role (of several that the requester holds and the table
allows, the first that the request's own codes do not exclude), the codes of the request, and its effect. `leftAfter` is the
allowance left once it is done. -/
def State.thmRequest (s : State) (r : ThimbleReq) (k : ReqKind) (allowed : Role → Bool) (leftAfter : Nat)
    (codes : State → Role → List Nat) (f : State → Role → State) : State :=
  match s.session r.session with
  | none => s.modThm fun t => { t with out := .spdmError 0x02 :: t.out }
  | some x =>
    let s := s.touchSession x.id
    let held := s.roles x
    let actor := x.key.getD 0
    let role := (held.find? allowed).orElse fun _ => held.head?
    let rc := (role.map roleCode).getD 0xFF
    let rp := (role.map rolePart).getD 0
    match r.reservedOp with
    | some op => s.refuseReq { op := op.toNat, ledger := none, consumes := false } r rc rp actor 1
    | none =>
    if !r.reservedZero then s.refuseReq k r rc rp actor 1
    else
      match ((held.filter allowed).find? fun w => (codes s w).isEmpty).orElse fun _ => held.find? allowed with
      | none => s.refuseReq k r rc rp actor 2
      | some who =>
        let rc := roleCode who
        let rp := rolePart who
        let full := if k.ledger.isSome && !k.consumes && s.ledgerLow then [0xA] else []
        match lowest (codes s who ++ full) with
        | some code =>
          if code == 0xA then
            let s := s.modFlash fun f => { f with unlogged := satAdd f.unlogged 1 }
            (s.record .absorbed .module (unitId 0x0D 0) 0x08 code noPart (toBytes 1 k.op ++ toBytes 1 rc)).respond k.op r.reqId code []
          else s.refuseReq k r rc rp actor code
        | none =>
          let s := f s who
          let s := match k.ledger with
            | none => s
            | some i => s.ledgerAppend rc 0 k.op rp (match i.left with
                | some _ => leftAfter
                | none => 0xFFFFFFFF) i.old i.new_ actor
          s.respond k.op r.reqId 0 []

/-- The sessions of a key end (R396). -/
def State.endSessions (s : State) (key : Option (BitVec 512)) : State :=
  match key with
  | none => s
  | some k => s.modThm fun t => { t with sessions := t.sessions.filter fun x => x.key != some k }

def State.modOtp (s : State) (f : Otp → Otp) : State := s.modThm fun t => { t with otp := f t.otp }

/-! ## Owner and policy (R400 to R402) -/

/-- Owner key changes left. -/
def Otp.ownersLeft (o : Otp) : Nat := 8 - o.owners.length

/-- OLD of an owner key entry. -/
def Otp.ownerHash (o : Otp) : BitVec 256 := match o.owners.getLast? with
  | some k => ledgerHash k
  | none => 0

/-- CLAIM_OWNER (R398, R400). -/
def execClaimOwner (r : ThimbleReq) (key : BitVec 512) (s : State) : Out :=
  let o := s.thm.otp
  .next (s.thmRequest r { op := 1, ledger := some ⟨o.ownerHash, ledgerHash key, some o.ownersLeft⟩, consumes := true }
    (fun w => isOperator w && s.thm.otp.owner.isNone) (o.ownersLeft - 1)
    (fun s _ => (if s.thm.otp.ownersLeft == 0 then [4] else []) ++ (if key == BitVec.allOnes 512 then [3] else []))
    fun s _ => s.modOtp fun o => { o with owners := o.owners ++ [key] })

/-- The owner policy record in flash, with the device key's signature of it (R401, R412). -/
def policyRecord (word : Nat) (keys : List (BitVec 512)) : List Byte := toBytes 4 word ++ keys.flatMap fun k => toBytes 64 k.toNat
def Flash.setPolicy (f : Flash) (policy : BitVec 5) (keys : List (BitVec 512)) : Flash :=
  { f with policy := policy, policyKeys := keys, policySig := Config.deviceSign (sha512 (policyRecord policy.toNat keys)) }

/-- SET_OWNER: naming the active key changes nothing and is not ledgered; else the next slot is written, every session ends and
the operator key is cleared; all ones releases the owner and resets the policy (R400 to R402). -/
def execSetOwner (r : ThimbleReq) (key : BitVec 512) (s : State) : Out :=
  let o := s.thm.otp
  if o.owner == some key && r.reservedOp.isNone then
    .next (s.thmRequest r { op := 2, ledger := none, consumes := false } isOwner 0 (fun _ _ => []) fun s _ => s)
  else
    .next (s.thmRequest r { op := 2, ledger := some ⟨o.ownerHash, ledgerHash key, some o.ownersLeft⟩, consumes := true }
      isOwner (o.ownersLeft - 1) (fun s _ => if s.thm.otp.ownersLeft == 0 then [4] else [])
      fun s _ =>
        let s := s.modOtp fun o => { o with owners := o.owners ++ [key] }
        let s := s.modThm fun t => { t with sessions := [], operatorKey := none }
        s.modFlash fun f => if key == BitVec.allOnes 512 then f.setPolicy 0 [] else f)

/-- SET_POLICY (R401). -/
def execSetPolicy (r : ThimbleReq) (policy : PolicyParams) (s : State) : Out :=
  .next (s.thmRequest r { op := 3, ledger := some ⟨BitVec.ofNat 256 s.thm.flash.policy.toNat, BitVec.ofNat 256 policy.word.toNat, none⟩, consumes := false }
    isOwner 0 (fun _ _ => if 32 ≤ policy.word.toNat || 4 < policy.keys.length then [3] else [])
    fun s _ => s.modFlash fun f => f.setPolicy (policy.word.setWidth 5) policy.keys)

/-- SET_OPERATOR (R396, R398). -/
def execSetOperator (r : ThimbleReq) (key : Option (BitVec 512)) (s : State) : Out :=
  let old := s.thm.operatorKey
  let h (k : Option (BitVec 512)) : BitVec 256 := match k with
    | some k => ledgerHash k
    | none => 0
  .next (s.thmRequest r { op := 4, ledger := some ⟨h old, h key, none⟩, consumes := false } isOwner 0 (fun _ _ => [])
    fun s _ => (s.endSessions old).modThm fun t => { t with operatorKey := key })

/-! ## Debug policy (R415, R416) -/

/-- Skeins in STATE 5 that may no longer be halted return to STATE 2, and their bundles' watchdogs resume. -/
def State.releaseHalted (s : State) : State :=
  s.each (s.cores.map (·.1)) fun s c =>
    if s.haltAllowed (s.partOf c) then s
    else
      let k := s.core c
      let bs := ((k.skeins.filter fun e => e.2.st == .debugHalted).map fun e => e.2.bundle.toNat).eraseDups
      s.modCore c fun k =>
        bs.foldl (fun k b => k.resumeKnots b s.time.now)
          { k with skeins := k.skeins.map fun e => if e.2.st == .debugHalted then (e.1, { e.2 with st := .running }) else e }

/-- ADVANCE_DEBUG (R402, R416). -/
def execAdvanceDebug (r : ThimbleReq) (policy : Nat) (s : State) : Out :=
  let now := s.thm.otp.debug
  .next (s.thmRequest r { op := 5, ledger := some ⟨BitVec.ofNat 256 now, BitVec.ofNat 256 policy, some (2 - now)⟩, consumes := true }
    isOwner (2 - policy) (fun s _ => (if 2 < policy then [3] else []) ++ (if policy ≤ s.thm.otp.debug then [8] else []))
    fun s _ => (s.modOtp fun o => { o with debug := policy }).releaseHalted)

/-- DEBUG_OPTIN (R398, R416). -/
def execDebugOptin (r : ThimbleReq) (permit : Bool) (s : State) : Out :=
  let who := ((s.session r.session).map s.roles).getD []
  let old := ((who.find? isTenant).bind tenantOf).map fun p => (s.part p).optin
  .next (s.thmRequest r { op := 0x10, ledger := some ⟨BitVec.ofNat 256 (b2n (old.getD false)), BitVec.ofNat 256 (b2n permit), none⟩, consumes := false }
    isTenant 0 (fun _ _ => [])
    fun s w => match tenantOf w with
      | some p => (s.modPart p fun x => { x with optin := permit }).releaseHalted
      | none => s)

/-! ## Security version, geometry, alterations, pattern (R402, R409, R410, R492, R495) -/

/-- The firmware images that run (R410, R545). -/
def State.runningBank (s : State) : Bank2 :=
  { thimbleSvn := s.boot.thimble.1, thimbleDigest := s.boot.thimble.2, hubSvn := s.boot.hub.1, hubDigest := s.boot.hub.2 }

/-- RAISE_SVN (R410). -/
def execRaiseSvn (r : ThimbleReq) (target : Nat) (s : State) : Out :=
  let o := s.thm.otp
  .next (s.thmRequest r { op := 6, ledger := some ⟨BitVec.ofNat 256 o.minSvn, BitVec.ofNat 256 target, some (255 - o.minSvn)⟩, consumes := true }
    isOwner (255 - target)
    (fun s _ => (if 255 < target then [3] else [])
      ++ (if s.runningBank.thimbleSvn < target || s.runningBank.hubSvn < target || target ≤ s.thm.otp.minSvn then [8] else []))
    fun s _ => s.modOtp fun o => { o with minSvn := target })

/-- The code of an operator whose persisting the owner's policy does not allow (R398). -/
def State.persistCodes (s : State) (w : Role) : List Nat := if isOperator w && !s.policyBit 3 then [5] else []

/-- PERSIST_GEOMETRY (R402). -/
def execPersistGeometry (r : ThimbleReq) (s : State) : Out :=
  let masks := s.ptn.map (·.quads)
  let modes := s.ptn.map (·.sealed_)
  let value (g : Option (List (BitVec 16) × List Bool)) : BitVec 256 := match g with
    | none => 0
    | some (m, z) => (sha512 ((m.flatMap fun q => toBytes 2 q.toNat) ++ z.map fun b => BitVec.ofNat 8 (b2n b))).extractLsb' 0 256
  .next (s.thmRequest r { op := 7, ledger := some ⟨value s.thm.flash.geom, value (some (masks, modes)), some (32 - s.thm.otp.geoms)⟩, consumes := true }
    (fun w => isOwner w || isOperator w) (31 - s.thm.otp.geoms)
    (fun s w => s.persistCodes w ++ (if 32 ≤ s.thm.otp.geoms then [4] else []))
    fun s _ => (s.modOtp fun o => { o with geoms := o.geoms + 1 }).modFlash fun f => { f with geom := some (masks, modes) })

/-- An alteration set as bytes: item key and offset. -/
def alterBytes (m : SMap Int) : List Byte := m.flatMap fun e => toBytes 4 e.1 ++ toBytes 2 (BitVec.ofInt 16 e.2).toNat

/-- PERSIST_ALTERATIONS (R495). -/
def execPersistAlterations (r : ThimbleReq) (s : State) : Out :=
  let set := s.cal.alters
  let h := sha512 (alterBytes set)
  .next (s.thmRequest r { op := 8, ledger := some ⟨s.thm.flash.altersHash.extractLsb' 0 256, h.extractLsb' 0 256, some (64 - s.thm.otp.alterHash.length)⟩, consumes := true }
    (fun w => isOwner w || isOperator w) (63 - s.thm.otp.alterHash.length)
    (fun s w => s.persistCodes w ++ (if 64 ≤ s.thm.otp.alterHash.length then [4] else []))
    fun s _ => (s.modOtp fun o => { o with alterHash := o.alterHash ++ [h] }).modFlash fun f => { f with alters := set, altersHash := h, altersSig := Config.deviceSign h })

/-- WRITE_PATTERN (R492). -/
def execWritePattern (r : ThimbleReq) (pattern : BitVec 512) (lock : Bool) (s : State) : Out :=
  let old : BitVec 256 := match s.thm.otp.pattern with
    | some p => ledgerHash p
    | none => 0
  .next (s.thmRequest r { op := 0x12, ledger := some ⟨old, ledgerHash pattern, none⟩, consumes := false } isFactory 0
    (fun s _ => if s.thm.otp.locked then [9] else [])
    fun s _ => s.modOtp fun o => { o with pattern := some pattern, locked := lock })

/-- READ_LEDGER: the entries from a sequence number on, oldest first (R398). -/
def execReadLedger (r : ThimbleReq) (seq count : Nat) (s : State) : Out :=
  match s.session r.session with
  | none => .next (s.modThm fun t => { t with out := .spdmError 0x02 :: t.out })
  | some x =>
    if r.reservedOp.isNone && r.reservedZero && !(s.roles x).isEmpty then
      .next ((s.touchSession x.id).respond 0x11 r.reqId 0 (((s.thm.flash.ledger.reverse).drop seq).take count))
    else .next (s.thmRequest r { op := 0x11, ledger := none, consumes := false } (fun _ => true) 0 (fun _ _ => []) fun s _ => s)

/-! ## Tenants, clients, remote writes (R394, R398, R404 to R408) -/

/-- The codes of a request that names a formed partition, not draining or scrubbing (R418). -/
def State.formedCodes (s : State) (part : Nat) : List Nat :=
  if 16 ≤ part then [3] else if (s.part part).st != .formed then [9] else []

/-- BIND (R394, R398, R418). -/
def execBind (r : ThimbleReq) (part : Nat) (key : BitVec 512) (s : State) : Out :=
  .next (s.thmRequest r { op := 0xA, ledger := none, consumes := false } isOperator 0
    (fun s _ => s.formedCodes part ++ (if (s.part part).bound then [9] else []))
    fun s _ => s.modPart part fun x => { x with bound := true, tenantKey := some key })

/-- GRANT_CLIENT: the client's key is created, and firmware maps its demotion pages (R404). -/
def execGrantClient (r : ThimbleReq) (client : BitVec 12) (part demotePages : Nat) (s : State) : Out :=
  .next (s.thmRequest r { op := 0xC, ledger := none, consumes := false } isOperator 0
    (fun s _ => s.formedCodes part ++ (if 65535 < demotePages then [3] else [])
      ++ (if s.thm.clients.any fun c => c.id == client then [9] else []))
    fun s _ => (s.modThm fun t => { t with
      clients := t.clients ++ [{ id := client, part := part, demotePages := demotePages, key := t.nextKey }]
      nextKey := t.nextKey + 1 }).mapDemote part client.toNat demotePages)

/-- Whether a requester may act on a client: the operator, or the tenant of its partition. -/
def State.ownsClient (s : State) (w : Role) (client : BitVec 12) : Bool :=
  match w with
  | .tenant p => s.thm.clients.any fun c => c.id == client && c.part == p
  | _ => true

/-- A client's revocation begins: its live sequences close, after any running step that lists them (R405). -/
def State.startRevoke (s : State) (client : BitVec 12) : State :=
  let s := s.modThm fun t => { t with clients := t.clients.map fun c => if c.id == client then { c with revoking := true } else c }
  s.each (s.ob.entries.filter fun e => e.2.client == client && e.2.live) fun s e => s.cancelSeq e.1 0x107

/-- REVOKE_CLIENT (R398, R405). -/
def execRevokeClient (r : ThimbleReq) (client : BitVec 12) (s : State) : Out :=
  .next (s.thmRequest r { op := 0xD, ledger := none, consumes := false } (fun w => isOperator w || (isTenant w && s.ownsClient w client)) 0
    (fun s _ => if s.thm.clients.any fun c => c.id == client && !c.revoking then [] else [9])
    fun s _ => s.startRevoke client)

/-- A client's demotion pages are unmapped, and then its key is erased from the Thimble and the key tables (R242, R405). -/
def State.eraseClient (s : State) (client : BitVec 12) : State :=
  (s.each (s.thm.clients.filter fun c => c.id == client) fun s c => s.unmapDemote c.part client.toNat).modThm fun t =>
    { t with clients := t.clients.filter fun c => c.id != client }

/-- REVOKE_CLIENT_COMPLETE: once the client's sequences have closed (R405). -/
def execRevokeClientComplete (client : BitVec 12) (s : State) : Out :=
  if (s.thm.clients.any fun c => c.id == client && c.revoking) && !(s.ob.entries.any fun e => e.2.client == client && e.2.live) then
    .next (s.eraseClient client)
  else .next s

/-- IMPORT_KEY (R406). -/
def execImportKey (r : ThimbleReq) (client : BitVec 12) (key : BitVec 512) (s : State) : Out :=
  .next (s.thmRequest r { op := 0xE, ledger := none, consumes := false } isTenant 0
    (fun s w => (if s.policyBit 4 then [] else [5])
      ++ (if s.thm.clients.any (fun c => c.id == client) && s.ownsClient w client then [] else [9])
      ++ (if s.ob.entries.any fun e => e.2.client == client && !e.2.demotedPages.isEmpty then [9] else []))
    fun s _ => s.modThm fun t => { t with
      clients := t.clients.map fun c => if c.id == client then { c with imported := some key, key := t.nextKey } else c
      nextKey := t.nextKey + 1 })

/-- An admission range from its register layout (R419). -/
def admitOf (v : Dword) : Admit := { en := bit v 63, hi := bits v 33 17, lo := bits v 16 0 }

/-- SET_REMOTE (R408). -/
def execSetRemote (r : ThimbleReq) (part : Nat) (sendEn : Bool) (admission : List Dword) (s : State) : Out :=
  .next (s.thmRequest r { op := 0xF, ledger := none, consumes := false } isOperator 0
    (fun s _ => s.formedCodes part ++ (if admission.length != 8 || admission.any (fun v => bits v 62 34 != 0) then [3] else []))
    fun s _ => s.modPart part fun x => { x with sendEn := sendEn, admission := admission.map admitOf })

end Sys2Proof.Machine
end

