-- ==== Sys2Proof/Machine/Partition.lean ====
section
/-! DEFINITION. Forming and unforming partitions, the scrub, and handing a partition to another tenant (R390 to R394, R418). -/

namespace Sys2Proof.Machine

/-! ## Draining and scrubbing (R392, R393) -/

/-- Whether any bundle of a quadrant mask is in BSTATE 1. -/
def State.busyIn (s : State) (quads : BitVec 16) : Bool := s.cores.any fun c => quads.getLsbD (quadOf c.1) && c.2.busy

/-- The core that a fitting holds, wholly or by one of its hoops or engines (R542). -/
def State.fitCore (s : State) : Option Nat :=
  match s.err.fit with
  | some j => j.held.bind fun h =>
      if j.cls == 1 then some h.1 else if j.cls == 2 then some (h.1 / 4) else if j.cls == 3 then some (h.1 / 2) else none
  | none => none

/-- Whether a fitting holds a unit of a quadrant mask, which it returns before the drain goes on (R418). -/
def State.fitIn (s : State) (quads : BitVec 16) : Bool :=
  match s.fitCore with
  | some c => quads.getLsbD (quadOf c)
  | none => false

/-- Whether a partition has drained: no bundle in BSTATE 1, no step that runs, no unit in fitting. -/
def State.drainedPart (s : State) (p : Nat) : Bool :=
  !s.busyIn (s.part p).quads && (s.obPart p).running.isNone && !s.fitIn (s.part p).quads

/-- Firmware resets the cores of a partition that still have a bundle running, and the step aborts (R284, R321). -/
def State.resetBusy (s : State) (p : Nat) : State :=
  let quads := (s.part p).quads
  let cs := (s.cores.filter fun c => quads.getLsbD (quadOf c.1) && c.2.busy).map (·.1)
  if cs.isEmpty then s else (s.each cs State.coreReset).stepAbort p false

/-- A core as a scrub leaves it (R393): what quarantine, fitting and the event counts hold of it stays. -/
def scrubbedCore (k : Core) : Core :=
  { ({} : Core) with
    lastRefusal := k.lastRefusal, refused := k.refused, launchSeq := k.launchSeq
    hoops := k.hoops.map fun h => { quar := h.quar, faults := h.faults, issued := h.issued }
    engines := k.engines.map fun g => { g with queues := g.queues.map fun q => { q with entries := [] } }
    quar := k.quar, held := k.held, quarAt := k.quarAt, ues := k.ues, draining := k.draining }

/-- The scrub of one core: its state, its scratch with valid check bits, its codebooks and exponent base; a gated island is
ungated for it, but for a quarantined core's (R178, R393, R480). -/
def State.scrubCore (s : State) (c : Nat) : State :=
  let s := s.when ((s.island c).st == .gated && !(s.core c).quar) fun s => s.setIsland c .running
  ((s.modCore c scrubbedCore).zeroRange (scratchAt c 0) scratchLen).imageRegs c

def State.scrubQuads (s : State) (quads : BitVec 16) : State := s.each (coresOf quads) State.scrubCore

/-! ## VFs and pools (R297, R360) -/

/-- A VF enabled or disabled. A disabled VF's rings are off. -/
def State.setVf (s : State) (fn : Nat) (on : Bool) : State :=
  s.modFn fn fun f => if on then { f with enabled := true }
    else { f with enabled := false, req := { f.req with enable := false }, cmd := { f.cmd with enable := false } }

/-- The pool that firmware gives a partition as it is formed: stacked pages outside block 0 that no other partition holds
(R297; log entry 23). -/
def State.newPool (s : State) (p : Nat) : List Nat :=
  let held := s.heldPages
  ((Config.kvPool p).map fun n => n * kvPage).eraseDups.filter fun a =>
    decide (2 ^ 32 ≤ a ∧ a + kvPage ≤ stackTop) && !held.contains a

/-- Every live sequence of a partition closes with STATE 6 and code 0x107 (R392, R394). -/
def State.closePart (s : State) (p : Nat) : State := s.each (s.seqsOf p) fun s e => s.closeEntry e.1 6 0x107

/-! ## FORM (R391, R392) -/

/-- Whether masks overlap. -/
def overlap : List (BitVec 16) → Bool
  | [] => false
  | a :: r => r.any (fun b => a &&& b != 0) || overlap r

/-- Whether the operations that exclude a FORM run (R391). -/
def State.formBusy (s : State) : Bool := s.loading || s.thm.form.isSome || s.ptn.any fun p => p.unbind.isSome

/-- The codes of a FORM (R391, R399). -/
def State.formCodes (s : State) (masks : List (BitVec 16)) (sealed_ : List Bool) (drainMs : Nat) : List Nat :=
  (if masks.length != 16 || sealed_.length != 16 || overlap masks || drainMs == 0 || 65535 < drainMs then [3] else [])
    ++ (if s.formBusy then [6] else [])

/-- The partitions whose mask or scratch mode a FORM changes (R392). -/
def State.affected (s : State) (masks : List (BitVec 16)) (sealed_ : List Bool) : List Nat :=
  (List.range 16).filter fun p => nth 0 masks p != (s.part p).quads || nth false sealed_ p != (s.part p).sealed_

/-- FORM accepted: each affected partition enters PSTATE 2. -/
def State.startForm (s : State) (masks : List (BitVec 16)) (sealed_ : List Bool) (drainMs : Nat) : State :=
  let l := s.affected masks sealed_
  let s := s.modThm fun t => { t with
    form := some { masks := masks, sealed_ := sealed_, drainMs := drainMs, since := s.time.now, affected := l, scrubbing := false } }
  s.each l fun s p => s.modPart p fun x => { x with st := .draining }

/-- The result of the last response, kept in LAST_RESULT (R419). -/
def State.keepFormResult (s : State) : State :=
  match s.thm.out with
  | .result 9 _ code _ :: _ => s.modThm fun t => { t with formLast := code }
  | _ => s

/-- FORM (R391, R392). -/
def execForm (r : ThimbleReq) (masks : List (BitVec 16)) (sealed_ : List Bool) (drainMs : Nat) (t : Dword) (s : State) : Out :=
  .next ((s.at_ t).thmRequest r { op := 9, ledger := none, consumes := false } isOperator 0
    (fun s _ => s.formCodes masks sealed_ drainMs) fun s _ => s.startForm masks sealed_ drainMs).keepFormResult

/-- FORM_DRAIN_COMPLETE: no bundle of an affected partition is in BSTATE 1: PSTATE 3, and the partition's L2 lines leave
(R392). -/
def execFormDrainComplete (s : State) : Out :=
  match s.thm.form with
  | some f =>
    if !f.scrubbing && f.affected.all s.drainedPart then
      let s := s.modThm fun t => { t with form := some { f with scrubbing := true } }
      .next (s.each f.affected fun s p => (s.modPart p fun x => { x with st := .scrubbing }).invalL2 p)
    else .next s
  | none => .next s

/-- FORM_DRAIN_LIMIT_EXPIRY (R392). -/
def execFormDrainLimitExpiry (t : Dword) (s : State) : Out :=
  let s := s.at_ t
  match s.thm.form with
  | some f =>
    if !f.scrubbing && decide (f.since.toNat + f.drainMs * 1000000 ≤ s.now) then .next (s.each f.affected State.resetBusy) else .next s
  | none => .next s

/-- The scratch mode that an affected partition takes: as PTN_SCRATCH_MODE was written in PSTATE 3, else as FORM gave it (R244,
R391). -/
def State.newMode (s : State) (f : FormSt) (p : Nat) : Bool := (s.part p).sealedNext.getD (nth false f.sealed_ p)

/-- The quadrants to scrub: the moved ones, and those of a partition whose scratch mode changes (R392). -/
def State.scrubMask (s : State) (f : FormSt) : BitVec 16 :=
  f.affected.foldl (fun m p =>
    let old := (s.part p).quads
    let new_ := nth 0 f.masks p
    m ||| (old ^^^ new_) ||| (if s.newMode f p != (s.part p).sealed_ then old ||| new_ else 0)) 0

/-- One affected partition takes its new mask and mode: formed or unformed (R297, R392, R408). -/
def State.reform (s : State) (p : Nat) (mask : BitVec 16) (mode : Bool) : State :=
  let was := (s.part p).quads
  if mask == 0 then
    let s := s.closePart p
    let s := s.modPart p fun x => { x with
      st := .unformed, quads := 0, sealed_ := mode, sealedNext := none, sendEn := false, admission := List.replicate 8 {} }
    (s.modObPart p fun o => { o with pool := [] }).setVf (p + 1) false
  else
    let s := s.modPart p fun x => { x with st := .formed, quads := mask, sealed_ := mode, sealedNext := none }
    let s := if was == 0 then s.modObPart p fun o => { o with pool := s.newPool p } else s.clearPreds p
    s.setVf (p + 1) true

/-- FORM_SCRUB_COMPLETE: the scrub is done, the masks and modes are written, VFs follow, listing resumes (R392). -/
def execFormScrubComplete (s : State) : Out :=
  match s.thm.form with
  | some f =>
    if f.scrubbing then
      let s := s.scrubQuads (s.scrubMask f)
      let s := s.each (f.affected.filter fun p => nth 0 f.masks p == 0) fun s p => s.reform p 0 (s.newMode f p)
      let s := s.each (f.affected.filter fun p => nth 0 f.masks p != 0) fun s p => s.reform p (nth 0 f.masks p) (s.newMode f p)
      .next (s.modThm fun t => { t with form := none, forms := t.forms + 1 })
    else .next s
  | none => .next s

/-! ## UNBIND (R394) -/

/-- Both rings of a function disabled. -/
def State.stopRings (s : State) (fn : Nat) : State :=
  s.modFn fn fun f => { f with req := { f.req with enable := false }, cmd := { f.cmd with enable := false } }

/-- UNBIND (R394, R416, R418). -/
def execUnbind (r : ThimbleReq) (part : Nat) (t : Dword) (s : State) : Out :=
  .next ((s.at_ t).thmRequest r { op := 0xB, ledger := none, consumes := false } isOperator 0
    (fun s _ => s.formedCodes part ++ (if (s.part part).bound then [] else [9]))
    fun s _ =>
      let s := s.stopRings (part + 1)
      (s.modPart part fun x => { x with
        st := .draining, bound := false, optin := false, unbind := some { since := s.time.now, drained := false } }).releaseHalted)

/-- UNBIND_DRAIN_COMPLETE: the sequences close, their pages zeroed as they return, and the partition enters PSTATE 3
(R394). -/
def execUnbindDrainComplete (part : Nat) (s : State) : Out :=
  match (s.part part).unbind with
  | some u =>
    if !u.drained && s.drainedPart part then
      let s := s.closePart part
      .next (s.modPart part fun x => { x with st := .scrubbing, unbind := some { u with drained := true } })
    else .next s
  | none => .next s

/-- UNBIND_STEP_LIMIT_EXPIRY: STEP_LIMIT_MS has passed in the drain (R394). -/
def execUnbindStepLimitExpiry (part : Nat) (t : Dword) (s : State) : Out :=
  let s := s.at_ t
  match (s.part part).unbind with
  | some u =>
    if !u.drained && decide (u.since.toNat + (s.obPart part).limitMs * 1000000 ≤ s.now) then .next (s.resetBusy part) else .next s
  | none => .next s

/-- UNBIND_COMPLETE: scrub, zeroed pool, clients revoked, the tenant's sessions ended and credential cleared; PSTATE 1
(R394). -/
def execUnbindComplete (part : Nat) (s : State) : Out :=
  match (s.part part).unbind with
  | some u =>
    if u.drained then
      let s := s.scrubQuads (s.part part).quads
      let s := s.each (s.thm.clients.filter fun c => c.part == part) fun s c => s.eraseClient c.id
      let s := s.each (s.obPart part).pool fun s a => s.zeroRange a kvPage
      let s := s.endSessions (s.part part).tenantKey
      .next (s.modPart part fun x => { x with
        st := .formed, tenantKey := none, unbind := none, optin := false, sealed_ := x.sealedNext.getD x.sealed_, sealedNext := none }).releaseHalted
    else .next s
  | none => .next s

end Sys2Proof.Machine
end

