-- ==== Sys2Proof/Machine/Spdm.lean ====
section
/-! DEFINITION. SPDM: the connection, sessions, certificates and measurements, and IDE key management (R380, R395, R396, R413,
R414). Response and error codes are those of DMTF SPDM 1.3 (log entry 9). -/

namespace Sys2Proof.Machine

/-! ## Answers -/

/-- An SPDM response. -/
def State.spdmSay (s : State) (code : Nat) (bytes : List Byte) : State :=
  s.modThm fun t => { t with out := .spdm (BitVec.ofNat 8 code) bytes :: t.out }

/-- An SPDM ERROR. -/
def State.spdmErr (s : State) (code : Nat) : State := s.modThm fun t => { t with out := .spdmError (BitVec.ofNat 8 code) :: t.out }

/-- InvalidRequest, InvalidSession, UnexpectedRequest, DecryptError, SessionLimitExceeded, VersionMismatch. -/
def spdmInvalid : Nat := 0x01
def spdmNoSession : Nat := 0x02
def spdmUnexpected : Nat := 0x04
def spdmDecrypt : Nat := 0x06
def spdmLimit : Nat := 0x0A
def spdmVersion : Nat := 0x41

/-- A message after GET_VERSION: its version is 1.3, the connection has come far enough, and its fields are valid. -/
def State.spdmMsg (s : State) (m : SpdmMsg) (stage : Nat) (f : State → State) : State :=
  if m.version != 0x13 then s.spdmErr spdmVersion
  else if s.thm.spdm < stage then s.spdmErr spdmUnexpected
  else if !m.valid then s.spdmErr spdmInvalid
  else f s

/-- The connection has come to a stage. -/
def State.spdmStage (s : State) (n : Nat) : State := s.modThm fun t => { t with spdm := n }

/-! ## Connection (R413) -/

/-- GET_VERSION: the connection starts again; version 1.3 is the one supported (R413). -/
def execGetVersion (m : SpdmMsg) (s : State) : Out :=
  .next (if m.valid then (s.spdmStage 1).spdmSay 0x04 (toBytes 2 0x1300) else s.spdmErr spdmInvalid)

/-- GET_CAPABILITIES (R413). -/
def execGetCapabilities (m : SpdmMsg) (s : State) : Out :=
  .next (s.spdmMsg m 1 fun s => (s.spdmStage 2).spdmSay 0x61 (Config.spdmBytes 1))

/-- NEGOTIATE_ALGORITHMS: ECDSA P-521, SHA-512, secp521r1, AES-256-GCM or nothing (R413). -/
def execNegotiateAlgorithms (m : SpdmMsg) (supported : Bool) (s : State) : Out :=
  .next (s.spdmMsg m 2 fun s =>
    if supported then (s.spdmStage 3).spdmSay 0x63 (Config.spdmBytes 2) else s.spdmErr spdmInvalid)

/-! ## Certificates and measurements (R413, R414) -/

/-- The certificate chain of slot 0 and its SHA-512. -/
def State.certChain (s : State) : List Byte := Config.certChain s.thm.cdi1
def State.chainDigest (s : State) : List Byte := toBytes 64 (sha512 s.certChain).toNat

/-- GET_DIGESTS: slot 0 only is provisioned. -/
def execGetDigests (m : SpdmMsg) (s : State) : Out := .next (s.spdmMsg m 3 fun s => s.spdmSay 0x01 s.chainDigest)

/-- GET_CERTIFICATE: a portion of slot 0's chain, with the lengths of the portion and of what is left. -/
def execGetCertificate (m : SpdmMsg) (certSlot offset len : Nat) (s : State) : Out :=
  .next (s.spdmMsg m 3 fun s =>
    let chain := s.certChain
    if certSlot != 0 || chain.length ≤ offset then s.spdmErr spdmInvalid
    else
      let part := (chain.drop offset).take len
      s.spdmSay 0x02 (toBytes 2 part.length ++ toBytes 2 (chain.length - offset - part.length) ++ part))

/-- CHALLENGE: signed with the Alias key. -/
def execChallenge (m : SpdmMsg) (certSlot : Nat) (nonce : BitVec 256) (s : State) : Out :=
  .next (s.spdmMsg m 3 fun s =>
    if certSlot != 0 then s.spdmErr spdmInvalid
    else s.spdmSay 0x03 (s.chainDigest ++ Config.aliasSign s.thm.cdi1 (s.chainDigest ++ toBytes 32 nonce.toNat)))

/-- An admission range as its register shows it (R419). -/
def Admit.word (a : Admit) : Dword := fld (b2n a.en) 63 ||| fld a.hi.toNat 17 ||| fld a.lo.toNat 0

/-- The value of a measurement block (R414, R417). -/
def State.measurement (s : State) (index : Nat) : Option (List Byte) :=
  match index with
  | 1 => some (toBytes 64 Config.romDigest.toNat)
  | 2 => some (toBytes 64 s.runningBank.thimbleDigest.toNat)
  | 3 => some (toBytes 64 s.runningBank.hubDigest.toNat)
  | 4 => some (toBytes 64 ((s.ob.image.map fun i => i.digest.toNat).getD 0))
  | 5 => some (toBytes 1 s.thm.otp.minSvn ++ toBytes 1 s.runningBank.thimbleSvn ++ toBytes 1 s.runningBank.hubSvn)
  | 6 => some (toBytes 1 s.thm.otp.debug ++ s.ptn.map fun p => BitVec.ofNat 8 (b2n p.optin))
  | 7 => some (toBytes 4 (if s.thm.otp.owner.isSome then s.thm.flash.policy.toNat else 0)
      ++ toBytes 64 ((s.thm.otp.owner.map fun k => k.toNat).getD 0))
  | 8 => some (toBytes 8 (s.thm.flash.ledger.length - 1)
      ++ toBytes 64 ((s.thm.flash.ledger.head?.map fun e => (sha512 e.bytes).toNat).getD 0)
      ++ toBytes 2 s.thm.flash.unlogged.toNat)
  | 9 => some ((s.ptn.flatMap fun p => toBytes 2 p.quads.toNat) ++ (s.ptn.map fun p => BitVec.ofNat 8 (b2n p.sealed_))
      ++ s.ptn.flatMap fun p => BitVec.ofNat 8 (b2n p.sendEn) :: p.admission.flatMap fun a => toBytes 8 a.word.toNat)
  | _ => none

/-- A measurement block in the DMTF format: index, specification 1, size, then value type, whose bit 7 says raw, value size and value.
The types are free (log entry 65). -/
def measureBlock (index : Nat) (value : List Byte) : List Byte :=
  toBytes 1 index ++ toBytes 1 1 ++ toBytes 2 (value.length + 3)
    ++ toBytes 1 (Config.measureType index % 128 + 128 * b2n (5 ≤ index)) ++ toBytes 2 value.length ++ value

/-- GET_MEASUREMENTS: one block, or all under index 0xFF; another index is an invalid request (R414). -/
def execGetMeasurements (m : SpdmMsg) (index : Nat) (s : State) : Out :=
  .next (s.spdmMsg m 3 fun s =>
    if index == 0xFF then s.spdmSay 0x60 ((List.range 9).flatMap fun k => measureBlock (k + 1) ((s.measurement (k + 1)).getD []))
    else
      match s.measurement index with
      | some b => s.spdmSay 0x60 (measureBlock index b)
      | none => s.spdmErr spdmInvalid)

/-! ## Sessions (R396, R413) -/

/-- KEY_EXCHANGE: the credential's earlier session ends; at most 24 sessions stand (R396). -/
def execKeyExchange (m : SpdmMsg) (certSlot : Nat) (mutualAuth : Bool) (key : BitVec 512) (s : State) : Out :=
  .next (s.spdmMsg m 3 fun s =>
    if certSlot != 0 then s.spdmErr spdmInvalid
    else
      let who := if mutualAuth then some key else none
      let s := s.endSessions who
      if 24 ≤ s.thm.sessions.length then s.spdmErr spdmLimit
      else
        let s := s.modThm fun t => { t with
          sessions := t.sessions ++ [{ id := t.nextSession, key := who, established := false, lastAt := s.time.now, keyGen := 0 }]
          nextSession := t.nextSession + 1 }
        s.spdmSay 0x64 (Config.spdmBytes 3))

/-- A session leaves. -/
def State.dropSession (s : State) (id : Nat) : State :=
  s.modThm fun t => { t with sessions := t.sessions.filter fun x => x.id != id }

/-- FINISH: the session is established, or ends when its HMAC or its signature does not verify. -/
def execFinish (m : SpdmMsg) (session : Nat) (hmacOk sigOk : Bool) (s : State) : Out :=
  .next (s.spdmMsg m 3 fun s =>
    match s.thm.sessions.find? fun x => x.id == session && !x.established with
    | none => s.spdmErr spdmNoSession
    | some x =>
      if !hmacOk || (x.key.isSome && !sigOk) then (s.dropSession session).spdmErr spdmDecrypt
      else
        (s.modThm fun t => { t with sessions := t.sessions.map fun y =>
          if y.id == session then { y with established := true, lastAt := s.time.now } else y }).spdmSay 0x65 [])

/-- A message inside an established session. -/
def State.inSession (s : State) (m : SpdmMsg) (session : Nat) (f : State → State) : State :=
  s.spdmMsg m 3 fun s => if (s.session session).isSome then f (s.touchSession session) else s.spdmErr spdmNoSession

/-- HEARTBEAT. -/
def execHeartbeat (m : SpdmMsg) (session : Nat) (s : State) : Out := .next (s.inSession m session fun s => s.spdmSay 0x68 [])

/-- KEY_UPDATE. -/
def execKeyUpdate (m : SpdmMsg) (session : Nat) (s : State) : Out :=
  .next (s.inSession m session fun s =>
    (s.modThm fun t => { t with sessions := t.sessions.map fun y =>
      if y.id == session then { y with keyGen := y.keyGen + 1 } else y }).spdmSay 0x69 [])

/-- END_SESSION. -/
def execEndSession (m : SpdmMsg) (session : Nat) (s : State) : Out :=
  .next (s.inSession m session fun s => (s.dropSession session).spdmSay 0x6C [])

/-- SPDM_SESSION_TIMEOUT: a session that has carried no message for 60 s ends (R396). -/
def execSpdmSessionTimeout (session : Nat) (t : Dword) (s : State) : Out :=
  let s := s.at_ t
  .next (s.modThm fun t => { t with sessions := t.sessions.filter fun x =>
    !(x.id == session && decide (x.lastAt.toNat + 60000000000 ≤ s.now)) })

/-! ## IDE key management (R380) -/

/-- IDE_KM inside an established session: keys programmed, a stream set going, a stream stopped. -/
def execIdeKm (session : Nat) (m : IdeMsg) (s : State) : Out :=
  if (s.session session).isNone then .next (s.spdmErr spdmNoSession)
  else
    let s := s.touchSession session
    let put (k : Nat) (f : IdeSt → IdeSt) : State := s.modHif fun h => { h with ide := upd h.ide k f }
    .next (match m with
      | .keyProg k _ => put k fun st => if st == .insecure then .keyed else st
      | .setGo k => put k fun st => if st == .keyed then .secure else st
      | .setStop k => put k fun _ => .insecure)

end Sys2Proof.Machine
end

