-- ==== Sys2Proof/Machine/Time.lean ====
section
/-! DEFINITION. A forward step of global time (R485, R486): every interval that the module measures excludes the step, so each
time at which such an interval began moves with it. -/

namespace Sys2Proof.Machine

/-- Islands (R475). -/
def islandCount : Nat := 1264

/-- A time moved by a step, and one that may be absent. -/
def later (n t : Dword) : Dword := t + n
def laterOpt (n : Dword) (t : Option Dword) : Option Dword := t.map (later n)

def Knot.later (n : Dword) (k : Knot) : Knot := { k with firstAt := laterOpt n k.firstAt, pausedAt := laterOpt n k.pausedAt }

def Core.later (n : Dword) (k : Core) : Core :=
  { k with
    knots := k.knots.map (Knot.later n)
    hoops := k.hoops.map fun h => { h with faults := h.faults.map (Machine.later n) }
    quarAt := laterOpt n k.quarAt, ues := k.ues.map (Machine.later n)
    unacked := k.unacked.map fun u => { u with at_ := u.at_ + n }
    engines := k.engines.map fun g => { g with queues := g.queues.map fun q => { q with entries := q.entries.map fun x =>
      { x with outAt := x.outAt.map (Machine.later n) } } }
    draining := k.draining.map fun d => (Machine.later n d.1, d.2) }

/-- The Order Book engine adds the step to FIRST_DL and LAST_TIME of every live entry; a FIRST_DL of 0 is no deadline. -/
def Entry.later (n : Dword) (e : Entry) : Entry :=
  { e with
    firstDl := if e.firstDl == 0 then 0 else e.firstDl + n
    lastTime := e.lastTime + n, waitFrom := laterOpt n e.waitFrom, statusAt := e.statusAt + n }

/-- A segment that spans the step is discarded. -/
def PtnOb.later (n : Dword) (o : PtnOb) : PtnOb :=
  { o with
    running := o.running.map fun l => { l with publishAt := l.publishAt + n }
    segSkewed := o.segSkewed || o.running.isSome }

def Port.later (n : Dword) (p : Port) : Port :=
  { p with
    seamQ := p.seamQ.map fun q => { q with holdUntil := q.holdUntil + n }
    lastBlockAt := p.lastBlockAt + n, retrainAt := p.retrainAt + n, downAt := laterOpt n p.downAt, probedAt := p.probedAt + n
    timeSent := laterOpt n p.timeSent, timeRecv := laterOpt n p.timeRecv
    stamps := p.stamps.map fun x => { x with t1 := x.t1 + n, t4 := x.t4 + n } }

def Reduce.later (n : Dword) (r : Reduce) : Reduce :=
  { r with
    shares := r.shares.map fun x => { x with openAt := x.openAt + n }
    held := r.held.map fun h => { h with at_ := h.at_ + n } }

def WlkSt.later (n : Dword) (w : WlkSt) : WlkSt :=
  { w with
    ports := w.ports.map (Port.later n), timeHoldAt := w.timeHoldAt + n, formAt := laterOpt n w.formAt
    lostMembers := w.lostMembers.map fun m => (m.1, m.2 + n), deadTimes := w.deadTimes.map (Machine.later n)
    anchorLost := laterOpt n w.anchorLost, deputyLost := laterOpt n w.deputyLost }

def Island.later (n : Dword) (k : Island) : Island :=
  { k with stretchAt := laterOpt n k.stretchAt, calmAt := k.calmAt + n, thermAt := k.thermAt + n }

/-- Global time stepped forward by n ns (R486). Every cycle counter is settled first: no edge falls in the step. -/
def State.stepTime (s : State) (n : Dword) : State :=
  if n == 0 then s
  else
    let now := s.time.now + n
    let counts := (List.range islandCount).map fun i => (i, s.cycles i)
    let s : State := { s with time := { s.time with now := now, busyAt := s.time.busyAt.map fun (x : Nat × Dword) => (x.1, x.2 + n) } }
    let s := s.each counts fun s c => s.modIsland c.1 fun k => { k.later n with cyc := c.2, cycFrom := now }
    { s with
      cores := s.cores.map fun c => (c.1, c.2.later n)
      ob := { s.ob with
        entries := s.ob.entries.map fun e => (e.1, e.2.later n), ptn := s.ob.ptn.map (PtnOb.later n)
        load := s.ob.load.map fun l => { l with drainAt := laterOpt n l.drainAt } }
      hif := { s.hif with
        cmds := s.hif.cmds.map fun c => { c with statusAt := c.statusAt + n }
        msix := s.hif.msix.map fun m => (m.1, { m.2 with until_ := laterOpt n m.2.until_ }) }
      ptn := s.ptn.map fun p => { p with unbind := p.unbind.map fun u => { u with since := u.since + n } }
      thm := { s.thm with
        sessions := s.thm.sessions.map fun x => { x with lastAt := x.lastAt + n }
        form := s.thm.form.map fun f => { f with since := f.since + n } }
      wlk := s.wlk.later n
      seam := { s.seam with ptn := s.seam.ptn.map fun x => { x with reduce := x.reduce.map (Reduce.later n) } }
      mem := { s.mem with lpd := s.mem.lpd.map fun x => { x with lastAt := x.lastAt + n } }
      pwr := { s.pwr with ptnStep := s.pwr.ptnStep.map (later n), modStep := s.pwr.modStep.map (later n) }
      err := { s.err with fit := s.err.fit.map fun f => { f with held := f.held.map fun h => (h.1, h.2.1 + n, h.2.2) } }
      boot := { s.boot with
        armedAt := laterOpt n s.boot.armedAt, phaseAt := s.boot.phaseAt + n
        act := s.boot.act.map fun a => { a with since := a.since + n } } }

end Sys2Proof.Machine
end

