-- ==== Sys2Proof/Machine/Dead.lean ====
section
/-! DEFINITION. What the death of a module does: discarded stores, shuttle faults, packets, the coupled group and reductions
(R281, R434, R435, R440, R441, R471). -/

namespace Sys2Proof.Machine

/-! ## Discarded stores (R281) -/

/-- The step that launched a bundle, if it still runs, aborts under a lost store (R321). -/
def State.stepLost (s : State) (c b : Nat) : State :=
  match ((s.core c).bundle b).obPart with
  | some (p, n) => if (s.obPart p).step == n then s.stepAbort p true else s
  | none => s

/-- A store of a skein to a dead module discarded: LOST, one contained record for each skein and dead module, the function bits
(R281, R386), the step (R321). -/
def State.lostStore (s : State) (c slot id addr : Nat) : State :=
  let k := s.skein c slot
  let part := s.partByte c
  let new_ := !k.lostTo.contains id
  let s := s.modSkein c slot fun k => { k with lost := true, lostTo := if new_ then id :: k.lostTo else k.lostTo }
  if !new_ then s
  else
    let s := s.record .contained .module (unitId 1 c) 0x0E 1 part (toBytes 4 id ++ toBytes 4 0 ++ toBytes 8 addr)
    let s := if part < 16 then s.partEvent part .lost else s.fnEvent 0 .lost
    s.stepLost c k.bundle.toNat

/-- Stores of a core to a dead module, buffered or unacknowledged. -/
def State.loseStores (s : State) (c id : Nat) : State :=
  let k := s.core c
  let gone := (k.unacked.filter fun u => u.dst == id).map fun u => (u.slots, u.addr)
  let held := (k.sb.filter fun e => lineModule e.line == id).map fun e =>
    (e.slots, locOf (e.line * 128) + ((e.bytes.head?).map (·.1)).getD 0)
  let s := s.modCore c fun k => { k with
    unacked := k.unacked.filter fun u => u.dst != id, sb := k.sb.filter fun e => lineModule e.line != id }
  s.each (gone ++ held) fun s e => s.each e.1 fun s slot => s.lostStore c slot id e.2

/-! ## Shuttles (R200 code 0x15) -/

/-- An entry whose destination has died: what is in flight is discarded, and a descriptor with granules there faults. One that only
awaits the answer to its completion packet waits no longer. -/
def ShEntry.killed (x : ShEntry) (id : Nat) : ShEntry :=
  if x.desc.dkind != 2 || modOf x.desc.dst.toNat != id || x.out.isEmpty then x
  else
    match (x.out.filter fun g => g != x.desc.grans).head? with
    | none => { x with out := [], outAt := [] }
    | some n =>
      let a := match x.desc.gran n with
        | some g => g.dst
        | none => x.desc.dst
      { x with
        out := [], outAt := [], issued := x.landed.length + x.refused.length
        fault := if x.fault.isSome then x.fault else some (0x15, a) }

/-- A queue with the entries of a dead destination; one of which nothing is to come leaves. -/
def ShQueue.killed (q : ShQueue) (id : Nat) : ShQueue :=
  { q with entries := (q.entries.map fun x => x.killed id).filter fun x => !x.over }

def Core.killShuttles (k : Core) (id : Nat) : Core :=
  { k with engines := k.engines.map fun g => { g with queues := g.queues.map fun q => q.killed id } }

/-! ## The group (R438 to R442) -/

/-- The live member with the lowest local ID other than one module's. -/
def State.firstMember (s : State) (but : Nat) : Option Nat := s.members.find? fun id => id != but && s.liveMember id

/-- Parent port and depth as the acting anchor gives them (R442). -/
def State.placeInTree (s : State) : State :=
  let s' := s
  s.modWlk fun w => { w with
    parent := match s'.parentPort with
      | some p => BitVec.ofNat 4 p
      | none => 0xF
    depth := BitVec.ofNat 8 (s'.depthOf w.moduleId.toNat) }

/-- Time is held for 100 ms, and no slew goes on (R442). -/
def State.holdTime (s : State) : State :=
  { s.modWlk fun w => { w with timeHold := true, timeHoldAt := s.time.now } with time := { s.time with slewLeft := 0 } }

/-- The partitions of the group. -/
def State.groupParts (s : State) : List Nat := (List.range 16).filter fun p => s.wlk.parts.getLsbD p

/-- The tree is found again after a port or a member is lost or a port comes back: an arrival at a barrier goes to the new parent
(R441, R442). -/
def State.regrow (s : State) : State :=
  if !s.grouped then s
  else
    let old := s.wlk.parent
    let s := s.placeInTree
    let s := if s.wlk.parent == old then s else s.each s.groupParts fun s p => s.modObPart p fun o => { o with barrierSent := false }
    s.each s.groupParts fun s p => s.barrierTry p

/-- Every live sequence of PARTS ends in STATE 7 with code 0x10F (R440). -/
def State.endGroupSeqs (s : State) : State :=
  s.each s.groupParts fun s p => s.each (s.seqsOf p) fun s e => s.closeEntry e.1 7 0x10F

/-- The group stops: the anchor ends every live sequence of PARTS, and every reduction of PARTS ends (R440, R470). -/
def State.stopGroup (s : State) : State :=
  let was := s.isAnchor
  let s := s.modWlk fun w => { w with gstate := .stopped }
  let s := if was then s.endGroupSeqs else s
  s.each s.groupParts fun s p => s.endReduce p 9 0

/-- Whether a time lies within 20 ms before now. -/
def State.within20ms (s : State) (t : Option Dword) : Bool :=
  match t with
  | some t => decide (s.now ≤ t.toNat + 20000000)
  | none => false

/-- A member lost (R440, R441). -/
def State.loseMember (s : State) (id : Nat) : State :=
  if !s.grouped || !s.members.contains id || s.wlk.lostMembers.any (fun m => m.1 == id) then s
  else
    let w := s.wlk
    let isA := w.anchor.toNat == id
    let isD := w.deputy.toNat == id
    let both := (isA && s.within20ms w.deputyLost) || (isD && s.within20ms w.anchorLost)
    let s := s.modWlk fun w => { w with
      lostMembers := (id, s.time.now) :: w.lostMembers
      anchorLost := if isA then some s.time.now else w.anchorLost
      deputyLost := if isD then some s.time.now else w.deputyLost }
    let s := if isD then s.modWlk fun w => { w with deputy := BitVec.ofNat 17 ((s.firstMember w.anchor.toNat).getD w.anchor.toNat) } else s
    if both || 1 < w.w.toNat * w.d.toNat then s.stopGroup
    else
      (s.modWlk fun w => { w with gstate := .degraded }).regrow

/-! ## The whole effect -/

/-- Packets waiting at a port for or from a dead module leave (R434, R435). -/
def Port.purge (p : Port) (id : Nat) : Port :=
  let ok (x : Packet) : Bool := x.dst.toNat != id && x.src.toNat != id
  { p with queue := p.queue.filter ok, seamQ := p.seamQ.filter fun q => ok q.p }

/-- What a mark does (R434, R435). -/
def State.deadEffects (s : State) (id : Nat) : State :=
  let s := s.modWlk fun w => { w with ports := w.ports.map fun p => p.purge id }
  let s := s.each (s.cores.map (·.1)) fun s c => (s.modCore c fun k => k.killShuttles id).loseStores c id
  let s := s.loseMember id
  s.each (List.range 16) fun s p => s.seamLost p id

/-- The marks made while a command ran take effect, one after another: an effect may send, and find another module
unreachable. -/
def State.settleMarks (s : State) : Nat → State
  | 0 => s
  | f + 1 =>
    match s.wlk.deadPending with
    | [] => s
    | id :: r => ((s.modWlk fun w => { w with deadPending := r }).deadEffects id).settleMarks f

/-- The end of every command that can send a packet. -/
def State.settle (s : State) : State := s.settleMarks 1024

end Sys2Proof.Machine
end

