-- ==== Sys2Proof/Machine/Links.lean ====
section
/-! DEFINITION. The block layer of a port, training and retraining, ports going down, the system shape and the coupled group
(R421 to R426, R429 to R448). -/

namespace Sys2Proof.Machine

/-! ## Violations and records (R445, R532) -/

/-- A link-peer violation: row of its table, response class, VIOLATIONS (R445, R546). -/
def State.linkViolation (s : State) (port row cls : Nat) : State :=
  (s.record .absorbed (.port port) (unitId 7 port) 0x07 cls noPart (toBytes 4 row ++ toBytes 4 (s.port port).peer.toNat)).modPort port
    fun p => { p with violations := satAdd p.violations 1 }

/-- A record of link state: 1 retrained, 2 down, 3 module declared dead, 4 miswired. -/
def State.linkRecord (s : State) (port code : Nat) : State :=
  s.record .contained .module (unitId 7 port) 0x10 code noPart
    (toBytes 4 (s.port port).width.toNat ++ toBytes 4 (s.port port).peer.toNat)

/-- A port's state and width set; a change of either raises vector 4 (R425). -/
def State.setPort (s : State) (port : Nat) (f : Port → Port) : State :=
  let old := s.port port
  let s := s.modPort port f
  let new_ := s.port port
  s.when (old.st != new_.st || old.width != new_.width) fun s => s.msix 0 4

/-- Whether a port index exists. -/
def portOk (port : Nat) : Bool := decide (port < 12)

/-! ## Sending on a port that changes (R424, R433, R459) -/

/-- The seam packets of a port whose width is below 8 leave as seam writes (R425, R459, R472). -/
def State.bypassPort (s : State) (port : Nat) : State :=
  let x := s.port port
  if !x.bypass then s
  else
    let held := x.seamQ.map (·.p)
    let adds := (x.queue.filter fun p => p.kind == 9).length + held.length
    (s.modPort port fun x => { x with
      seamQ := [], converted := x.converted + BitVec.ofNat 32 adds
      queue := (x.queue ++ held).map fun p => if p.kind == 9 then { p with kind := 0xA } else p }).flushPort port
        (x.queue.length + held.length + 1)

/-- A block of the retry buffer sent again. -/
def Port.resend (p : Port) (b : TxBlock) : Port := p.send (p.block 1 b.seq (b.packets.flatMap packetBytes))

/-- Every block of the retry buffer resent, in SEQ order. -/
def State.resendAll (s : State) (port : Nat) : State :=
  let n := (s.port port).retry.length
  (s.modPort port fun p => { p.retry.foldl Port.resend p with
    retry := p.retry.map fun b => { b with resends := b.resends + 1 } }).aonAdd (recPort port) 1 n

/-- Retraining starts; each end tells its lanes once they have trained (R424). -/
def State.startRetrain (s : State) (port : Nat) : State :=
  if (s.port port).st != .up then s
  else s.setPort port fun p => { p with
    st := .retraining, retrains := satAdd p.retrains 1, retrainAt := s.time.now, ownLanes := none, peerLanes := none }

/-- Retraining starts when a block has been resent 16 times. -/
def State.checkResends (s : State) (port : Nat) : State :=
  s.when ((s.port port).retry.any fun b => 16 ≤ b.resends) fun s => s.startRetrain port

/-! ## ACK, NAK and credits (R423, R431) -/

/-- An ACK: the blocks up to it leave the retry buffer. One that names a SEQ never sent is ignored. -/
def State.takeAck (s : State) (port : Nat) (ack : BitVec 12) : State :=
  let p := s.port port
  match findIdx (fun b => b.seq == ack) p.retry with
  | some i => s.modPort port fun p => { p with retry := p.retry.drop (i + 1), lastBlockAt := s.time.now }
  | none =>
    let back := (p.nextSeq - 1 - ack).toNat
    if p.seqSent ≤ back then s.linkViolation port 2 2 else s

/-- Credits returned: no more than the buffer of R431. -/
def State.takeCredits (s : State) (port vc n : Nat) : State :=
  let have_ := nth 0 (s.port port).credits vc
  let s := s.modPort port fun p => { p with credits := upd p.credits vc fun c => min 2048 (c + n) }
  s.when (decide (2048 < have_ + n)) fun s => s.linkViolation port 3 2

/-- NAK: every block after ACK is resent. -/
def State.takeNak (s : State) (port : Nat) : State :=
  ((s.modPort port fun p => { p with naksRcvd := satAdd p.naksRcvd 1 }).resendAll port).checkResends port

/-- The header fields of a good block. -/
def State.takeHeader (s : State) (port : Nat) (b : Block) : State :=
  let s := s.when b.ackv fun s => s.takeAck port b.ack
  let s := s.when (b.credits != 0) fun s => s.takeCredits port b.cvc.toNat b.credits.toNat
  let s := s.when b.nak fun s => s.takeNak port
  s.flushPort port ((s.port port).queue.length + 1)

/-- NAK sent, once for each gap. -/
def State.sendNak (s : State) (port : Nat) : State :=
  if (s.port port).nakSent then s
  else (s.modPort port fun p => { p with nakSent := true, naksSent := satAdd p.naksSent 1 }).sendIdle port true

/-! ## Packets that pass through (R427 to R431, R435, R445) -/

/-- Whether a packet's kind, channel, reserved bits and units are as R427 and R428 give them. -/
def packetOk (p : Packet) : Bool :=
  let seam := 9 ≤ p.kind.toNat && p.kind.toNat ≤ 0xB
  let n := p.body.length
  p.kind.toNat ≤ 0xB && p.vc.toNat ≤ 5 && p.rsv118 == 0 && (seam || p.rsv19 == 0) &&
    (match p.kind.toNat with
    | 1 => if p.msk == 1 then n == 80 && zeroAt p.body 8 8 else n == 64
    | 2 => n == 16 && decide (leAt p.body 4 1 ≤ 1) && zeroAt p.body 5 11
    | 5 => n == 16 && decide (leAt p.body 4 1 < 32) && zeroAt p.body 5 11
    | 6 => n == 16 && decide (leAt p.body 0 4 < 2 ^ 17) && zeroAt p.body 4 12
    | 8 => n == 16 && zeroAt p.body 2 14
    | 3 | 4 | 7 => n == 0
    | _ => true)

/-- An answer sent on its way. -/
def State.answer (s : State) (p : Packet) (kind n reason : Nat) : State := s.send (s.answerTo p kind n reason) none

/-- The checks that any module makes of a packet it receives: whether it goes on, and the state after them. -/
def State.checkPacket (s : State) (port : Nat) (p : Packet) : State × Bool :=
  let w := s.wlk
  if !packetOk p then (s.linkViolation port 5 1, false)
  else if w.modules ≤ p.src.toNat || p.src == w.moduleId then (s.linkViolation port 7 1, false)
  else if w.modules ≤ p.dst.toNat then
    if p.kind == 1 || p.kind == 2 then ((s.linkViolation port 6 3).answer p 4 1 1, false) else (s.linkViolation port 6 1, false)
  else if w.dead.contains p.src.toNat || w.dead.contains p.dst.toNat then (s, false)
  else (s, true)

/-- A packet of an accepted block. An empty unit is ignored; one with a bit set, and a packet of a reserved kind, is a violation
wherever it is bound. Its units take buffer space until they are returned as credits; without credit it is dropped. One for another
module goes on; one for this module acts by the command of its kind. -/
def State.takePacket (s : State) (port : Nat) (p : Packet) : State :=
  if p.kind == 0 then s.linkViolation port 5 1
  else
    let v := p.vc.toNat
    if 2048 < nth 0 (s.port port).owed v + unitsOf p then s.linkViolation port 4 1
    else
      let s := s.modPort port fun x => { x with owed := upd x.owed v fun n => n + unitsOf p }
      if p.kind.toNat ≤ 0xB && p.dst == s.wlk.moduleId then s
      else
        let (s, ok) := s.checkPacket port p
        if ok then s.send p (some port) else s

/-- A block received on a port in service (R422, R423, R445): a bad one has no effect, is answered with NAK where data blocks flow and is
a violation unless its CRC is what fails; a good one's header acts there, and then its content. -/
def State.receive (s : State) (port : Nat) (b : Block) (act : State → State) : State :=
  let up := (s.port port).st == .up
  if !portOk port || (s.port port).st == .disabled || (s.port port).st == .down then s
  else if !blockOk b then
    (if b.crcOk then s.linkViolation port 1 3 else s).when up fun s => s.sendNak port
  else act (s.when up fun s => s.takeHeader port b)

/-- The next data block is accepted, and its packets are taken; any other is answered with NAK (R423). -/
def State.takeData (s : State) (port : Nat) (b : Block) : State :=
  let x := s.port port
  if x.st != .up then s
  else if b.seq != x.expect then s.sendNak port
  else
    let s := s.modPort port fun x => { x with expect := x.expect + 1, accepted := true, nakSent := false }
    let s := s.each b.packets fun s p => s.takePacket port p
    (s.sendIdle port false).flushPort port ((s.port port).queue.length + 1)

/-- LINK_DATA_BLOCK_RECEIVE (R423). -/
def execLinkDataBlockReceive (port : Nat) (b : Block) (s : State) : Out :=
  .next (s.receive port b fun s => if b.bkind == 1 then s.takeData port b else s).settle

/-- LINK_IDLE_BLOCK_RECEIVE: the header's fields act (R422). -/
def execLinkIdleBlockReceive (port : Nat) (b : Block) (s : State) : Out := .next (s.receive port b fun s => s).settle

/-! ## Training (R421, R424, R425, R432) -/

/-- The aligned groups of lanes, widest first: width code, first lane, lanes. -/
def laneGroups : List (Nat × Nat × Nat) :=
  [(3, 0, 8), (2, 0, 4), (2, 4, 4), (1, 0, 2), (1, 2, 2), (1, 4, 2), (1, 6, 2)]

/-- The widest group, no wider than a width code, whose lanes are all in a mask. -/
def widest (mask : BitVec 8) (most : Nat) : Option (Nat × Nat) :=
  (laneGroups.find? fun g => decide (g.1 ≤ most) && (List.range g.2.2).all fun i => mask.getLsbD (g.2.1 + i)).map fun g => (g.1, g.2.1)

/-- A width taken: below 8 lanes the seam adders are bypassed. -/
def Port.takeWidth (p : Port) (g : Nat × Nat) (lanes : BitVec 8) : Port :=
  { p with renew := false, width := BitVec.ofNat 2 g.1, first := BitVec.ofNat 3 g.2, laneOk := lanes, bypass := g.1 != 3 }

/-- A port goes up with a width, and its traffic goes on from the first unacknowledged block. -/
def State.goUp (s : State) (port : Nat) (g : Nat × Nat) (lanes : BitVec 8) : State :=
  let s := s.setPort port fun p => { p.takeWidth g lanes with st := .up, retry := p.retry.map fun b => { b with resends := 0 } }
  let s := s.modPort port fun p => { p with lastBlockAt := s.time.now }
  let s := (s.resendAll port).modPort port fun p => { p with retry := p.retry.map fun b => { b with resends := 0 } }
  ((s.bypassPort port).flushPort port ((s.port port).queue.length + 1)).regrow

/-- Whether an IDENT is the one that R429 places at the far end of a port. -/
def State.identOk (s : State) (port : Nat) (m : IdentMsg) : Bool :=
  let w := s.wlk
  w.len (dimOf port) != 0 && w.farEnd port == (m.module.toNat, m.port) && m.shape == w.shape

/-- A port whose peer's IDENT matched goes up at the lanes that trained, all of them where no row has told them (R432; log entry 94). -/
def State.trainUp (s : State) (port : Nat) : State :=
  let p := s.port port
  let lanes := p.ownLanes.getD 0xFF
  if p.st != .training || !p.met then s
  else
    match widest lanes 3 with
    | some g => s.goUp port g lanes
    | none => s

/-- An IDENT read in training, or by a port held miswired. -/
def State.takeIdent (s : State) (port : Nat) (m : IdentMsg) : State :=
  let p := s.port port
  if !(p.st == .training || p.st == .miswired) then s
  else
    let s := s.modPort port fun p => { p with peer := m.module, peerPort := BitVec.ofNat 4 m.port }
    if s.identOk port m then (s.setPort port fun p => { p with st := .training, met := true }).trainUp port
    else ((s.setPort port fun p => { p with st := .miswired, met := false }).linkViolation port 11 5).linkRecord port 4

/-- IDENT: the port goes up, or is held miswired (R426, R432). -/
def execIdent (port : Nat) (b : Block) (s : State) : Out :=
  .next (s.receive port b fun s => if b.isCtl 1 then s.takeIdent port (identOf b) else s).settle

/-- The widest group that trained at both ends, and is no wider than before unless a widening was asked for (R424, R425). -/
def State.retrained (s : State) (port : Nat) : State :=
  let p := s.port port
  match p.st, p.ownLanes, p.peerLanes with
  | .retraining, some own, some peer =>
    match widest (own &&& peer) (if p.renew then 3 else p.width.toNat) with
    | some g => (s.goUp port g own).linkRecord port 1
    | none => s
  | _, _, _ => s

/-- The lanes that trained at this end: LANE_OK, and in retraining the LANES that tells them (R424, R426, R448). -/
def State.lanesTrained (s : State) (port : Nat) (own : BitVec 8) : State :=
  let st := (s.port port).st
  if !portOk port || !(st == .training || st == .retraining) then s
  else
    let s := s.modPort port fun p => { p with laneOk := own, ownLanes := some own }
    if st == .training then s.trainUp port else (s.sendCtl port (lanesPayload own)).retrained port

/-- LANES: the peer's lanes; where this port is up its peer retrains, and it does too (R424, R426). -/
def execLanes (port : Nat) (b : Block) (s : State) : Out :=
  .next (s.receive port b fun s =>
    if b.isCtl 2 then ((s.startRetrain port).modPort port fun p => { p with peerLanes := some (trainedOf b) }).retrained port else s).settle

/-- LINK_PROGRESS_TIMEOUT (R424). -/
def execLinkProgressTimeout (port : Nat) (t : Dword) (s : State) : Out :=
  let s := s.at_ t
  let p := s.port port
  .next (if portOk port && !p.retry.isEmpty && decide (p.lastBlockAt.toNat + 100000 ≤ s.now) then s.startRetrain port else s)

/-- LINK_FEC_THRESHOLD (R424). -/
def execLinkFecThreshold (port uncorrectable : Nat) (s : State) : Out :=
  .next (if portOk port then
    (s.aonAdd (recPort port) 3 uncorrectable).when (decide (1000 < uncorrectable)) fun s => s.startRetrain port else s)

/-- LINK_RETRAIN_COMPLETE: lanes have trained at this end, in training or in retraining (R424, R425, R448). -/
def execLinkRetrainComplete (port : Nat) (ownLanes : BitVec 8) (s : State) : Out := .next (s.lanesTrained port ownLanes).settle

/-! ## Ports going down (R424, R433 to R435) -/

/-- Whether a port faces the time parent (R442). -/
def State.facesParent (s : State) (port : Nat) : Bool := s.grouped && s.wlk.parent.toNat == port

/-- A packet to the peer of a port, by the remaining routes. -/
def State.probePeer (s : State) (port : Nat) : State :=
  let peer := (s.port port).peer.toNat
  (s.modPort port fun p => { p with probedAt := s.time.now }).send (s.newPacket 7 peer 0) none

/-- The packets that wait at a port take other routes. -/
def State.reroute (s : State) (port : Nat) : State :=
  let x := s.port port
  let ps := x.queue ++ x.seamQ.map (·.p)
  let s := s.modPort port fun x => { x with queue := [], seamQ := [] }
  s.each ps fun s p => s.resend p port

/-- A port leaves service: PROBE goes to the peer at once, and what waits is re-routed. Only where retries are exhausted does the time
to declare the peer dead begin (R433, R434; log entry 97). -/
def State.leave (s : State) (port : Nat) (st : PortSt) (exhausted : Bool) : State :=
  let parent := s.facesParent port
  let s := s.setPort port fun p => { p with st := st, width := 0, downAt := if exhausted then some s.time.now else none, probes := true }
  let s := (s.when parent fun s => s.holdTime).regrow
  (s.probePeer port).reroute port

/-- LINK_RETRAIN_TIMEOUT: retries are exhausted, and the port goes down (R424, R433). -/
def execLinkRetrainTimeout (port : Nat) (t : Dword) (s : State) : Out :=
  let s := s.at_ t
  let p := s.port port
  if portOk port && p.st == .retraining && decide (p.retrainAt.toNat + 1000000 ≤ s.now) then
    .next ((s.leave port .down true).linkRecord port 2).settle
  else .next s

/-- DOWN: the peer takes the port down; one that still trains has nothing to send again (R426). -/
def execDown (x : PortBlock) (s : State) : Out :=
  let port := x.port
  .next (s.receive port x.block fun s =>
    let st := (s.port port).st
    if !x.block.isCtl 4 then s
    else if st == .up || st == .retraining then (s.leave port .down false).linkRecord port 2
    else (s.setPort port fun p => { p with st := .down, width := 0 }).linkRecord port 2).settle

/-- Whether a port waits for a PROBE_REPLY. -/
def Port.probing (p : Port) : Bool := p.probes && (p.st == .down || p.st == .disabled)

/-- PROBE_TIMER: PROBE again every 50 µs (R433). -/
def execProbeTimer (port : Nat) (t : Dword) (s : State) : Out :=
  let s := s.at_ t
  let p := s.port port
  if portOk port && p.probing && decide (p.probedAt.toNat + 50000 ≤ s.now) then .next (s.probePeer port).settle else .next s

/-- PEER_DEAD_TIMEOUT: no PROBE_REPLY within 500 µs: the peer is declared dead (R434). -/
def execPeerDeadTimeout (port : Nat) (t : Dword) (s : State) : Out :=
  let s := s.at_ t
  let p := s.port port
  match p.downAt with
  | none => .next s
  | some d =>
    if portOk port && p.probing && decide (d.toNat + 500000 ≤ s.now) then
      let s := s.modPort port fun p => { p with downAt := none, probes := false, retry := [] }
      .next ((s.markDead p.peer.toNat none).linkRecord port 3).settle
    else .next s

/-! ## System shape and ports' registers (R446 to R448) -/

/-- Local address of a register of the WLK_ sub-block of die 0 (R20, R446). -/
def wlkRegAddr (off : Nat) : Nat := 0x030020000000 + 0x6000000 + off

/-- WLK_SYS as a word. -/
def WlkSt.sysWord (w : WlkSt) : Dword :=
  fld (w.len 5) 59 ||| fld (w.len 4) 56 ||| fld (w.len 3) 53 ||| fld (w.len 2) 50 ||| fld (w.len 1) 47 ||| fld (w.len 0) 44
    ||| fld w.moduleId.toNat 0

/-- WLK_SYS_WRITE (R444, R447): ignored while any port is not disabled; values out of range leave it unchanged. -/
def execWlkSysWrite (op : RegOp) (s : State) : Out :=
  if !isWide op.agent then .next s
  else
    let v := (mergeWrite s.wlk.sysWord op).toNat
    let shape := (List.range 5).map (fun d => nbits v (46 + 3 * d) (44 + 3 * d)) ++ [nbits v 59 59]
    if (s.wlk.ports.any fun p => p.st != .disabled) || 17 < shape.sum || 2 ^ shape.sum ≤ nbits v 16 0 then
      .next (s.refusedWrite (unitId 0 0) noPart (wlkRegAddr 0) (acctOf op.agent))
    else .next (s.modWlk fun w => { w with shape := shape, moduleId := BitVec.ofNat 17 (nbits v 16 0) })

/-- PORT_ENABLE: a disabled port starts training and sends IDENT (R432, R448). -/
def execPortEnable (port : Nat) (op : RegOp) (s : State) : Out :=
  if !isWide op.agent || !portOk port || !covers op 0 0 || !bit op.value 0 || (s.port port).enable then .next s
  else
    let s := s.setPort port fun p => { p with
      st := .training, enable := true, ownLanes := none, peerLanes := none, met := false, retry := [], nextSeq := 0, seqSent := 0, expect := 0
      accepted := false, nakSent := false, credits := List.replicate 6 2048, owed := List.replicate 6 0, downAt := none, probes := false
      retrainAt := s.time.now, timeSent := none, timeRecv := none, stamps := none }
    .next (s.sendCtl port (identPayload s.wlk.sysWord.toNat port))

/-- PORT_DISABLE: DOWN is sent and the port is disabled; what waits takes other routes (R426, R433, R448). -/
def execPortDisable (port : Nat) (op : RegOp) (s : State) : Out :=
  if !isWide op.agent || !portOk port || !covers op 0 0 || bit op.value 0 || !(s.port port).enable then .next s
  else
    let p := s.port port
    let s := (s.sendCtl port downPayload).modPort port fun p => { p with enable := false }
    if p.st == .up || p.st == .retraining then .next (s.leave port .disabled false).settle
    else .next (s.setPort port fun p => { p with st := .disabled, width := 0 })

/-! ## Coupled groups (R436 to R440) -/

/-- The W, D and M fields of a write of WLK_GROUP; W and D of 0 are out of range and change nothing. D spans both halves. -/
def State.groupFields (s : State) (op : RegOp) : State :=
  let v := op.value.toNat
  (s.spanning op (wlkRegAddr 8)).modWlk fun w => { w with
    w := if covers op 41 34 && nbits v 41 34 != 0 then BitVec.ofNat 8 (nbits v 41 34) else w.w
    d := if covers op 33 26 && nbits v 33 26 != 0 then BitVec.ofNat 8 (nbits v 33 26) else w.d
    m := if covers op 25 9 then BitVec.ofNat 17 (nbits v 25 9) else w.m }

/-- Whether a FORM is acted on: in GSTATE 0 or 5. -/
def State.groupForms (s : State) : Bool := s.wlk.gstate == .none || s.wlk.gstate == .refused

/-- GROUP_FORM: formation starts in GSTATE 0 or 5; elsewhere the write is ignored, its other fields with it (R438; the latter DESIGN
CHOICE, log entry 89). -/
def execGroupForm (op : RegOp) (t : Dword) (s : State) : Out :=
  let s := s.at_ t
  if !isWide op.agent || !covers op 60 60 || !bit op.value 60 then .next s
  else if s.groupForms then
    .next ((s.groupFields op).modWlk fun w => { w with gstate := .forming, formAt := some s.time.now, failed := 0 })
  else .next (s.refusedWrite (unitId 0 0) noPart (wlkRegAddr 8) (acctOf op.agent))

/-- The group formed: local ID, anchor, deputy, the tree; every mark goes, and each partition's barrier starts at its step
(R434, R436, R438, R441, R442). -/
def State.formed (s : State) : State :=
  let id := (findIdx (fun m => m == s.myId) s.members).getD 0
  let anchor := s.member 0
  let s := s.modWlk fun w => { w with
    gstate := .formed, localId := BitVec.ofNat 17 id, anchor := BitVec.ofNat 17 anchor
    deputy := BitVec.ofNat 17 (if 1 < s.groupSize then s.member 1 else anchor)
    dead := [], deadPending := [], deadCount := 0, lostMembers := [], deadTimes := [], anchorLost := none, deputyLost := none
    formAt := none }
  let s := s.placeInTree
  s.each s.groupParts fun s p => s.modObPart p fun o => { o with goStep := o.step, barrierKids := [], barrierSent := false }

/-- The modules on the way from one to another by R430, where every port is up: the last is the target. -/
def WlkSt.wayTo (w : WlkSt) : Nat → Nat → Nat → List Nat
  | 0, _, _ => []
  | n + 1, id, dst =>
    match (List.range 6).find? fun d => w.coord id d != w.coord dst d with
    | none => []
    | some d =>
      let next := w.next id d (goesMinus (w.coord id d) (w.coord dst d) (2 ^ w.len d))
      next :: w.wayTo n next dst

/-- Whether a member passes the anchor's check: its FORM came within 1 s of the anchor's, it has the same table, shape and image, and
its route to the anchor passes through members only (R438; log entry 85). -/
def State.memberOk (s : State) (members : List (Option MemberForm)) (i : Nat) : Bool :=
  match nth none members 0, nth none members i with
  | some a, some m =>
    decide (m.at_.toNat ≤ a.at_.toNat + 1000000000 ∧ a.at_.toNat ≤ m.at_.toNat + 1000000000) && m.table == s.members
      && m.shape == s.wlk.shape && m.image == s.ob.image.map (·.id)
      && (s.wlk.wayTo 400 (s.member i) (s.member 0)).all s.members.contains
  | _, _ => false

/-- The first local ID that fails the anchor's check. -/
def State.formFailing (s : State) (members : List (Option MemberForm)) : Option Nat :=
  (List.range s.groupSize).find? fun i => !s.memberOk members i

/-- GROUP_FORMATION_CHECK: the members agree, and time steps to the greatest of theirs; or formation is refused with the first
failing local ID, a member without a FORM once 1 s has passed (R438, R485). It waits for a load (R444). -/
def execGroupFormationCheck (members : List (Option MemberForm)) (greatest t : Dword) (s : State) : Out :=
  let s := s.at_ t
  if s.wlk.gstate != .forming || s.loading then .next s
  else
    match s.formFailing members with
    | some id =>
      if nth none members id == none && decide (s.now < ((s.wlk.formAt.getD 0).toNat + 1000000000)) then .next s
      else .next (s.modWlk fun w => { w with gstate := .refused, failed := BitVec.ofNat 17 id, formAt := none })
    | none =>
      let s := if s.time.now < greatest then s.stepTime (greatest - s.time.now) else s
      .next s.formed

/-- What LEAVE does: a formed or stopped group is left (R438). -/
def State.leaveGroup (s : State) : State :=
  if s.grouped || s.wlk.gstate == .stopped then s.modWlk fun w => { w with gstate := .none, parent := 0xF, depth := 0, timeHold := false }
  else s

/-- GROUP_LEAVE: this module leaves, or this module learns that another member has left and counts as dead for the group (R438; log
entry 85). -/
def execGroupLeave (leaver : Leaver) (s : State) : Out :=
  match leaver with
  | .member id => .next (if id == s.myId then s else s.loseMember id).settle
  | .here op =>
    if !isWide op.agent || !covers op 59 59 || !bit op.value 59 then .next s
    else .next (s.groupFields op).leaveGroup

/-- Whether the deputy takes over for an anchor that is lost: in a group that runs, and in one that stopped because W × D > 1 and not
because the deputy was lost with the anchor (R440). -/
def State.takesOver (s : State) : Bool :=
  let w := s.wlk
  (s.grouped || (w.gstate == .stopped && decide (1 < w.w.toNat * w.d.toNat) && w.deputyLost.isNone))
    && !s.liveMember w.anchor.toNat && s.liveMember w.deputy.toNat

/-- ANCHOR_TAKEOVER: the deputy acts as anchor and names the next deputy; time is held, and the barrier of the step in flight
starts again on the new tree. In a stopped group it ends the sequences of PARTS that live here (R440 to R442). -/
def execAnchorTakeover (t : Dword) (s : State) : Out :=
  let s := s.at_ t
  if s.takesOver then
    let s := s.modWlk fun w => { w with anchor := w.deputy, anchorLost := none, deputyLost := none }
    let s := s.modWlk fun w => { w with deputy := BitVec.ofNat 17 ((s.firstMember w.anchor.toNat).getD w.anchor.toNat) }
    let s := (s.placeInTree).holdTime
    let s := s.when (s.wlk.gstate == .stopped && s.isAnchor) fun s => s.endGroupSeqs
    .next (s.each (List.range 16) fun s p =>
      (s.modObPart p fun o => { o with barrierKids := [], barrierSent := false }).barrierTry p).settle
  else .next s

/-! ## Time across modules (R426, R442, R485) -/

/-- A TIME block sent: the time now, and that of the peer's last TIME here. -/
def State.sendTime (s : State) (port : Nat) : State :=
  (s.sendCtl port (timePayload s.now ((s.port port).timeRecv.getD 0).toNat)).modPort port fun p => { p with timeSent := some s.time.now }

/-- TIME: its times and ours are the four of an exchange. One that does not come from the parent is answered (R426, R442). -/
def execTime (port : Nat) (b : Block) (t : Dword) (s : State) : Out :=
  let s := s.at_ t
  .next (s.receive port b fun s =>
    if !b.isCtl 3 || (s.port port).st != .up then s
    else
      let x := timesOf b
      let s := s.modPort port fun p => { p with
        timeRecv := some s.time.now, stamps := p.timeSent.map fun t1 => { t1 := t1, t2 := x.2, t3 := x.1, t4 := s.time.now } }
      s.when (s.grouped && !s.facesParent port) fun s => s.sendTime port).settle

/-- Twice the offset to the parent in ns: on equal delays both ways, what the four times give (R442). -/
def offset2 (x : TimeStamps) : Int := ((x.t2.toNat : Int) - x.t1.toNat) + ((x.t3.toNat : Int) - x.t4.toNat)

/-- The offset measured, in units of 0.25 ns, and its slew begun (R442, R447, R485). -/
def State.takeOffset (s : State) (x : TimeStamps) : State :=
  let d := offset2 x
  { s.modWlk fun w => { w with offset := BitVec.ofInt 16 (2 * d) } with time := { s.time with slewLeft := d / 2 } }

/-- TIME_EXCHANGE: every 1 ms a member takes the offset of the last exchange with its parent, unless it holds its time, and sends the
next TIME (R442, R485). -/
def execTimeExchange (t : Dword) (s : State) : Out :=
  let s := s.at_ t
  let port := s.wlk.parent.toNat
  if !s.grouped || s.isAnchor || !portOk port || (s.port port).st != .up then .next s
  else
    let s := match (s.port port).stamps with
      | some x => if s.wlk.timeHold then s else s.takeOffset x
      | none => s
    .next ((s.modPort port fun p => { p with stamps := none }).sendTime port)

/-- TIME_HOLD_EXPIRY: the hold of 100 ms is over (R442). -/
def execTimeHoldExpiry (t : Dword) (s : State) : Out :=
  let s := s.at_ t
  .next (if s.wlk.timeHold && decide (s.wlk.timeHoldAt.toNat + 100000000 ≤ s.now) then s.modWlk fun w => { w with timeHold := false } else s)

end Sys2Proof.Machine
end

