-- ==== Sys2Proof/Machine/Remote.lean ====
section
/-! DEFINITION. Shuttle granules, completion and faults (R189, R190, R200, R201), and the packets that act on this module: remote
writes, counts, answers, barriers, deaths and probes (R428, R433 to R437, R441). -/

namespace Sys2Proof.Machine

/-! ## What a shuttle sends (R427, R428) -/

/-- ETAG of a shuttle: core, engine × 4 + queue + 1, queue slot. -/
def shuttleTag (c e q slot : Nat) : Nat := c * 512 + (e * 4 + q + 1) * 32 + slot

/-- The WRITE packet of a granule: its bytes at their place in the 64-byte granule, with a mask unless they fill it. -/
def State.granPacket (s : State) (c e q : Nat) (x : ShEntry) (g : Gran) (bs : List Byte) : Packet :=
  let d := x.desc
  let o := g.dst.toNat % 64
  let mask := (2 ^ g.len - 1) * 2 ^ o
  let data := List.replicate o 0 ++ bs ++ List.replicate (64 - o - g.len) 0
  { s.newPacket 1 (modOf g.dst.toNat) x.part with
    msk := BitVec.ofNat 1 (b2n (g.len != 64)), gaddr := BitVec.ofNat 41 (locOf g.dst.toNat / 64)
    core := if d.dmode == 1 then BitVec.ofNat 10 d.cntCore else 0, cnt := if d.dmode == 1 then BitVec.ofNat 8 d.cnt else 0
    cen := BitVec.ofNat 1 (b2n (d.dmode == 1)), etag := BitVec.ofNat 19 (shuttleTag c e q x.slotNo)
    body := (if g.len == 64 then [] else toBytes 16 mask) ++ data }

/-- A COUNT packet to a descriptor's counter. -/
def State.countPacket (s : State) (c e q : Nat) (x : ShEntry) (add : Nat) (fault : Bool) : Packet :=
  { s.newPacket 2 x.desc.cntModule x.part with
    core := BitVec.ofNat 10 x.desc.cntCore, cnt := BitVec.ofNat 8 x.desc.cnt, etag := BitVec.ofNat 19 (shuttleTag c e q x.slotNo)
    body := toBytes 4 add ++ [BitVec.ofNat 8 (b2n fault)] ++ List.replicate 11 0 }

/-! ## Granules issued and landing (R189, R190, R200) -/

/-- The next granule of an entry issued: its translations stay cached, and it faults, which stops the descriptor, or its source is
read. One to another module is sent and waits for its answer; one to this module is in flight until it lands (R190, R200, R220). -/
def State.issueGran (s : State) (c e q i : Nat) : State :=
  match (((s.core c).engine e).queue q).entries[i]? with
  | none => s
  | some x =>
    let n := x.issued
    match x.desc.gran n with
    | none => s
    | some g =>
      let leaves := s.granLeaves c x n g
      let plan := s.granPlan c x n g
      let s := s.each leaves fun s l => s.keepLeaf c l.1 l.2
      match plan with
      | .inl (code, va, p) =>
        (s.modEntryAt c e q i fun x => { x with fault := some (code, va) }).when (code == 0x13) fun s => s.ueRead p x.part
      | .inr (l, addr, key, typ) =>
        let bs := s.wordsAt l
        let s := s.each l fun s p => s.agentRead (p.2.2 == 0) x.part p.1 8
        if x.desc.dkind == 2 then
          (s.modEntryAt c e q i fun x => { x with issued := n + 1, out := x.out ++ [n], outAt := x.outAt ++ [s.time.now] }).send (s.granPacket c e q x g bs) none
        else
          let f : Flight := { gran := n, addr := addr, key := key, typ := typ, data := bs }
          s.modEntryAt c e q i fun x => { x with issued := n + 1, flight := x.flight ++ [f] }

/-- An entry issues its granules up to number n, as far as the first that faults. -/
def State.issueTo (s : State) (c e q i n : Nat) : Nat → State
  | 0 => s
  | f + 1 =>
    match (((s.core c).engine e).queue q).entries[i]? with
    | none => s
    | some x => if x.fault.isSome || n < x.issued then s else (s.issueGran c e q i).issueTo c e q i n f

/-- One granule of a local copy lands: it is written, counted in BYTES mode, and its bytes are delivered (R189). -/
def State.landGran (s : State) (c e q i : Nat) (x : ShEntry) (f : Flight) : State :=
  let s := if f.typ == 0 then s.normalWrite x.part 0 f.key f.addr f.data else s.homeWrite x.part f.key f.addr f.data
  let s := (s.granCount x.desc f.data.length).aonAdd (recShuttle (c * 2 + e)) 1 f.data.length
  s.modEntryAt c e q i fun x => { x with landed := f.gran :: x.landed, flight := x.flight.erase f }

/-- Whether a granule of an entry is still to be issued, or in flight on this module. -/
def ShEntry.waitsFor (x : ShEntry) (n : Nat) : Bool :=
  x.started && decide (n < x.desc.grans) && ((x.fault.isNone && decide (x.issued ≤ n)) || x.flight.any fun f => f.gran == n)

/-- SHUTTLE_WRITE_LAND: a started descriptor of the queue whose granule has not landed, a free one of several, issues its granules up
to that one; of a local copy it lands, of a remote one the granules issued are sent. A granule that faults stops the descriptor
(R189, R190, R200, R262). -/
def execShuttleWriteLand (core : CoreId) (engine : BitVec 1) (queue : BitVec 2) (granule : Nat) (s : State) : Out :=
  let c := core.toNat
  let e := engine.toNat
  let q := queue.toNat
  let es := (((s.core c).engine e).queue q).entries
  let l := (List.range es.length).filter fun i => (es[i]?.map fun x => x.waitsFor granule).getD false
  match l[Config.freeChoice s.time.free l.length % l.length]? with
  | none => .next s
  | some i =>
    let s := s.issueTo c e q i granule (granule + 1)
    let s := match (s.entriesAt c e q)[i]? with
      | none => s
      | some x =>
        match x.flight.find? fun (f : Flight) => f.gran == granule with
        | none => s
        | some f => s.landGran c e q i x f
    .next s.bump.settle

/-- SHUTTLE_DESCRIPTOR_DONE: the bytes of a descriptor in DONE mode and those of every earlier one of its queue have landed: its
counter rises by ADD, a remote one by a COUNT packet (R189, R194, R262, R428). -/
def execShuttleDescriptorDone (core : CoreId) (engine : BitVec 1) (queue : BitVec 2) (s : State) : Out :=
  let c := core.toNat
  let e := engine.toNat
  let q := queue.toNat
  let es := s.entriesAt c e q
  match findIdx (fun x => x.desc.dmode == 2 && x.complete && !x.done) es with
  | none => .next s
  | some i =>
    match es[i]? with
    | none => .next s
    | some x =>
      if !(es.take i).all ShEntry.cleared then .next s
      else if x.desc.dkind == 2 then
        let p := s.countPacket c e q x x.desc.add.toNat false
        .next ((s.modEntryAt c e q i fun x => { x with done := true, out := x.out ++ [x.desc.grans], outAt := x.outAt ++ [s.time.now] }).send p none).settle
      else .next ((s.putEntry c e q i { x with done := true }).cntAdd x.desc.cntCore x.desc.cnt x.desc.add.toNat)

/-- SHUTTLE_FAULT: a faulted descriptor whose granules have all landed or been answered settles its counters; in DONE mode its
addition comes in its turn (R194, R200, R201, R262). -/
def execShuttleFault (core : CoreId) (engine : BitVec 1) (queue : BitVec 2) (s : State) : Out :=
  let c := core.toNat
  let e := engine.toNat
  let q := queue.toNat
  let es := s.entriesAt c e q
  let mine (i : Nat) : Bool :=
    match es[i]? with
    | some x => x.fault.isSome && !x.done && x.settled && (x.desc.dmode != 2 || (es.take i).all ShEntry.cleared)
    | none => false
  match ((List.range es.length).find? mine).bind fun i => es[i]?.map fun x => (i, x) with
  | none => .next s
  | some (i, x) =>
    match x.fault with
    | none => .next s
    | some (code, a) =>
      let remote := x.desc.dkind == 2
      let tell := remote && code != 0x15 && x.desc.dmode != 0
      let s := if remote || x.desc.dmode == 0 then s
        else (s.cntAdd x.desc.cntCore x.desc.cnt x.settleAdd).cntFault x.desc.cntCore x.desc.cnt
      let s := s.settleShuttle c e q i x code a tell
      .next ((s.when tell fun s => s.send (s.countPacket c e q x x.settleAdd true) none)).settle

/-! ## Packets for this module: the common checks -/

/-- A packet of a kind that names this module, after the checks of every receiver. -/
def State.local_ (s : State) (port : Nat) (p : Packet) (kind : Nat) (f : State → State) : State :=
  if !portOk port || p.kind.toNat != kind || p.dst != s.wlk.moduleId then s
  else
    let (s, ok) := s.checkPacket port p
    if ok then f s else s

/-- Whether a partition is formed: it takes work while it serves or drains. -/
def State.accepts (s : State) (part : Nat) : Bool := (s.part part).st == .formed || (s.part part).st == .draining

/-- Whether an enabled admission range of a partition holds a module ID (R408). -/
def State.admits (s : State) (part src : Nat) : Bool :=
  (s.part part).admission.any fun a => a.en && decide (a.lo.toNat ≤ src ∧ src ≤ a.hi.toNat)

/-- Whether a local address lies in a landing window of a partition (R446, R448). -/
def State.lands (s : State) (part a : Nat) : Bool :=
  (s.part part).land.any fun l => l.en && decide (l.base.toNat ≤ a / 0x200000 ∧ a / 0x200000 ≤ l.limit.toNat)

/-- Whether a core belongs to a partition. -/
def State.coreIn (s : State) (part c : Nat) : Bool := s.partOf c == some part

/-- The reason codes that a WRITE or COUNT earns (R437): the partition and source; the place; the counter's core. -/
def State.peerReasons (s : State) (p : Packet) : List Nat :=
  let part := p.part.toNat
  let a := p.gaddr.toNat * 64
  let isWrite := p.kind == 1
  let place := if !isWrite then []
    else match s.place a with
      | .stack | .lpd => if s.lands part a then [] else [2]
      | .window c => if s.coreIn part c || s.lands part a then [] else [2]
      | .sealed_ => [4]
      | .reg | .unmapped => [3]
  (if s.accepts part && s.admits part p.src.toNat then [] else [1]) ++ place
    ++ (if (!isWrite || p.cen == 1) && !s.coreIn part p.core.toNat then [5] else [])

/-- A WRITE or COUNT refused (R437, R445). -/
def State.refusePacket (s : State) (port : Nat) (p : Packet) (reason : Nat) : State :=
  (s.linkViolation port 8 3).answer p 4 1 reason

/-! ## WRITE and COUNT (R276, R428, R437) -/

/-- The runs of a write: offset and byte of each byte it carries. -/
def writeBytes (p : Packet) : List (Nat × Byte) :=
  let data := if p.msk == 1 then p.body.drop 16 else p.body
  let mask := if p.msk == 1 then leAt p.body 0 8 else 2 ^ 64 - 1
  ((List.range 64).zip data).filter fun b => mask.testBit b.1

/-- WRITE: the granule lands, the counter rises by the bytes that land, and ACK goes back. -/
def execWrite (port : Nat) (p : Packet) (s : State) : Out :=
  .next (s.local_ port p 1 fun s =>
    match lowest (s.peerReasons p) with
    | some r => s.refusePacket port p r
    | none =>
      let bs := writeBytes p
      let s := s.each (runsOf bs) fun s r => s.homeWrite p.part.toNat 0 (p.gaddr.toNat * 64 + r.1) r.2
      let s := s.when (p.cen == 1) fun s => (s.cntFrom p.core.toNat p.cnt.toNat p.src.toNat).cntAdd p.core.toNat p.cnt.toNat bs.length
      s.answer p 3 1 0).settle

/-- COUNT: the counter rises by ADD, its FAULT bit is set when FAULT is 1, and ACK goes back. -/
def execCount (port : Nat) (p : Packet) (s : State) : Out :=
  .next (s.local_ port p 2 fun s =>
    match lowest (s.peerReasons p) with
    | some r => s.refusePacket port p r
    | none =>
      let c := p.core.toNat
      let n := p.cnt.toNat
      let s := s.when (leAt p.body 4 1 == 1) fun s => s.cntFault c n
      ((s.cntFrom c n p.src.toNat).cntAdd c n (leAt p.body 0 4)).answer p 3 1 0).settle

/-! ## ACK and REFUSE at the source (R427, R428, R437) -/

/-- ETAG: core, kind, entry. -/
def tagCore (t : BitVec 19) : Nat := nbits t.toNat 18 9
def tagKind (t : BitVec 19) : Nat := nbits t.toNat 8 5
def tagEntry (t : BitVec 19) : Nat := nbits t.toNat 4 0

/-- The shuttle entry that an ETAG names on a source, bound for a module, with something outstanding. -/
def State.tagged (s : State) (t : BitVec 19) (dst : Nat) : Option (Nat × ShEntry) :=
  let k := tagKind t - 1
  let es := (((s.core (tagCore t)).engine (k / 4)).queue (k % 4)).entries
  (findIdx (fun x => x.slotNo == tagEntry t && !x.out.isEmpty && modOf x.desc.dst.toNat == dst) es).bind fun i => es[i]?.map fun x => (i, x)

/-- Answers to n packets of a shuttle entry: the oldest outstanding ones. A completion packet that ends a settlement lets the
entry leave. -/
def State.answerShuttle (s : State) (t : BitVec 19) (i : Nat) (x : ShEntry) (n : Nat) (refused : Bool) : State :=
  let k := tagKind t - 1
  let c := tagCore t
  let e := k / 4
  let q := k % 4
  let got := (x.out.take n).filter fun g => g != x.desc.grans
  let y := { x with out := x.out.drop n, outAt := x.outAt.drop n }
  let y : ShEntry := if refused then
      { y with
        refused := got ++ y.refused
        fault := if y.fault.isSome then y.fault
          else (got.head?.bind x.desc.gran).map fun g => (0x14, g.dst) }
    else { y with landed := got ++ y.landed }
  (s.putEntry c e q i y).when (!refused) fun s => s.aonAdd (recShuttle (c * 2 + e)) 1 (x.desc.bytesOf got)

/-- The first n remote stores of a store-buffer entry to a module: answered, and which they were. -/
def State.answerStores (s : State) (c no dst n : Nat) : State × List Unacked :=
  let mine := ((s.core c).unacked.filter fun u => u.no == no && u.dst == dst).take n
  (s.modCore c fun k => { k with unacked := mine.foldl (fun l u => l.erase u) k.unacked }, mine)

/-- A store that its destination refused: the contained record on the source core (R437). -/
def State.storeRefused (s : State) (c reason : Nat) (u : Unacked) : State :=
  s.record .contained .module (unitId 1 c) 0x0E 2 (s.partByte c) (toBytes 4 u.dst ++ toBytes 4 reason ++ toBytes 8 u.addr)

/-- An answer at its source: to a store-buffer entry, to a list write of the Order Book engine, or to a shuttle entry; one
with nothing outstanding is ignored as a violation (R445). -/
def State.answered (s : State) (port : Nat) (p : Packet) (refused : Bool) : State :=
  let t := p.etag
  let n := ackN p
  let src := p.src.toNat
  if tagKind t == 0 then
    let (s, us) := s.answerStores (tagCore t) (tagEntry t) src n
    if us.isEmpty then
      if t == listTag && s.wlk.listOut.contains src then s.modWlk fun w => { w with listOut := w.listOut.erase src }
      else s.linkViolation port 9 2
    else if refused then s.each us fun s u => s.storeRefused (tagCore t) p.cnt.toNat u else s
  else if tagKind t ≤ 8 then
    match s.tagged t src with
    | some (i, x) => s.answerShuttle t i x n refused
    | none => s.linkViolation port 9 2
  else s.linkViolation port 9 2

/-- ACK (R428). -/
def execAck (port : Nat) (p : Packet) (s : State) : Out := .next (s.local_ port p 3 fun s => s.answered port p false)

/-- REFUSE (R428, R437). -/
def execRefuse (port : Nat) (p : Packet) (s : State) : Out := .next (s.local_ port p 4 fun s => s.answered port p true)

/-- Whether a packet sent at a time was outstanding when a DEAD reached this module, 2 ms or more ago (R435). -/
def State.unackedFor (s : State) (sent : Dword) : Bool :=
  s.wlk.deadTimes.any fun d => decide (sent ≤ d) && decide (d.toNat + 2000000 ≤ s.now)

/-- UNACKED_WRITE_TIMEOUT: a write not acknowledged 2 ms after a DEAD reached this module counts as one to a dead module
(R435). -/
def execUnackedWriteTimeout (etag : BitVec 19) (dst : BitVec 17) (t : Dword) (s : State) : Out :=
  let s := s.at_ t
  if tagKind etag == 0 then
    let c := tagCore etag
    let due (u : Unacked) : Bool := u.no == tagEntry etag && u.dst == dst.toNat && s.unackedFor u.at_
    let us := (s.core c).unacked.filter due
    let s := s.modCore c fun k => { k with unacked := k.unacked.filter fun u => !due u }
    .next (s.each us fun s u => s.each u.slots fun s slot => s.lostStore c slot u.dst u.addr)
  else
    match s.tagged etag dst.toNat with
    | some (i, x) =>
      let k := tagKind etag - 1
      if x.outAt.any s.unackedFor then .next (s.putEntry (tagCore etag) (k / 4) (k % 4) i (x.killed dst.toNat)) else .next s
    | none => .next s

/-! ## BARRIER, DEAD, PROBE (R433, R434, R441, R444) -/

/-- BARRIER: an arrival of a child, or go for the step in flight; from a non-member, or for another step, it is dropped as a
violation (R441, R445). -/
def execBarrier (port : Nat) (p : Packet) (s : State) : Out :=
  .next (s.local_ port p 5 fun s =>
    let step : Word := BitVec.ofNat 32 (leAt p.body 0 4)
    let b := leAt p.body 4 1
    let part := b % 16
    let o := s.obPart part
    if !s.liveMember p.src.toNat || !s.inGroup part || !(step == o.goStep + 1 || (s.sharesLists part && step == o.step)) then
      s.linkViolation port 10 1
    else if 16 ≤ b then (if step == o.step then s.barrierGo part step else s.linkViolation port 10 1)
    else
      (s.modObPart part fun o => { o with
        barrierKids := if o.barrierKids.contains p.src.toNat then o.barrierKids else p.src.toNat :: o.barrierKids }).barrierTry part).settle

/-- DEAD: the module ID is marked and the packet forwarded; one that names this module stops its group (R434, R444). -/
def execDead (port : Nat) (p : Packet) (s : State) : Out :=
  .next (s.local_ port p 6 fun s =>
    let id := leAt p.body 0 4
    if id == s.myId then
      let s := s.record .absorbed (.port port) (unitId 7 port) 0x07 1 noPart (toBytes 4 0 ++ toBytes 4 (s.port port).peer.toNat)
      s.stopGroup
    else s.markDead id (some port)).settle

/-- The port that faces a module in the shape, whatever its state: one that is not up first. -/
def State.facing (s : State) (id : Nat) : Option Nat :=
  let f := (List.range 12).filter fun q => s.wlk.len (dimOf q) != 0 && (s.wlk.farEnd q).1 == id
  (f.find? fun q => (s.port q).st != .up).orElse fun _ => f.head?

/-- PROBE: PROBE_REPLY names the port that faces the sender and the last SEQ accepted there (R428, R433). -/
def execProbe (port : Nat) (p : Packet) (s : State) : Out :=
  .next (s.local_ port p 7 fun s =>
    match s.facing p.src.toNat with
    | none => s
    | some q =>
      let last := (s.port q).expect - 1
      s.send { s.newPacket 8 p.src.toNat 0 with body := toBytes 2 (q + 16 * last.toNat) ++ List.replicate 14 0 } none).settle

/-- PROBE_REPLY: the blocks after the last one accepted are re-routed, and the rest are discarded; after the peer's death it is
ignored (R433, R444). -/
def execProbeReply (port : Nat) (p : Packet) (s : State) : Out :=
  .next (s.local_ port p 8 fun s =>
    let v := leAt p.body 0 2
    let last : BitVec 12 := BitVec.ofNat 12 (v / 16)
    match (List.range 12).find? fun d => (s.port d).probing && (s.port d).peer == p.src && (s.port d).peerPort.toNat == v % 16 with
    | none => s
    | some d =>
      let blocks := (s.port d).retry
      let after := match findIdx (fun b => b.seq == last) blocks with
        | some i => blocks.drop (i + 1)
        | none => blocks
      let s := s.modPort d fun x => { x with retry := [], downAt := none, probes := false }
      s.each (after.flatMap (·.packets)) fun s p => s.resend p d).settle

end Sys2Proof.Machine
end

