-- ==== Sys2Proof/Machine/SeamRows.lean ====
section
/-! DEFINITION. The REDUCE command, the seam packets at their destination, and the seam registers' commands (R449 to R473). -/

namespace Sys2Proof.Machine

/-! ## REDUCE (R449 to R452) -/

/-- The checks of REDUCE's parameters (R449). -/
def reduceCodes (s : State) (e : InEntry) : List Nat :=
  let f (i n : Nat) : Nat := leAt e.bytes i n
  let mode := f 26 1
  s.cmdCodes e (e.fn != 0) [(44, 4), (56, 8)]
    ++ (if mode % 4 == 3 || mode / 4 % 4 == 3 || 16 ≤ mode then [2] else [])
    ++ (if f 16 8 == 0 || f 16 8 % 16 != 0 || f 48 8 == 0 || f 48 8 % 64 != 0 then [3] else [])
    ++ (if f 24 2 == 0 || 4096 < f 24 2 || (if mode % 4 == 1 then f 27 1 == 0 || 64 < f 27 1 else f 27 1 != 0) || f 32 4 == 0
          || 1024 ≤ f 38 2 || !s.coreIn (e.fn - 1) (f 38 2 % 1024) then [4] else [])

/-- The bucket table read once: the buckets, or the first entry's address that a read does not reach. -/
def State.readBuckets (s : State) (part va : Nat) : Nat → Option (List (List Byte))
  | 0 => some []
  | n + 1 => (s.readBuckets part va n).bind fun l => (s.launchRead part (va + 16 * n) 16).map fun b => l ++ [b]

/-- Whether a table entry keeps R452 by itself. -/
def bucketOk (b : List Byte) : Bool :=
  let n := leAt b 8 4
  n % 1024 == 0 && decide (1024 ≤ n) && decide (n ≤ 2 ^ 27) && zeroAt b 12 4

/-- The first entry that breaks R452: by itself, or by overlapping an earlier one. -/
def badBucket (l : List (List Byte)) : Option Nat :=
  let at_ (i : Nat) : Nat × Nat := let b := nth [] l i; (leAt b 0 8, leAt b 0 8 + leAt b 8 4)
  (List.range l.length).find? fun i =>
    !bucketOk (nth [] l i) || (List.range i).any fun j => decide ((at_ i).1 < (at_ j).2 ∧ (at_ j).1 < (at_ i).2)

/-- Whether an area of n bytes maps, page by page, Normal memory of this module with W = 1 (R451). -/
def State.areaOk (s : State) (part va n : Nat) : Bool :=
  va % 4096 == 0 && (n == 0 || (s.seamAt part va).isSome
    && (List.range ((va + n - 1) / 0x10000 - va / 0x10000)).all fun k => (s.seamAt part ((va / 0x10000 + 1 + k) * 0x10000)).isSome)

/-- The REDUCE that an entry and its block describe. -/
def reduceOf (e : InEntry) (table : List (List Byte)) (blk : List Byte) : Reduce :=
  let f (i n : Nat) : Nat := leAt e.bytes i n
  let a (i : Nat) : Dword := BitVec.ofNat 64 (leAt blk i 8)
  { fn := e.fn, tag := e.tag, buckets := table.map fun b => { first := leAt b 0 8, elems := leAt b 8 4 }
    mode := f 26 1 % 4, fmt := f 26 1 / 4 % 4, n := f 27 1, firstStep := BitVec.ofNat 32 (f 28 4), steps := f 32 4
    deadlineUs := if f 36 2 == 0 then 2000 else f 36 2, noteCore := BitVec.ofNat 10 (f 38 2)
    postCnt := f 40 1, optCnt := f 41 1, paramCnt := f 42 1, commitCnt := f 43 1
    grad := a 0, param0 := a 8, param1 := a 16, acc := a 24, aux := a 32, close := a 40
    boundary := BitVec.ofNat 32 (f 28 4) }

/-- Whether the areas of a REDUCE are aligned and mapped (R451). -/
def State.areasOk (s : State) (part : Nat) (r : Reduce) : Bool :=
  let e := (r.buckets.map fun b => b.first + b.elems).foldl max 0
  let h := r.half s.replicaM
  s.areaOk part r.grad.toNat (4 * e) && s.areaOk part r.param0.toNat (2 * e) && s.areaOk part r.param1.toNat (2 * e)
    && s.areaOk part r.acc.toNat (2 * h) && s.areaOk part r.close.toNat 65536
    && s.areaOk part r.aux.toNat (if r.mode == 1 then 4 * e else if r.mode == 2 then 2 * e else 0)

/-- The reasons for which REDUCE is refused with code 0x013 (R450, R532), but for the table's. -/
def State.reduceReasons (s : State) (part mode : Nat) : List Nat :=
  (if s.inGroup part then [] else [1]) ++ (if (s.part part).sendEn then [] else [2])
    ++ (if mode != 2 && 4096 < s.groupSize then [3] else [])

/-- A REDUCE refused with code 0x013 (R450). -/
def State.refuseReduce (s : State) (e : InEntry) (reason addr : Nat) : State :=
  (s.entryWord e 7 0x13).seamRecord .absorbed (e.fn - 1) reason 0 0 addr

/-- REDUCE: its checks, the table and the block read once, and the reduction starts with COMMITTED one below FIRST_STEP
(R449 to R452, R469). -/
def execReduce (fn : Nat) (s : State) : Out :=
  .next (s.takeCmd fn 4 reduceCodes fun s e =>
    let part := fn - 1
    let f (i n : Nat) : Nat := leAt e.bytes i n
    let found := s.readBuckets part (f 16 8) (f 24 2)
    let s := (s.each (List.range (f 24 2)) fun s k => s.launchTouch part (f 16 8 + 16 * k) 16).launchTouch part (f 48 8) 64
    match found, s.launchRead part (f 48 8) 64 with
    | some table, some blk =>
      if !zeroAt blk 48 16 then s.refuseEntry e 2
      else
        let bad := badBucket table
        match lowest (s.reduceReasons part (f 26 1 % 4) ++ (if bad.isSome then [4] else [])) with
        | some reason => s.refuseReduce e reason (if reason == 4 then f 16 8 + 16 * bad.getD 0 else 0)
        | none =>
          let r := reduceOf e table blk
          if !s.areasOk part r then s.refuseEntry e 3
          else
            let s := s.acceptCmd e .reduce
            if (s.seamPart part).reduce.isSome then s.cmdEnd fn e.tag 7 0xC
            else
              (s.modSeamPart part fun x => { x with reduce := some r, committed := r.firstStep - 1 }).cmdState fn e.tag 3
    | _, _ => s.refuseEntry e 3)

/-! ## Seam packets at their destination (R460, R466, R473) -/

/-- The row of the seam packet table that a packet breaks (R473). -/
def State.seamRow (s : State) (p : Packet) : Option Nat :=
  let part := p.part.toNat
  let x := s.seamPart part
  let param := p.kind == 0xB
  let src := p.src.toNat
  match x.reduce with
  | none => some 2
  | some r =>
    let m := s.replicaM
    let bk := r.bucket (seamBucket p)
    let first := 32 * seamFirst p
    let own := shareRange m bk.elems (shareOwned m s.myReplica (seamBucket p))
    let inB := decide (seamBucket p < r.buckets.length) && decide (first < bk.elems)
    let mine := inB && decide (own.1 ≤ first) && decide (first + (if param then 1 else seamElems p) ≤ own.2)
    let above := r.doneRel x.committed + 1 < r.rel (seamStep p)
    let owner := s.shareOwner (seamBucket p) (first / max 1 (shareLen m bk.elems))
    if !param && (seamVoid p || seamHeld p) then some 5
    else if !seamShapeOk p then some 1
    else if !s.replicas.contains src || !s.admits part src then some 2
    else if !param && (!mine || above) then some 3
    else if param && (if seamHeld p then !mine else !inB || owner != src) then some 4
    else none

/-- A seam packet that passes the checks acts; another is dropped as a violation. -/
def State.seamLocal (s : State) (port : Nat) (p : Packet) (kind : Nat) (f : State → State) : State :=
  s.local_ port p kind fun s =>
    match s.seamRow p with
    | some row => s.linkViolation port row 1
    | none => f s

/-- SEAM_ADD (R460, R461). -/
def execSeamAdd (port : Nat) (p : Packet) (t : Dword) (s : State) : Out :=
  .next ((s.at_ t).seamLocal port p 9 fun s => s.ownerAdd p.part.toNat p).settle

/-- SEAM_WRITE (R459, R460). -/
def execSeamWrite (port : Nat) (p : Packet) (t : Dword) (s : State) : Out :=
  .next ((s.at_ t).seamLocal port p 0xA fun s => s.ownerAdd p.part.toNat p).settle

/-- SEAM_PARAM (R466 to R468, R471). -/
def execSeamParam (port : Nat) (p : Packet) (s : State) : Out :=
  .next (s.seamLocal port p 0xB fun s => s.seamParam p.part.toNat p).settle

/-- SEAM_QUEUE_HOLD_EXPIRY (R458). -/
def execSeamQueueHoldExpiry (port : Nat) (t : Dword) (s : State) : Out :=
  let s := s.at_ t
  .next (if portOk port then (s.seamHoldExpiry port).settle else s)

/-- SEAM_SHARE_DEADLINE: a share whose DEADLINE_US has passed closes (R461, R462). -/
def execSeamShareDeadline (part bucket step : Nat) (t : Dword) (s : State) : Out :=
  let s := s.at_ t
  match (s.seamPart part).reduce with
  | none => .next s
  | some r =>
    let st : Word := BitVec.ofNat 32 step
    if r.shares.any fun x => x.step == st && x.bucket == bucket && !x.closed && s.sharePast r x then
      .next (s.closeShare part st bucket).settle
    else .next s

/-! ## Seam registers (R455, R465, R467, R469, R474) -/

/-- Whether an agent reaches a register of a partition's block: a VF only its own. -/
def reaches (a : Agent) (part : Nat) : Bool :=
  match a with
  | .vf n => n == part + 1
  | _ => true

/-- SEAM_POST: STEP and BUCKET in one 64-bit write (R455). -/
def execSeamPost (part : Nat) (op : RegOp) (s : State) : Out :=
  if !reaches op.agent part || op.part != .full then .next s
  else .next (s.seamPost part (bits op.value 63 32) (nbits op.value.toNat 11 0))

/-- SEAM_POST_READ_COMPLETE (R455, R456). -/
def execSeamPostReadComplete (part : Nat) (s : State) : Out := .next (s.postRead part).settle

/-- SEAM_PUBLISH (R465). -/
def execSeamPublish (part : Nat) (op : RegOp) (s : State) : Out :=
  if !reaches op.agent part || op.part != .full then .next s
  else .next (s.seamPublish part (bits op.value 63 32) (nbits op.value.toNat 11 0)).settle

/-- SEAM_HELD_RESEND (R467). -/
def execSeamHeldResend (part : Nat) (t : Dword) (s : State) : Out := .next ((s.at_ t).heldResend part).settle

/-- SEAM_BOUNDARY: STEP lies in the low half (R469). -/
def execSeamBoundary (part : Nat) (op : RegOp) (s : State) : Out :=
  if !reaches op.agent part || !covers op 31 0 then .next s
  else .next (s.seamBoundary part (bits op.value 31 0))

/-- SEAM_COMMIT (R469, R470). -/
def execSeamCommit (part : Nat) (s : State) : Out := .next (s.seamCommit part).settle

end Sys2Proof.Machine
end

