-- ==== Sys2Proof/Machine/Reset.lean ====
section
/-! DEFINITION. Module reset, loss of power and the boot bank (R286, R403, R409, R551, R552, R560, R561). -/

namespace Sys2Proof.Machine

/-- The causes of THM_BOOT (R569). -/
inductive ResetCause where
  | powerOn | perst | request | watchdog | input | thermal
  deriving DecidableEq, Repr

def ResetCause.code : ResetCause → BitVec 4
  | .powerOn => 0
  | .perst => 1
  | .request => 2
  | .watchdog => 3
  | .input => 4
  | .thermal => 5

/-- Everything at its reset value but lifetime storage, flash and what has left the module: what was sent, the commands that
wait, the level of PERST#, the straps, the test access port, and whether the input is present (R551, R552). The module key is
a new one (R407). -/
def State.afterReset (s : State) (cause : ResetCause) : State :=
  { ({} : State) with
    pending := s.pending
    time := { free := s.time.free }
    thm := { otp := s.thm.otp, flash := s.thm.flash, moduleKey := s.thm.moduleKey + 1, out := s.thm.out }
    hif := { out := s.hif.out }
    pwr := { inputOk := s.pwr.inputOk, low := s.pwr.low }
    mgmt := { strap := s.mgmt.strap, out := s.mgmt.out }
    tap := s.tap
    boot := { cause := cause.code, perst := s.boot.perst } }

/-- A record that the Thimble keeps in its flash: class, source, code, unit (R491, R554). -/
def State.flashRecord (s : State) (cls : RecCls) (unit source code : Nat) : State :=
  s.modFlash fun f => { f with records := (cls.code, source, code, unit) :: f.records }

/-! ## The boot bank (R409, R560, R561) -/

/-- Whether both images of a bank verify. -/
def State.bankOk (s : State) (n : Nat) : Bool :=
  let b := nth {} s.thm.flash.banks n
  b.thimbleOk && b.hubOk && decide (s.thm.otp.minSvn ≤ b.thimbleSvn ∧ s.thm.otp.minSvn ≤ b.hubSvn)

/-- The images of the boot bank run (R560): layer 0 derives CDI1 for the Thimble's, layer 1 CDI2 for the hub's (R412). -/
def State.runBank (s : State) : State :=
  let b := nth {} s.thm.flash.banks s.thm.flash.bootBank
  let c := Config.nextSecret Config.uds b.thimbleDigest
  (s.modBoot fun k => { k with thimble := (b.thimbleSvn, b.thimbleDigest), hub := (b.hubSvn, b.hubDigest) }).modThm fun t =>
    { t with cdi1 := c, cdi2 := Config.nextSecret c b.hubDigest }

/-- The Thimble ROM: the boot bank's images, else the other bank's, which becomes the boot bank with a record; without either,
recovery. -/
def State.bootRom (s : State) : State :=
  let b := s.thm.flash.bootBank
  let s := (s.modBoot fun k => { k with powered := true, phase := 0, hold := false }).modThm fun t => { t with udsHidden := true }
  if s.bankOk b then s.runBank
  else if s.bankOk (1 - b) then
    let s := s.modFlash fun f => { f with bootBank := 1 - b }
    ((s.record .module .module (unitId 0x0D 0) 0x0C 2 noPart []).flashRecord .module (unitId 0x0D 0) 0x0C 2).runBank
  else s.modBoot fun k => { k with recovery := true, lastCode := 1 }

/-- Module reset with a cause: the Thimble restarts from its ROM while it has power (R551, R552). -/
def State.moduleReset (s : State) (cause : ResetCause) : State :=
  let s := s.afterReset cause
  s.when s.pwr.inputOk State.bootRom

/-- The module powers down and keeps nothing, the registers of the test access port included (R286). -/
def State.powerDown (s : State) (cause : ResetCause) : State :=
  let s : State := { s.afterReset cause with tap := {} }
  s.modBoot fun k => { k with powered := false }

/-! ## Power-up work of the Thimble (R403, R495, R539) -/

/-- Ledger entries of an opcode that stand for a change: accepted or recovered. -/
def Flash.changes (f : Flash) (ops : List Nat) : List LedgerEntry :=
  f.ledger.filter fun e => ops.contains e.opcode.toNat && (e.result == 0 || e.result == 0x80)

/-- A recovered entry (R403). -/
def State.recovered (s : State) (op : Nat) (left : Nat) (old new_ : BitVec 256) : State :=
  s.ledgerAppend 0xFF 0x80 op 0 left old new_ 0

/-- For each OTP change that has no entry, one is appended: owner slots, debug policy, MIN_SVN, persisted sets, persisted
geometry, the pattern (R403). -/
def State.reconcile (s : State) : State :=
  let o := s.thm.otp
  let h (k : Nat) : BitVec 256 := match o.owners[k]? with
    | some v => ledgerHash v
    | none => 0
  let s := s.each ((List.range o.owners.length).drop (s.thm.flash.changes [1, 2]).length) fun s k =>
    s.recovered (if k == 0 then 1 else 2) (7 - k) (if k == 0 then 0 else h (k - 1)) (h k)
  let last (s : State) (op : Nat) : Nat := match s.thm.flash.changes [op] with
    | e :: _ => e.new_.toNat
    | [] => 0
  let s := s.when (decide (last s 5 < o.debug)) fun s => s.recovered 5 (2 - o.debug) (BitVec.ofNat 256 (last s 5)) (BitVec.ofNat 256 o.debug)
  let s := s.when (decide (last s 6 < o.minSvn)) fun s => s.recovered 6 (255 - o.minSvn) (BitVec.ofNat 256 (last s 6)) (BitVec.ofNat 256 o.minSvn)
  let a (k : Nat) : BitVec 256 := match o.alterHash[k]? with
    | some v => v.extractLsb' 0 256
    | none => 0
  let s := s.each ((List.range o.alterHash.length).drop (s.thm.flash.changes [8]).length) fun s k =>
    s.recovered 8 (63 - k) (if k == 0 then 0 else a (k - 1)) (a k)
  let s := s.each ((List.range o.geoms).drop (s.thm.flash.changes [7]).length) fun s k => s.recovered 7 (31 - k) 0 0
  match o.pattern with
  | none => s
  | some p =>
    let old := ((s.thm.flash.changes [0x12]).head?.map (·.new_)).getD 0
    s.when (old != ledgerHash p) fun s => s.recovered 0x12 0xFFFFFFFF old (ledgerHash p)

/-- The persisted alterations applied when the set in flash matches the latest slot; else none, MISMATCH and an absorbed record
(R495). With no set ever persisted there is none to apply. -/
def State.loadAlters (s : State) : State :=
  match s.thm.otp.alterHash.getLast? with
  | none => s
  | some h =>
    if sha512 (alterBytes s.thm.flash.alters) == h then { s with cal := { s.cal with alters := s.thm.flash.alters, loaded := true } }
    else ({ s with cal := { s.cal with mismatch := true } } : State).record .absorbed .module (unitId 0x0D 0) 0x0F 1 noPart
      (toBytes 8 (regBase + 0x1C0018))

/-- The quarantine set reapplied (R539). -/
def State.loadQuarantine (s : State) : State :=
  let f := s.thm.flash
  let s := s.each f.quarCores fun s c => s.modCore c fun k => { k with quar := true }
  let s := s.each f.quarHoops fun s h => s.modHoop (h / 4) (h % 4) fun x => { x with quar := true }
  s.each f.quarEngines fun s e => s.modEngine (e / 2) (e % 2) fun g => { g with quar := true }

end Sys2Proof.Machine
end

