-- ==== Sys2Proof/Machine/Clock.lean ====
section
/-! DEFINITION. Clock islands: droop, idle stop, gating, V-F points, the step of global time (R475 to R486, R490, R498 to R500). -/

namespace Sys2Proof.Machine

/-- Local addresses of the CLK_, PWR_ and CAL_ blocks (R499). -/
def clkRegAddr (off : Nat) : Nat := regBase + 0x140000 + off
def pwrRegAddr (off : Nat) : Nat := regBase + 0x180000 + off
def calRegAddr (off : Nat) : Nat := regBase + 0x1C0000 + off

/-- Whether an island exists (R475). -/
def islandOk (i : Nat) : Bool := decide (i < islandCount)

/-! ## Droop (R478) -/

/-- DROOP_DETECT: the clock stretches. -/
def execDroopDetect (island : Nat) (t : Dword) (s : State) : Out :=
  let s := s.at_ t
  if islandOk island && (s.island island).st == .running then
    .next ((s.setIsland island .stretching).modIsland island fun k => { k with stretchAt := some s.time.now })
  else .next s

/-- DROOP_END: the run of stretching ends. -/
def execDroopEnd (island : Nat) (t : Dword) (s : State) : Out :=
  let s := s.at_ t
  if (s.island island).st == .stretching then
    .next ((s.setIsland island .running).modIsland island fun k => { k with stretchAt := none, calmAt := s.time.now })
  else .next s

/-- DROOP_LIMIT_LOWER: one point for each 100 µs without a break. -/
def execDroopLimitLower (island : Nat) (t : Dword) (s : State) : Out :=
  let s := s.at_ t
  match (s.island island).stretchAt with
  | some a =>
    if a.toNat + 100000 ≤ s.now then
      .next (s.modIsland island fun k => { k with stretchAt := some (a + 100000), dlimit := if k.dlimit == 0 then 0 else k.dlimit - 1 })
    else .next s
  | none => .next s

/-- DROOP_LIMIT_RAISE: one point after each 10 ms without stretching, up to 15. -/
def execDroopLimitRaise (island : Nat) (t : Dword) (s : State) : Out :=
  let s := s.at_ t
  let k := s.island island
  if islandOk island && k.stretchAt.isNone && k.dlimit != 15 && decide (k.calmAt.toNat + 10000000 ≤ s.now) then
    .next (s.modIsland island fun k => { k with calmAt := k.calmAt + 10000000, dlimit := k.dlimit + 1 })
  else .next s

/-! ## Stopping and gating (R285, R479, R480) -/

/-- Whether a core has been idle for IDLE_US (R479). -/
def State.idleLong (s : State) (c : Nat) : Bool :=
  (s.core c).idle && decide ((tget 0 s.time.busyAt c).toNat + s.pwr.idleUs.toNat * 1000 ≤ s.now)

/-- ISLAND_CLOCK_STOP: a core island that has been idle for IDLE_US stops its clock; 0 never stops it. -/
def execIslandClockStop (island : Nat) (t : Dword) (s : State) : Out :=
  let s := s.at_ t
  let st := (s.island island).st
  if island < 1024 && (st == .running || st == .stretching) && s.pwr.idleUs != 0 && s.idleLong island then
    .next ((s.setIsland island .stopped).modIsland island fun k =>
      if st == .stretching then { k with stretchAt := none, calmAt := s.time.now } else k)
  else .next s

/-- ISLAND_CLOCK_RESTART (R479). -/
def execIslandClockRestart (island : Nat) (s : State) : Out :=
  if (s.island island).st == .stopped then .next (s.setIsland island .running) else .next s

/-- Whether R480 lets an island be gated: a core of no partition, a quarantined core, a port that is off, a channel that is not
fitted. -/
def State.mayGate (s : State) (i : Nat) : Bool :=
  if i < 1024 then ((s.partOf i).isNone && s.pwr.gateUnassigned) || (s.core i).quar
  else if 1216 ≤ i ∧ i < 1228 then !(s.port (i - 1216)).enable
  else if 1228 ≤ i ∧ i < 1244 then (nth ({} : LpdChan) s.mem.lpd (i - 1228)).size == 0
  else false

/-- Whether an island reports itself empty (R285). -/
def State.drained (s : State) (i : Nat) : Bool :=
  if i < 1024 then
    let k := s.core i
    k.idle && k.mq.isEmpty && k.unacked.isEmpty && k.draining.isNone && k.skeins.all fun e => e.2.st == .free
  else if 1216 ≤ i ∧ i < 1228 then (s.port (i - 1216)).retry.isEmpty
  else true

/-- What is left of a core whose supply is removed: what quarantine and fitting hold of it. -/
def gatedCore (k : Core) : Core :=
  { ({} : Core) with
    hoops := k.hoops.map fun h => { quar := h.quar, faults := h.faults }
    engines := k.engines.map fun g => { quar := g.quar }
    quar := k.quar, held := k.held, quarAt := k.quarAt, ues := k.ues, uninit := true }

/-- A core island gated: its state and its scratch are lost (R477, R480). -/
def State.gateCore (s : State) (c : Nat) : State :=
  ((s.modCore c fun k => { gatedCore k with lostScratch := some s.time.free }).zeroRange (scratchAt c 0) scratchLen).bump

/-- ISLAND_GATE: after the drain handshake, in the cases of R480. -/
def execIslandGate (island : Nat) (s : State) : Out :=
  let st := (s.island island).st
  if islandOk island && s.mayGate island && s.drained island && st != .gated then
    let s := (s.setIsland island .gated).modIsland island fun k => { k with stretchAt := none, calmAt := s.time.now }
    .next (s.when (decide (island < 1024)) fun s => s.gateCore island)
  else .next s

/-- ISLAND_UNGATE: the case has ended (R480). -/
def execIslandUngate (island : Nat) (s : State) : Out :=
  if (s.island island).st == .gated && !s.mayGate island then .next (s.setIsland island .running) else .next s

/-! ## V-F points (R490) -/

/-- Set frequency in MHz of an island at a point: 940 at a core's point 15, else as the pattern gives (log entry 10). -/
def vfFreq (i point : Nat) : Nat := if i < 1024 && point == 15 then 940 else Config.vfMhz i point

/-- Whether a CALIBRATE holds an island at point 0 (R497). -/
def State.retrims (s : State) (i : Nat) : Bool :=
  match s.cal.job with
  | some (_, _, first, _) => first / 2 ^ 24 == 9 && s.cal.jobNext == i
  | none => false

/-- The lowest of an island's limits (R490, R498). -/
def State.vfLimit (s : State) (i : Nat) : Nat :=
  let k := s.island i
  let own := min k.tlimit.toNat k.dlimit.toNat
  let part := if i < 1024 then
      match s.partOf i with
      | some p => min (nth 15 s.pwr.ptnLimit p).toNat (nth 15 s.pwr.modLimit p).toNat
      | none => 15
    else 15
  if s.retrims i then 0 else min own part

/-- VF_POINT_CHANGE_COMPLETE: the island runs at its lowest limit. -/
def execVfPointChangeComplete (island : Nat) (s : State) : Out :=
  if islandOk island then
    let p := s.vfLimit island
    .next (s.modIsland island fun k => { k with point := BitVec.ofNat 4 p, freq := BitVec.ofNat 11 (vfFreq island p) })
  else .next s

/-! ## Global time (R485, R486, R498) -/

/-- CLK_TIME_ADJ_WRITE: STEP spans both halves; in a coupled group the write is ignored with an absorbed record. -/
def execClkTimeAdjWrite (op : RegOp) (s : State) : Out :=
  if !isWide op.agent then .next s
  else if op.part != .full then .next (s.spanning op (clkRegAddr 8))
  else if s.grouped then .next (s.refusedWrite (unitId 0x0E 0) noPart (clkRegAddr 8) (acctOf op.agent))
  else .next (s.stepTime (BitVec.ofNat 64 (nbits op.value.toNat 39 0)))

end Sys2Proof.Machine
end

