-- ==== Sys2Proof/Machine/Power.lean ====
section
/-! DEFINITION. Input power, caps and thermal limits (R487 to R491, R498, R501, R574). -/

namespace Sys2Proof.Machine

/-! ## Input (R487) -/

/-- The row of a voltage, once it has lasted: 0 normal, 1 emergency, 2 high, 3 out of range. A row that has not lasted leaves the
present one. -/
def inputRow (now mv heldUs : Nat) : Nat :=
  if 60000 < mv then 3
  else if mv < 40000 then (if 100 ≤ heldUs then 3 else now)
  else if mv < 44000 then (if 1000 ≤ heldUs then 1 else now)
  else if mv ≤ 56000 then 0
  else if 1000 ≤ heldUs then 2 else now

/-- The cap that applies: MODULE_CAP, or in the emergency 1,600 W where that is lower (R487, R488). -/
def PwrSt.activeCap (p : PwrSt) : Nat := if p.emerg then min p.cap.toNat 1600 else p.cap.toNat

/-- POWER_SAMPLE: the readings, the row and its response; each change of row is an event on vector 3 (R487, R585). -/
def execPowerSample (p : PowerSample) (s : State) : Out :=
  let s := s.at_ p.t
  let row := inputRow s.pwr.band p.mv p.heldUs
  if row == 3 then
    let s := s.modPwr fun w => { w with inputOk := false }
    .next ((s.flashRecord .module (unitId 0x0D 1) 0x09 2).powerDown .input)
  else
    let was := s.pwr.band
    let s := s.modPwr fun w => { w with
      volt := BitVec.ofNat 16 p.mv, power := BitVec.ofNat 16 p.power1ms
      ptnPower := (List.range 16).map fun k => BitVec.ofNat 12 (nth 0 p.ptn1ms k)
      band := row, low := decide (p.mv < 44000)
      emerg := if row == 1 then true else w.emerg && !decide (44000 ≤ p.mv ∧ 10000 ≤ p.heldUs) }
    if row == was then .next s
    else
      let detail := toBytes 2 p.mv
      let s := if row == 1 then s.record .absorbed .module (unitId 0x0D 1) 0x09 1 noPart detail
        else if row == 2 then s.record .absorbed .module (unitId 0x0D 1) 0x09 2 noPart detail else s
      .next ((s.aonAdd 0 3 1).msix 0 3)

/-! ## Caps (R488, R489) -/

/-- A limit that a controller moves: down one point every 100 µs while the power is above 97 % of the cap, up one point every
1 ms while it is below 90 %. -/
def capStep (now : Nat) (limit : BitVec 4) (last : Dword) (power cap : Nat) : BitVec 4 × Dword :=
  if 97 * cap < 100 * power then
    if limit != 0 && decide (last.toNat + 100000 ≤ now) then (limit - 1, BitVec.ofNat 64 now) else (limit, last)
  else if 100 * power < 90 * cap then
    if limit != 15 && decide (last.toNat + 1000000 ≤ now) then (limit + 1, BitVec.ofNat 64 now) else (limit, last)
  else (limit, last)

/-- The partitions that the module cap throttles: those above their share of MODULE_CAP, else every one (R489). -/
def State.throttled (s : State) : List Nat :=
  let formed := (List.range 16).filter fun p => (s.part p).quads != 0
  let above := formed.filter fun p => decide (popc (s.part p).quads * s.pwr.cap.toNat < 16 * (nth 0 s.pwr.ptnPower p).toNat)
  if above.isEmpty then formed else above

/-- Whether the power manager holds its present limits: during a Thimble activation (R545). -/
def State.limitsHeld (s : State) : Bool := s.boot.act.any fun a => a.images.any fun i => i.1 == 1

/-- VF_LIMIT_STEP: the module cap's step on the partitions it throttles, or on every one as it raises, and each partition cap's
step on its own (R488, R489). -/
def execVfLimitStep (avg1ms t : Nat) (s : State) : Out :=
  let s := s.at_ (BitVec.ofNat 64 t)
  if s.limitsHeld then .next s else
  let cap := s.pwr.activeCap
  let hit := if 97 * cap < 100 * avg1ms then s.throttled else List.range 16
  let s := s.each hit fun s p => s.modPwr fun w =>
    let r := capStep s.now (nth 15 w.modLimit p) (nth 0 w.modStep p) avg1ms cap
    { w with modLimit := upd w.modLimit p fun _ => r.1, modStep := upd w.modStep p fun _ => r.2 }
  .next (s.each (List.range 16) fun s p => s.modPwr fun w =>
    let c := (nth 0 w.ptnCap p).toNat
    if c == 0 then
      (let r := capStep s.now (nth 15 w.ptnLimit p) (nth 0 w.ptnStep p) 0 1
      { w with ptnLimit := upd w.ptnLimit p fun _ => r.1, ptnStep := upd w.ptnStep p fun _ => r.2 })
    else
      let r := capStep s.now (nth 15 w.ptnLimit p) (nth 0 w.ptnStep p) (nth 0 w.ptnPower p).toNat c
      { w with ptnLimit := upd w.ptnLimit p fun _ => r.1, ptnStep := upd w.ptnStep p fun _ => r.2 })

/-! ## Thermal limits (R237, R491). Readings are signed, in units of 0.25 °C -/

/-- The band of a sensor: the number of thresholds passed, a band kept until the reading falls below its release. The list holds
(threshold, release) from the lowest; the last has no release. -/
def sensorBand (rows : List (Int × Int)) (old : Nat) (x : Int) : Nat :=
  let up := (rows.filter fun r => decide (r.1 ≤ x)).length
  let held := (((List.range rows.length).zip rows).filter fun e => decide (e.1 < old) && decide (e.2.2 ≤ x)).length
  max up held

/-- Junction: 95 °C released at 92, 102 released at 95, 110. -/
def junctionRows : List (Int × Int) := [(380, 368), (408, 380), (440, 440)]
/-- Stack: 85 °C released at 82, 95 released at 92, 110. -/
def stackRows : List (Int × Int) := [(340, 328), (380, 368), (440, 440)]

/-- The die of an island that lies on a compute die (R475). -/
def islandDie (i : Nat) : Option Nat :=
  if i < 1024 then some (i / 256)
  else if i < 1152 then some ((i - 1024) / 32)
  else if i < 1216 then some ((i - 1152) / 16)
  else if i < 1228 then some ((i - 1216) / 3)
  else if i < 1244 then some ((i - 1228) / 4)
  else
    match i with
    | 1244 | 1248 => some 0
    | 1245 | 1250 => some 1
    | 1246 | 1249 | 1252 => some 2
    | 1247 | 1251 | 1254 => some 3
    | _ => none

/-- The thermal limit lowered by one point, or raised by one where 1 ms has passed since it last moved. -/
def Island.cooler (k : Island) (now : Dword) : Island :=
  { k with tlimit := if k.tlimit == 0 then 0 else k.tlimit - 1, thermAt := now }
def Island.warmer (k : Island) (now : Dword) : Island :=
  if k.tlimit != 15 && decide (k.thermAt.toNat + 1000000 ≤ now.toNat) then { k with tlimit := k.tlimit + 1, thermAt := now } else k

/-- Whether a list of (island, band) has an island of a die at a band or above. -/
def dieAt (bands : SMap Nat) (die band : Nat) : Bool := bands.any fun e => islandDie e.1 == some die && decide (band ≤ e.2)

/-- The thermal limit of one island after a reading: point 0 while a junction of its die is in the 102 °C band; down while its
own junction is at 95 °C, or for a core while a stack sensor of its die is; up while both are released. -/
def State.thermLimit (s : State) (hot : List (Nat × Int)) (stack : List (Nat × Int)) (i : Nat) (k : Island) : Island :=
  let now := s.time.now
  let jb := tget 0 s.pwr.junctionBand i
  let own := hot.any fun e => e.1 == i && decide (380 ≤ e.2)
  let die := if i < 1024 then islandDie i else none
  let zero := match die with
    | some d => dieAt s.pwr.junctionBand d 2
    | none => false
  let stackHot := match die with
    | some d => stack.any fun e => islandDie e.1 == some d && decide (380 ≤ e.2)
    | none => false
  let stackBand := match die with
    | some d => dieAt s.pwr.stackBand d 2
    | none => false
  if zero then { k with tlimit := 0, thermAt := if k.tlimit == 0 then k.thermAt else now }
  else if own || stackHot then k.cooler now
  else if jb == 0 && !stackBand then k.warmer now
  else k

/-- The thermal trip: a module-class record in flash, and power-down (R491, R574). -/
def State.thermalTrip (s : State) (unit : Nat) : State := (s.flashRecord .module unit 0x09 4).powerDown .thermal

/-- The hottest of readings. -/
def hottest (l : List (Nat × Int)) : Option (Nat × Int) := l.foldl (fun m e => match m with
  | none => some e
  | some b => if b.2 < e.2 then some e else some b) none

/-- THERMAL_SENSOR_READ: the bands, the limits, refresh, the 102 °C record of a die, the trip; each change of a band is an event
on vector 3 (R491). `heldUs` is how long the hottest sensor has been at 110 °C. -/
def execThermalSensorRead (t : Dword) (junction stack : List (Nat × Int)) (heldUs : Nat) (s : State) : Out :=
  let s := s.at_ t
  match (hottest (junction ++ stack)) with
  | none => .next s
  | some top =>
    if 440 ≤ top.2 && 1000 ≤ heldUs then .next (s.thermalTrip (unitId 9 top.1))
    else
      let oldJ := s.pwr.junctionBand
      let oldS := s.pwr.stackBand
      let newJ := junction.foldl (fun m e => tset 0 m e.1 (sensorBand junctionRows (tget 0 oldJ e.1) e.2)) oldJ
      let newS := stack.foldl (fun m e => tset 0 m e.1 (sensorBand stackRows (tget 0 oldS e.1) e.2)) oldS
      let s := s.modPwr fun w => { w with junctionBand := newJ, stackBand := newS }
      let s := s.each junction fun s e => s.modIsland e.1 fun k => { k with temp := BitVec.ofInt 10 e.2 }
      let s := s.each stack fun s e =>
        let hot := decide (1 ≤ tget 0 newS e.1)
        if 1152 ≤ e.1 ∧ e.1 < 1216 then
          s.each (List.range 64) fun s n => s.modStrand ((e.1 - 1152) * 64 + n) fun x => { x with hot := hot }
        else s
      let s := s.each (List.range 4) fun s d =>
        if !dieAt oldJ d 2 && dieAt newJ d 2 then
          match hottest (junction.filter fun e => islandDie e.1 == some d) with
          | some e => s.record .contained .module (unitId 9 e.1) 0x09 3 noPart (toBytes 2 (BitVec.ofInt 16 e.2).toNat)
          | none => s
        else s
      let s := s.when (!s.limitsHeld) fun s => s.each (List.range islandCount) fun s i => s.modIsland i (s.thermLimit junction stack i)
      let crossed (old new_ : SMap Nat) (l : List (Nat × Int)) : Nat :=
        (l.map fun e => let a := tget 0 old e.1; let b := tget 0 new_ e.1; (a - b) + (b - a)).sum
      let n := crossed oldJ newJ junction + crossed oldS newS stack
      .next (s.when (n != 0) fun s => (s.aonAdd 0 3 n).msix 0 3)

/-- REGULATOR_OVERTEMP: above 110 °C for 1 ms (R574). -/
def execRegulatorOvertemp (regulator heldUs : Nat) (s : State) : Out :=
  if regulator < 290 && 1000 ≤ heldUs then .next (s.thermalTrip (unitId 0x0F regulator)) else .next s

/-- REGULATOR_OVERVOLTAGE: 15 % above the set point for 10 µs (R574). -/
def execRegulatorOvervoltage (regulator heldUs : Nat) (s : State) : Out :=
  if regulator < 290 && 10 ≤ heldUs then .next (s.thermalTrip (unitId 0x0F regulator)) else .next s

/-! ## Registers (R501) -/

/-- The unit that refused power and calibration writes name: the power manager (R15). -/
def pwrUnit : Nat := unitId 0x0D 1

/-- PWR_MODULE_CAP_WRITE: 1,200 to 2,600 W. -/
def execPwrModuleCapWrite (op : RegOp) (s : State) : Out :=
  if !isWide op.agent || !covers op 11 0 then .next s
  else
    let v := op.value.toNat % 4096
    if 1200 ≤ v ∧ v ≤ 2600 then .next (s.modPwr fun w => { w with cap := BitVec.ofNat 12 v })
    else .next (s.refusedWrite pwrUnit noPart (pwrRegAddr 8) (acctOf op.agent))

/-- PWR_IDLE_WRITE: both fields lie in the low half. -/
def execPwrIdleWrite (op : RegOp) (s : State) : Out :=
  if !isWide op.agent || !covers op 16 0 then .next s
  else .next (s.modPwr fun w => { w with gateUnassigned := bit op.value 16, idleUs := bits op.value 15 0 })

/-- PWR_PTN_WRITE: CAP_W is 0, or 30 to 200 W for each quadrant. -/
def execPwrPtnWrite (part : Nat) (op : RegOp) (s : State) : Out :=
  if !isWide op.agent || !covers op 63 52 then .next s
  else
    let v := nbits op.value.toNat 63 52
    let q := popc (s.part part).quads
    if v == 0 || (30 * q ≤ v && v ≤ 200 * q) then
      .next (s.modPwr fun w => { w with ptnCap := upd w.ptnCap part fun _ => BitVec.ofNat 12 v })
    else .next (s.refusedWrite pwrUnit part (pwrRegAddr (0x100 + 8 * part)) (acctOf op.agent))

end Sys2Proof.Machine
end

