-- ==== Sys2Proof/Machine/Calib.lean ====
section
/-! DEFINITION. Alterations of the pattern and CALIBRATE (R492 to R498, R502). -/

namespace Sys2Proof.Machine

/-! ## Alterations (R493, R494) -/

/-- CAL_ALT_SEL as a number: KIND, FIELD and INDEX; also the key of an item. -/
def CalSt.sel (c : CalSt) : Nat := c.kind.toNat * 2 ^ 28 + c.field.toNat * 2 ^ 24 + c.index.toNat

/-- Whether a selection names an item (R493). -/
def altOk (kind field index : Nat) : Bool :=
  match kind with
  | 1 => field == 0 && (islandOk index || (decide (2048 ≤ index) && decide (index < 2112)))
  | 2 => islandOk index
  | 3 => decide (field < 3) && decide (index < 96)
  | 4 => decide (field < 2) && decide (index < 4096)
  | _ => false

/-- Bounds of an alteration, the same on either side (R493). -/
def altBound (kind : Nat) : Int :=
  match kind with
  | 1 => 16
  | 2 => 10
  | 3 => 4
  | _ => 8

/-- The alteration of the selected item, and its effective value: the pattern's altered, within its safe range (R493, R502). -/
def State.altOffset (s : State) : Int := tget 0 s.cal.alters s.cal.sel
def State.altEffective (s : State) : Int :=
  let k := s.cal.sel
  max (Config.patternLow k) (min (Config.patternHigh k) (Config.patternValue k + s.altOffset))

/-- CAL_ALT_SEL_WRITE: reserved bits, a reserved KIND or an item that does not exist leave it unchanged (R494). -/
def execCalAltSelWrite (op : RegOp) (s : State) : Out :=
  if !isWide op.agent then .next s
  else
    let v := (mergeWrite (fld s.cal.sel 0) op).toNat
    if v / 2 ^ 32 == 0 && altOk (nbits v 31 28) (nbits v 27 24) (nbits v 23 0) then
      .next { s with cal := { s.cal with
        kind := BitVec.ofNat 4 (nbits v 31 28), field := BitVec.ofNat 4 (nbits v 27 24), index := BitVec.ofNat 24 (nbits v 23 0) } }
    else .next (s.refusedWrite pwrUnit noPart (calRegAddr 0) (acctOf op.agent))

/-- CAL_ALT_VALUE_WRITE: an offset within the bounds of the kind (R494). -/
def execCalAltValueWrite (op : RegOp) (s : State) : Out :=
  if !isWide op.agent || !covers op 15 0 then .next s
  else
    let v := signed 16 op.value.toNat
    let b := altBound s.cal.kind.toNat
    if -b ≤ v ∧ v ≤ b then .next { s with cal := { s.cal with alters := tset 0 s.cal.alters s.cal.sel v } }
    else .next (s.refusedWrite pwrUnit noPart (calRegAddr 8) (acctOf op.agent))

/-! ## CALIBRATE (R425, R496, R497) -/

/-- Indices of the classes that CALIBRATE names. -/
def calRange (cls : Nat) : Option Nat :=
  match cls with
  | 5 => some 4096
  | 6 => some 16
  | 7 => some 12
  | 9 => some islandCount
  | _ => none

/-- The codes of a CALIBRATE's parameters (R497). -/
def calCodes (s : State) (e : InEntry) : List Nat :=
  let unit := leAt e.bytes 16 4
  let count := leAt e.bytes 20 4
  let cls := unit / 2 ^ 24
  s.cmdCodes e (e.fn == 0) [(24, 40)] ++ (if cls == 0 then [0xB] else
    match calRange cls with
    | none => [0x13]
    | some n => if count == 0 || 4096 < count || n < unit % 2 ^ 24 + count then [4] else [])

/-- Whether CALIBRATE skips a unit: quarantined, gated, not fitted or off (R497). -/
def State.calSkips (s : State) (cls i : Nat) : Bool :=
  match cls with
  | 6 => (nth ({} : LpdChan) s.mem.lpd i).size == 0
  | 7 => !(s.port i).enable
  | 9 => (s.island i).st == .gated || (decide (i < 1024) && (s.core i).quar)
  | _ => false

/-- Whether a unit is held for fitting, which a CALIBRATE waits for (R498). -/
def State.calWaits (s : State) (cls i : Nat) : Bool :=
  match s.err.fit with
  | some j =>
    (j.cls == cls && j.held.any fun h => h.1 == i) || (cls == 9 && decide (i < 1024) && s.fitCore == some i)
      || (cls == 9 && j.cls == 7 && j.held.any fun h => h.1 + 1216 == i)
  | none => false

/-- A strand, channel or port held for its calibration, unless a fitting holds it now; a port retrains at the widest width that trains,
one that retrains already included (R425, R497). -/
def State.calHold (s : State) (cls i : Nat) : State :=
  if s.calWaits cls i then s
  else
    match cls with
    | 5 => s.modStrand i fun x => { x with held := true }
    | 6 => s.setIsland (1228 + i) .held
    | 7 =>
      let s := if (s.port i).st == .up then s.startRetrain i else s
      if (s.port i).st == .retraining then (s.modPort i fun p => { p with renew := true }).setIsland (1216 + i) .held else s
    | _ => s

/-- Its hold ends (R544). -/
def State.calReturn (s : State) (cls i : Nat) : State :=
  let run (s : State) (n : Nat) : State := if (s.island n).st == .held then s.setIsland n .running else s
  match cls with
  | 5 => s.modStrand i fun x => { x with held := false }
  | 6 => run s (1228 + i)
  | 7 => run s (1216 + i)
  | _ => s

/-- A CALIBRATE goes on at unit i of its class: units to skip are passed over, the next one begins, or the command ends. `n` is
at least the number of units left. -/
def State.calNext (s : State) (fn : Nat) (tag : Word) (cls last : Nat) : Nat → Nat → State
  | 0, _ => ({ s with cal := { s.cal with job := none } } : State).cmdEnd fn tag 5 0
  | n + 1, i =>
    if last < i then ({ s with cal := { s.cal with job := none } } : State).cmdEnd fn tag 5 0
    else if s.calSkips cls i then s.calNext fn tag cls last n (i + 1)
    else
      ({ s with cal := { s.cal with jobNext := i } } : State).calHold cls i

/-- CALIBRATE: accepted unless another runs (R378, R497). -/
def execCalibrate (fn : Nat) (s : State) : Out :=
  .next (s.takeCmd fn 0x12 calCodes fun s e =>
    let unit := leAt e.bytes 16 4
    let count := leAt e.bytes 20 4
    let s := s.acceptCmd e .calibrate
    if s.cal.job.isSome then s.cmdEnd fn e.tag 7 0xC
    else
      let s := { s with cal := { s.cal with job := some (fn, e.tag, unit, count) } }
      (s.cmdState fn e.tag 3).calNext fn e.tag (unit / 2 ^ 24) (unit % 2 ^ 24 + count - 1) count (unit % 2 ^ 24)).settle

/-- CALIBRATE_UNIT_COMPLETE: the unit's hold ends, COUNT rises, the next begins (R496, R497). -/
def execCalibrateUnitComplete (s : State) : Out :=
  match s.cal.job with
  | none => .next s
  | some (fn, tag, unit, count) =>
    let cls := unit / 2 ^ 24
    let i := s.cal.jobNext
    if s.calWaits cls i || (cls == 7 && (s.port i).st == .retraining) then .next s
    else
      .next (((s.calReturn cls i).cmdCount fn tag 1).calNext fn tag cls (unit % 2 ^ 24 + count - 1) count (i + 1)).settle

end Sys2Proof.Machine
end

