-- ==== Sys2Proof/Machine/Measure.lean ====
section
/-! DEFINITION. Counters, measures and the power and temperature block (R503 to R518, R525 to R527). -/

namespace Sys2Proof.Machine

/-! ## Engine classes (R507, R510, R511) -/

/-- A class turned on or off at a time; a disabled class holds its values. -/
def ClassRun.enable (c : ClassRun) (on : Bool) (t : Dword) : ClassRun :=
  match c.since, on with
  | some a, false => { c with runs := c.runs ++ [(a, t)], since := none }
  | none, true => { c with since := some t }
  | _, _ => c

/-- A class's counters set to 0 at a time, its epoch one more; resets at one time count once. -/
def ClassCnt.reset (c : ClassCnt) (t : Dword) : ClassCnt :=
  if (c.before.map (·.1)) == some t then c
  else { cur := { runs := [], since := c.cur.since.map fun _ => t, epoch := c.cur.epoch + 1 }, before := some (t, c.cur) }

/-- A class as a latch at a time takes it: before a reset of the same time. -/
def ClassCnt.at_ (c : ClassCnt) (t : Dword) : ClassRun :=
  match c.before with
  | some (a, old) => if a == t then old else c.cur
  | none => c.cur

/-- A native counter's value at a latch: what its record counted in idle steps, and a free count over the other spans of its class (log
entry 24). -/
def ClassRun.value (c : ClassRun) (rec k : Nat) (t : Dword) : BitVec 48 :=
  let span (a b : Dword) : BitVec 48 := Config.slots rec k b - Config.slots rec k a
  let l := (c.runs.map fun r => span r.1 r.2).foldl (· + ·) (tget 0 c.counts (rec * 16 + k))
  match c.since with
  | some a => l + span a t
  | none => l

/-- ENABLE of MSR_CFG written (R507, R525). -/
def State.msrEnable (s : State) (v : BitVec 5) : State :=
  s.modMsr fun m => { m with
    enable := v, enableOld := m.enable, enableAt := s.time.now
    classes := (List.range 5).map fun k =>
      let c := nth ({} : ClassCnt) m.classes k
      { c with cur := c.cur.enable (bit v k) s.time.now } }

/-- Classes reset at a time. -/
def State.msrReset (s : State) (mask : BitVec 5) (t : Dword) : State :=
  s.modMsr fun m => { m with
    classes := (List.range 5).map fun k =>
      let c := nth ({} : ClassCnt) m.classes k
      if bit mask k then c.reset t else c }

/-- MSR_RESET_WRITE (R510). -/
def execMsrResetWrite (op : RegOp) (s : State) : Out :=
  if isWide op.agent && covers op 4 0 then .next (s.msrReset (bits op.value 4 0) s.time.now) else .next s

/-! ## Records (R513, R514) -/

/-- Records of an image. -/
def recCount : Nat := 11565

/-- Unit class, index and native class of a record. -/
def recUnit (r : Nat) : Nat × Nat × Option Nat :=
  if r == 0 then (0, 0, none)
  else if r < 1025 then (1, r - 1, some 0)
  else if r < 5121 then (2, r - 1025, some 1)
  else if r < 7169 then (3, r - 5121, some 2)
  else if r < 7425 then (4, r - 7169, none)
  else if r < 11521 then (5, r - 7425, some 3)
  else if r < 11537 then (6, r - 11521, none)
  else if r < 11549 then (7, r - 11537, some 4)
  else (0x10, r - 11549, none)

/-- The island of a record's unit; none for the module and the partitions (R475). -/
def recIsland (r : Nat) : Option Nat :=
  let (cls, i, _) := recUnit r
  match cls with
  | 1 => some i
  | 2 => some (i / 4)
  | 3 => some (i / 2)
  | 4 => some (1024 + i / 64 * 32 + i % 64 / 2)
  | 5 => some (1152 + i / 1024 * 16 + i % 1024 / 64)
  | 6 => some (1228 + i)
  | 7 => some (1216 + i)
  | _ => none

/-- Reasons that a native class counts (R505). -/
def reasonsOf (cls : Nat) : Nat :=
  match cls with
  | 0 => 8
  | 1 | 3 | 4 => 6
  | _ => 5

/-- A free-running count of a record since module reset. -/
def ranSince0 (r k : Nat) (t : Dword) : BitVec 48 := Config.slots r k t - Config.slots r k 0

/-- Always-on slots whose events no command of this model brings: FEC-corrected codewords, and a partition's bytes (R508; log entry 24). -/
def aonFree (cls k : Nat) : Bool :=
  match cls with
  | 7 => k == 2
  | 0x10 => k != 1
  | _ => false

/-- The bytes of a counter. -/
def cntBytes (v : BitVec 48) : List Byte := toBytes 8 v.toNat

/-- A record of a latched image (R514). Its counters are numbered 0 busy, 1 idle, 2 to 9 the reasons; stalled is the sum of the
reasons, but for reason 8 of a core (R504). A partition's has 10 stalled, and 11 the busy cycles of its hoops (R508). -/
def Latch.record (l : Latch) (r : Nat) : List Byte :=
  let (cls, i, nat) := recUnit r
  let fitted := !l.notfit.contains r
  let v (k : Nat) : BitVec 48 := if !fitted then 0
    else match nat with
      | some c => (nth ({} : ClassRun) l.classes c).value r k l.t
      | none => if cls == 0x10 then l.ptnRun.value r k l.t else 0
  let reason (k : Nat) : BitVec 48 := match nat with
    | some c => if k ≤ reasonsOf c ∨ (c == 0 && k == 8) then v (k + 1) else 0
    | none => 0
  let stalled : BitVec 48 := match nat with
    | some _ => ((List.range 7).map fun k => reason (k + 1)).foldl (· + ·) 0
    | none => if cls == 0x10 then v 10 else 0
  let a := tget ({} : Aon) l.aon r
  let aon (k : Nat) (x : BitVec 48) : BitVec 48 := if !fitted then 0 else if aonFree cls k then x + ranSince0 r (10 + k) l.t
    else if cls == 0x10 then v 11 else x
  let epoch : Nat := match nat with
    | some c => (nth ({} : ClassRun) l.classes c).epoch.toNat
    | none => 0
  let enabled : Bool := match nat with
    | some c => bit l.enable c
    | none => false
  let cycles : Dword := match recIsland r with
    | some n => if fitted then nth 0 l.cycles n else 0
    | none => l.t
  let stop : Bool := match recIsland r with
    | some n => l.stopped.contains n
    | none => false
  toBytes 4 (unitId cls i) ++ toBytes 2 epoch
    ++ toBytes 2 (b2n enabled + 2 * b2n stop + 4 * b2n (l.quar.contains r) + 8 * b2n (!fitted))
    ++ toBytes 8 cycles.toNat ++ cntBytes (v 0) ++ cntBytes stalled ++ cntBytes (v 1)
    ++ ((List.range 8).map fun k => cntBytes (reason (k + 1))).flatten
    ++ cntBytes (aon 1 a.a1) ++ cntBytes (aon 2 a.a2) ++ cntBytes (aon 3 a.a3)

/-- The header of a latched image (R515). -/
def Latch.header (l : Latch) (module : Nat) : List Byte :=
  toBytes 8 l.t.toNat ++ toBytes 4 module ++ toBytes 2 l.index ++ toBytes 1 (1 + 2 * b2n l.reset) ++ toBytes 1 l.enable.toNat
    ++ toBytes 4 recCount ++ List.replicate 108 0

/-! ## MEASURE (R516, R517) -/

/-- Bytes from one image of a MEASURE to the next. -/
def imageStride : Nat := 1482752

/-- REPEAT of an entry, 0 read as 1. -/
def InEntry.repeats (e : InEntry) : Nat := max 1 (leAt e.bytes 37 1)

/-- Whether a snapshot time lies from 50 µs to 10 s after acceptance; 0 selects 50 µs (R516, R519). -/
def State.snapOk (s : State) (t : Nat) : Bool := t == 0 || (decide (s.now + 50000 ≤ t) && decide (t ≤ s.now + 10000000000))
def State.snapTime (s : State) (t : Nat) : Dword := if t == 0 then s.time.now + 50000 else BitVec.ofNat 64 t

/-- The code of a destination address (R378). -/
def dstCodes (e : InEntry) : List Nat := let a := leAt e.bytes 24 8; if a == 0 || a % 4096 != 0 then [3] else []

/-- The codes of a MEASURE's parameters. -/
def measureCodes (s : State) (e : InEntry) : List Nat :=
  let n := e.repeats
  let period := leAt e.bytes 38 2
  s.cmdCodes e (e.fn == 0) [(40, 24)] ++ (if leAt e.bytes 36 1 / 2 != 0 then [2] else []) ++ dstCodes e
    ++ (if s.snapOk (leAt e.bytes 16 8) && n * imageStride ≤ leAt e.bytes 32 4
          && (if n == 1 then period == 0 else decide (2000 ≤ period)) then [] else [4])

/-- MEASURE: accepted unless four run. -/
def execMeasure (fn : Nat) (s : State) : Out :=
  .next (s.takeCmd fn 0x13 measureCodes fun s e =>
    let b := e.bytes
    let s := s.acceptCmd e .measure
    if 4 ≤ s.msr.jobs.length then s.cmdEnd fn e.tag 7 0xC
    else
      let j : MeasureJob :=
        { fn := fn, tag := e.tag, t := s.snapTime (leAt b 16 8), dst := BitVec.ofNat 64 (leAt b 24 8), reset := leAt b 36 1 == 1
          repeat_ := e.repeats, periodUs := leAt b 38 2 }
      (s.modMsr fun m => { m with jobs := m.jobs ++ [j] }).cmdState fn e.tag 3)

/-- The running MEASURE of a function with a tag, changed. -/
def State.modJob (s : State) (fn : Nat) (tag : Word) (f : MeasureJob → MeasureJob) : State :=
  s.modMsr fun m => { m with jobs := m.jobs.map fun j => if j.fn == fn && j.tag == tag then f j else j }
def State.job (s : State) (fn : Nat) (tag : Word) : Option MeasureJob := s.msr.jobs.find? fun j => j.fn == fn && j.tag == tag

/-- An island's cycle counter at a time, since its clock last changed its state (R481, R509). -/
def State.cyclesAt (s : State) (i : Nat) (t : Dword) : Dword :=
  let k := s.island i
  if k.st.clocked && s.time.running then k.cyc + BitVec.ofNat 64 (Config.edges i t - Config.edges i k.cycFrom) else k.cyc

/-- Records of quarantined units, and of channels that are not fitted. -/
def State.quarRecs (s : State) : List Nat :=
  (s.cores.flatMap fun c =>
    (if c.2.quar then [recCore c.1] else [])
      ++ ((List.range 4).filter fun h => (c.2.hoop h).quar).map (fun h => recHoop (c.1 * 4 + h))
      ++ ((List.range 2).filter fun e => (c.2.engine e).quar).map fun e => recShuttle (c.1 * 2 + e))
def State.notfitRecs (s : State) : List Nat := ((List.range 16).filter fun n => (nth ({} : LpdChan) s.mem.lpd n).size == 0).map recLpd

/-- What every island latches at time t. -/
def State.latch (s : State) (j : MeasureJob) (t : Dword) : Latch :=
  { fn := j.fn, tag := j.tag, index := j.latched, t := t
    enable := if s.msr.enableAt == t then s.msr.enableOld else s.msr.enable
    classes := s.msr.classes.map fun c => c.at_ t
    aon := s.msr.aon, ptnRun := s.msr.ptnRun
    cycles := (List.range islandCount).map fun i => s.cyclesAt i t
    stopped := (List.range islandCount).filter fun i => !(s.island i).st.clocked
    quar := s.quarRecs, notfit := s.notfitRecs, reset := j.reset }

/-- MEASURE_LATCH: latch k at T + k × PERIOD_US; RESET clears the classes that are enabled; COUNT is the thousands of island
latches (R509 to R511, R517). -/
def execMeasureLatch (fn : Nat) (tag : Word) (t : Dword) (s : State) : Out :=
  let s := s.at_ t
  match s.job fn tag with
  | none => .next s
  | some j =>
    let due := j.t + BitVec.ofNat 64 (j.latched * j.periodUs * 1000)
    if j.latched < j.repeat_ && due.toNat ≤ s.now then
      let l := s.latch j due
      let s := s.modMsr fun m => { m with latches := m.latches ++ [l] }
      let s := s.modJob fn tag fun j => { j with latched := j.latched + 1 }
      let s := s.when j.reset fun s => s.msrReset l.enable due
      .next (s.cmdCountTo fn tag ((j.latched + 1) * islandCount / 1000))
    else .next s

/-- MEASURE_IMAGE_WRITTEN: the oldest latched image of the command, records first and header last; the command ends with its
last image (R515, R517). -/
def execMeasureImageWritten (fn : Nat) (tag : Word) (s : State) : Out :=
  match s.job fn tag, findIdx (fun l => l.fn == fn && l.tag == tag) s.msr.latches with
  | some j, some n =>
    match s.msr.latches[n]? with
    | none => .next s
    | some l =>
      let a := j.dst + BitVec.ofNat 64 (l.index * imageStride)
      let s := s.hostWrite fn (a + 128) ((List.range recCount).flatMap l.record)
      let s := s.hostWrite fn a (l.header s.myId)
      let s := s.modMsr fun m => { m with latches := dropAt m.latches n, images := m.images + 1 }
      if j.written + 1 == j.repeat_ then
        .next ((s.modMsr fun m => { m with jobs := m.jobs.filter fun x => !(x.fn == fn && x.tag == tag) }).cmdEnd fn tag 5 0)
      else .next (s.modJob fn tag fun j => { j with written := j.written + 1 })
  | _, _ => .next s

/-! ## The power and temperature block (R518, R527) -/

/-- A temperature in 1/256 °C as the block holds it. -/
def alkenTemp (t : Int) : Word := BitVec.ofNat 32 (BitVec.ofInt 16 t).toNat

/-- CAUSE of MSR_ALKEN_THROTTLE: what lowers an island below point 15. -/
def State.throttleCause (s : State) : Nat :=
  let formed := (List.range 16).filter fun p => (s.part p).quads != 0
  let cap := formed.any fun p => nth 15 s.pwr.modLimit p != 15
  b2n (cap && !s.pwr.emerg) + 2 * b2n (s.islands.any fun e => e.2.tlimit != 15) + 4 * b2n (cap && s.pwr.emerg)
    + 8 * b2n (formed.any fun p => nth 15 s.pwr.ptnLimit p != 15)

/-- The band of a sensor's reading among its thresholds (R563): sensor 1 in mV, 2 in W, the others in 1/256 °C. -/
def State.sensorBandOf (s : State) (sensor : Nat) (x : Int) : Nat :=
  let above (l : List Int) : Nat := (l.filter fun t => decide (t * 256 ≤ x)).length
  match sensor with
  | 1 => if x < 40000 then 2 else if x < 44000 then 1 else if 60000 < x then 4 else if 56000 < x then 3 else 0
  | 2 => if (s.pwr.cap.toNat : Int) < x then 1 else 0
  | 8 => above [85, 95, 110]
  | _ => above [95, 102, 110]

/-- A numeric sensor refreshed: its reading in whole units, and a message when it crosses a threshold. -/
def State.refresh (s : State) (sensor : Nat) (x : Int) : State :=
  let r := if 3 ≤ sensor then x / 256 else x
  let b := s.sensorBandOf sensor x
  let s := s.modMgmt fun m => { m with readings := tset 0 m.readings sensor r }
  if tget 0 s.mgmt.bands sensor == b then s
  else (s.modMgmt fun m => { m with bands := tset 0 m.bands sensor b }).platformEvent sensor r

/-- POWER_BLOCK_UPDATE: every register of the block at once, and the sensors of the PDR repository (R518, R563). -/
def execPowerBlockUpdate (mw mv ma j : Nat) (tmax : Int) (tdie : List Int) (tstack : Int) (t : Dword) (s : State) : Out :=
  let s := s.at_ t
  let vals : List Word :=
    [BitVec.ofNat 32 mw, BitVec.ofNat 32 mv, BitVec.ofNat 32 ma, BitVec.ofNat 32 j, alkenTemp tmax]
      ++ (List.range 4).map (fun k => alkenTemp (nth 0 tdie k))
      ++ [alkenTemp tstack, BitVec.ofNat 32 s.throttleCause, BitVec.ofNat 32 s.pwr.activeCap]
  let s := s.each ([(1, (mv : Int)), (2, ((mw / 1000 : Nat) : Int)), (3, tmax)] ++ (List.range 4).map (fun k => (4 + k, nth 0 tdie k)) ++ [(8, tstack)])
    fun s e => s.refresh e.1 e.2
  .next (s.modMsr fun m => { m with
    alken := ((List.range 12).zip vals).foldl (fun a e => tset 0 a (e.1 + 1) e.2) m.alken })

end Sys2Proof.Machine
end

