-- ==== Sys2Proof/Machine/Fit.lean ====
section
/-! DEFINITION. Fitting, and the end of a core's entry into quarantine (R536 to R544, R548). -/

namespace Sys2Proof.Machine

/-- The core that a unit of a core class belongs to (R14). -/
def fitCoreOf (cls i : Nat) : Option Nat :=
  match cls with
  | 1 => some i
  | 2 => some (i / 4)
  | 3 => some (i / 2)
  | _ => none

/-- The island whose state shows a hold (R477, R544). -/
def fitIsland (cls i : Nat) : Option Nat :=
  match cls with
  | 6 => some (1228 + i)
  | 7 => some (1216 + i)
  | _ => fitCoreOf cls i

/-- Indices of the classes that FIT tests. -/
def fitRange (cls : Nat) : Option Nat :=
  match cls with
  | 1 => some 1024
  | 2 => some 4096
  | 3 => some 2048
  | 4 => some 256
  | 5 => some 4096
  | 6 => some 16
  | 7 => some 12
  | _ => none

/-- The codes of a FIT's parameters (R540). -/
def fitCodes (s : State) (e : InEntry) : List Nat :=
  let unit := leAt e.bytes 16 4
  let count := leAt e.bytes 20 4
  let flags := leAt e.bytes 24 1
  let cls := unit / 2 ^ 24
  s.cmdCodes e (e.fn == 0) [(25, 39)] ++ (if flags / 4 != 0 then [2] else []) ++ (if flags % 4 == 3 then [4] else [])
    ++ (if cls == 0 || cls == 8 || cls == 0xD || cls == 0xE || cls == 0xF then [0xB] else
      match fitRange cls with
      | none => [0x13]
      | some n => (if count == 0 || 4096 < count || n < unit % 2 ^ 24 + count then [4] else [])
          ++ (if flags / 2 % 2 == 1 && 4 ≤ cls then [0x13] else []))

/-- Whether a unit is in quarantine. -/
def State.fitQuar (s : State) (cls i : Nat) : Bool :=
  match cls with
  | 1 => (s.core i).quar
  | 2 => ((s.core (i / 4)).hoop (i % 4)).quar
  | 3 => ((s.core (i / 2)).engine (i % 2)).quar
  | _ => false

/-- A contained record of a fitting: code 1 failed, 2 skipped not idle, 3 skipped last live core (R532). -/
def State.fitRecord (s : State) (mod_ : Bool) (cls i code step : Nat) : State :=
  s.record (if mod_ then .module else .contained) .module (unitId cls i) 0x0A code
    (match fitCoreOf cls i with
    | some c => s.partByte c
    | none => noPart) (toBytes 4 step)

/-- Whether another core of a core's partition is live (R542); a core of no partition needs none. -/
def State.otherLive (s : State) (c : Nat) : Bool :=
  match s.partOf c with
  | none => true
  | some p => (coresOf (s.part p).quads).any fun d => d != c && !(s.core d).quar && !(s.core d).held

/-- A unit put into quarantine. -/
def State.quarUnit (s : State) (cls i code : Nat) : State :=
  match cls with
  | 1 => s.quarCore i code 0
  | 2 => s.quarHoop (i / 4) (i % 4) code 0
  | 3 => s.quarEngine (i / 2) (i % 2) code 0
  | _ => s

/-- A unit released from quarantine, with its record and message (R537, R539). -/
def State.unquarUnit (s : State) (cls i : Nat) : State :=
  match cls with
  | 1 =>
    let s := s.modCore i fun k => { k with quar := false, quarAt := none }
    (s.modFlash fun f => { f with quarCores := f.quarCores.filter (· != i) }).quarRecord 1 i i 4 0
  | 2 =>
    let s := s.modHoop (i / 4) (i % 4) fun h => { h with quar := false }
    (s.modFlash fun f => { f with quarHoops := f.quarHoops.filter (· != i) }).quarRecord 2 i (i / 4) 4 0
  | 3 =>
    let s := s.modEngine (i / 2) (i % 2) fun g => { g with quar := false }
    (s.modFlash fun f => { f with quarEngines := f.quarEngines.filter (· != i) }).quarRecord 3 i (i / 2) 4 0
  | _ => s

/-! ## The order of the units (R541) -/

/-- The command ends after its last unit. -/
def State.fitEnd (s : State) (j : FitJob) : State := (s.modErr fun e => { e with fit := none }).cmdEnd j.fn j.tag 5 0

/-- The next unit, from i on: units that FIT passes over go by, those a QUARANTINE names are quarantined, and a core that is the
last live one is skipped with a record. `n` is at least the number of units left. -/
def State.fitNext (s : State) (j : FitJob) : Nat → Nat → State
  | 0, _ => s.fitEnd j
  | n + 1, i =>
    if j.last < i then s.fitEnd j
    else if j.quarantine then (s.quarUnit j.cls i 3).fitNext j n (i + 1)
    else if (s.fitQuar j.cls i && !j.release) || (fitCoreOf j.cls i).any (fun c => (s.core c).quar && (s.core c).quarAt.isSome) then
      s.fitNext j n (i + 1)
    else if (j.cls == 6 && (nth ({} : LpdChan) s.mem.lpd i).size == 0) || (j.cls == 7 && !(s.port i).enable) then s.fitNext j n (i + 1)
    else if (fitCoreOf j.cls i).any fun c => !s.otherLive c then (s.fitRecord false j.cls i 3 0).fitNext j n (i + 1)
    else s.modErr fun e => { e with fit := some { j with next := i, held := none, holds := 0 } }

/-- The unit after the present one. -/
def State.fitAdvance (s : State) (j : FitJob) : State := s.fitNext j (j.last - j.next) (j.next + 1)

/-- FIT: accepted unless another runs (R540, R541). -/
def execFit (fn : Nat) (s : State) : Out :=
  .next (s.takeCmd fn 0x11 fitCodes fun s e =>
    let unit := leAt e.bytes 16 4
    let count := leAt e.bytes 20 4
    let flags := leAt e.bytes 24 1
    let s := s.acceptCmd e .fit
    if s.err.fit.isSome then s.cmdEnd fn e.tag 7 0xC
    else
      let first := unit % 2 ^ 24
      let j : FitJob := { fn := fn, tag := e.tag, cls := unit / 2 ^ 24, next := first, last := first + count - 1
                          release := bit (BitVec.ofNat 8 flags) 0, quarantine := bit (BitVec.ofNat 8 flags) 1 }
      (s.cmdState fn e.tag 3).fitNext j count first)

/-! ## Holding, testing, returning (R542, R544) -/

/-- Whether the core that a fitting holds is quiet: no bundle runs, and nothing that it started is under way. -/
def State.fitQuiet (s : State) (cls i : Nat) : Bool :=
  match fitCoreOf cls i with
  | some c =>
    let k := s.core c
    !k.busy && k.mq.isEmpty && k.sb.isEmpty && (k.engines.all fun g => g.queues.all fun q => q.entries.isEmpty)
      && k.hoops.all fun h => h.subs.all fun x => x.queue.isEmpty && x.running.isEmpty
  | none => true

/-- A way of an L2 slice written back and invalidated (R223, R542). -/
def State.emptyWay (s : State) (slice way : Nat) : State :=
  let ws := ((s.sliceCache slice).sets.flatMap fun e => e.2.ways).filter fun w => w.1 == way
  let s := s.each ws fun s w => s.evict w.2
  s.modSlice slice fun c => { c with sets := (c.sets.map fun e => (e.1, { e.2 with ways := terase e.2.ways way })).filter fun e => e.2 != {} }

/-- A unit held: HELD of its core, its island or its strand; the first way of a slice; a port's retraining. -/
def State.fitHold (s : State) (cls i : Nat) : State :=
  let s := match fitCoreOf cls i with
    | some c => s.modCore c fun k => { k with held := true }
    | none => s
  let s := match fitIsland cls i with
    | some n => s.setIsland n .held
    | none => s
  match cls with
  | 4 => (s.emptyWay i 0).modMem fun m => { m with l2Test := some (i, 0) }
  | 5 => s.modStrand i fun x => { x with fitHeld := true }
  | 7 => if (s.port i).st == .up then (s.startRetrain i).modPort i fun p => { p with renew := true } else s
  | _ => s

/-- A held unit returned: its hold ends, its island runs again, or is gated again where nothing needs it (R542, R544); a core that
waits for its reset into quarantine stays held (R537). -/
def State.fitReturn (s : State) (cls i : Nat) : State :=
  let s := match fitCoreOf cls i with
    | some c => if (s.core c).quar && (s.core c).quarAt.isSome then s else s.modCore c fun k => { k with held := false }
    | none => s
  let s := match fitIsland cls i with
    | some n =>
      if (s.island n).st != .held || (fitCoreOf cls i).any (fun c => (s.core c).held) then s
      else if n < 1024 && s.mayGate n && s.drained n then (s.setIsland n .gated).gateCore n else s.setIsland n .running
    | none => s
  match cls with
  | 4 => s.modMem fun m => { m with l2Test := none }
  | 5 => s.modStrand i fun x => { x with fitHeld := false }
  | _ => s

/-- A core after a test: scratch and counters as they were, hoops as a core reset leaves them, codebooks and exponent base from
the image (R178, R185, R542). -/
def State.testedCore (s : State) (c : Nat) : State :=
  (s.modCore c fun k => { k with
    hoops := k.hoops.map fun h => { h with split := false, subs := [{}, {}, {}, {}] }
    expBase := 0x5D00, cb := [] }).imageRegs c

/-- The fitting of a unit that entered quarantine meanwhile is over (R548). -/
def State.fitTaken (s : State) (j : FitJob) : Bool :=
  match j.held with
  | some h => s.fitQuar j.cls h.1 && !j.release
  | none => false

/-- Holds of a unit's test: 16 of a strand, 8 of an LPDDR6 channel, 1 ms apart, else one. -/
def fitHolds (cls : Nat) : Nat := if cls == 5 then 16 else if cls == 6 then 8 else 1

/-- Whether a strand or a channel under test is in one of its holds. -/
def State.inHold (s : State) (cls i : Nat) : Bool :=
  if cls == 5 then (tget {} s.mem.strands i).fitHeld else (s.island (1228 + i)).st == .held

/-- FIT_UNIT_HOLD: the next unit is held, and its test begins once nothing runs on it; a slice under test goes on to its next
way, and a strand or channel ends its present hold, or takes its next one 1 ms after the last (R542, R544; log entry 1). -/
def execFitUnitHold (t : Dword) (s : State) : Out :=
  let s := s.at_ t
  match s.err.fit with
  | none => .next s
  | some j =>
    if s.fitTaken j then .next ((s.fitReturn j.cls j.next).fitAdvance j)
    else
      match j.held with
      | none =>
        let s := s.fitHold j.cls j.next
        .next (s.modErr fun e => { e with fit := some { j with held := some (j.next, s.time.now, s.fitQuiet j.cls j.next), holds := 1 } })
      | some (i, since, testing) =>
        match testing, s.mem.l2Test with
        | true, some (sl, w) =>
          if j.cls == 4 && w < 15 then .next ((s.emptyWay sl (w + 1)).modMem fun m => { m with l2Test := some (sl, w + 1) }) else .next s
        | true, none =>
          if fitHolds j.cls == 1 then .next s
          else if s.inHold j.cls i then .next (s.fitReturn j.cls i)
          else if j.holds < fitHolds j.cls ∧ since.toNat + 1000000 ≤ s.now then
            .next ((s.fitHold j.cls i).modErr fun e => { e with fit := some { j with held := some (i, s.time.now, true), holds := j.holds + 1 } })
          else .next s
        | false, _ =>
          if s.fitQuiet j.cls i then .next (s.modErr fun e => { e with fit := some { j with held := some (i, since, true) } }) else .next s

/-- FIT_HOLD_TIMEOUT: a bundle still runs 1 s after the hold: the unit is skipped with code 0x02. -/
def execFitHoldTimeout (t : Dword) (s : State) : Out :=
  let s := s.at_ t
  match s.err.fit with
  | none => .next s
  | some j =>
    match j.held with
    | some (i, since, false) =>
      if since.toNat + 1000000000 ≤ s.now then .next (((s.fitReturn j.cls i).fitRecord false j.cls i 2 0).fitAdvance j) else .next s
    | _ => .next s

/-- What a failed test does: a core, hoop or engine is quarantined; a slice, strand or channel writes a module-class record and
stays; a port trains at the lanes that passed (R535, R542). -/
def State.fitFailed (s : State) (cls i step : Nat) : State :=
  (s.fitRecord (decide (4 ≤ cls ∧ cls ≤ 6)) cls i 1 step).quarUnit cls i 2

/-- The lanes at which a tested port trains. -/
def State.fitPort (s : State) (i : Nat) (lanes : BitVec 8) : State :=
  if (s.port i).st != .retraining then s else s.lanesTrained i lanes

/-- FIT_TEST_COMPLETE: the unit is restored and returned, or quarantined; one that RELEASE names and that passed leaves
quarantine; COUNT rises and vector 6 is an event (R379, R539, R541, R542). A unit passes after the last of its holds. -/
def execFitTestComplete (passed : Bool) (failedStep : Nat) (lanes : BitVec 8) (s : State) : Out :=
  match s.err.fit with
  | none => .next s
  | some j =>
    if s.fitTaken j then .next ((s.fitReturn j.cls j.next).fitAdvance j)
    else
      match j.held with
      | some (i, _, true) =>
        if passed && decide (j.holds < fitHolds j.cls) then .next s else
        let s := match s.mem.l2Test with
          | some (sl, w) => s.each ((List.range 16).drop (w + 1)) fun s n => s.emptyWay sl n
          | none => s
        let s := match fitCoreOf j.cls i with
          | some c => s.testedCore c
          | none => s
        let s := s.when (j.cls == 7) fun s => s.fitPort i (if passed then 0xFF else lanes)
        let s := if !passed then s.fitFailed j.cls i failedStep
          else s.when (j.release && s.fitQuar j.cls i) fun s => s.unquarUnit j.cls i
        .next (((s.fitReturn j.cls i).msix 0 6 |>.cmdCount j.fn j.tag 1).fitAdvance j).settle
      | _ => .next s

/-- QUARANTINE_CORE_RESET: a quarantined core that is idle, or was held 100 ms ago, is reset, and its hold ends; once the
reset has drained, ISLAND_GATE gates its island (R284, R480, R537). -/
def execQuarantineCoreReset (core : CoreId) (t : Dword) (s : State) : Out :=
  let s := s.at_ t
  let c := core.toNat
  let k := s.core c
  match k.quar, k.quarAt with
  | true, some at_ =>
    if !k.busy || at_.toNat + 100000000 ≤ s.now then
      .next ((s.coreReset c).modCore c fun k => { k with held := false, quarAt := none })
    else .next s
  | _, _ => .next s

end Sys2Proof.Machine
end

