-- ==== Sys2Proof/Machine/Firmware.lean ====
section
/-! DEFINITION. Firmware activation, and the resets of functions (R381 to R383, R409, R545, R548). -/

namespace Sys2Proof.Machine

/-! ## FW_ACTIVATE (R409, R545) -/

/-- The code that the check of an image gives (R409). -/
def State.fwCode (s : State) (c : FwCheck) : Option Nat :=
  if !c.factoryOk || (s.policyBit 1 && !signedBy c.digest c.owner s.thm.otp.owner.toList) then some 0xF
  else if c.svn < s.thm.otp.minSvn then some 0x13 else none

/-- A record of an activation: code 1 activated, 2 reverted, 3 refused (R532). -/
def State.fwRecord (s : State) (code target svn : Nat) : State :=
  s.record .contained .module (unitId 0x0D 0) 0x0C code noPart (toBytes 1 target ++ toBytes 3 0 ++ toBytes 4 svn)

/-- An image of a bank: whether it is whole, its SVN and digest. -/
def Bank2.setImage (b : Bank2) (target svn : Nat) (digest : BitVec 512) (ok : Bool) : Bank2 :=
  if target == 0 then { b with hubSvn := svn, hubDigest := digest, hubOk := ok }
  else { b with thimbleSvn := svn, thimbleDigest := digest, thimbleOk := ok }

/-- An image of the inactive bank. -/
def State.writeBank (s : State) (target svn : Nat) (digest : BitVec 512) (ok : Bool) : State :=
  s.modFlash fun f => { f with banks := upd f.banks (1 - f.bootBank) fun b => b.setImage target svn digest ok }

/-- Activation starts: the images are in the inactive bank, and the publication of new lists is held. -/
def State.startActivation (s : State) (fn : Option Nat) (tag : Word) (images : List (Nat × FwCheck)) : State :=
  let s := s.each images fun s i => s.writeBank i.1 i.2.svn i.2.digest true
  (s.modBoot fun b => { b with act := some { fn := fn, tag := tag, images := images, since := s.time.now } }).modOb
    fun o => { o with hold := true }

/-- The codes of a FW_ACTIVATE's parameters. -/
def fwCodes (s : State) (e : InEntry) : List Nat :=
  let src := leAt e.bytes 16 8
  let len := leAt e.bytes 24 4
  s.cmdCodes e (e.fn == 0) [(29, 35)] ++ (if src == 0 || src % 4096 != 0 then [3] else [])
    ++ (if len < 4096 || 67108864 < len || 1 < leAt e.bytes 28 1 then [4] else [])

/-- FW_ACTIVATE: the image is read and checked; what excludes it ends it with code 0x00C (R545, R568). -/
def execFwActivate (fn : Nat) (read : Option FwCheck) (s : State) : Out :=
  .next (s.takeCmd fn 0x15 fwCodes fun s e =>
    let s := s.acceptCmd e .fwActivate
    let target := leAt e.bytes 28 1
    if s.boot.act.isSome || s.err.fit.isSome || s.thm.form.isSome || s.loading || s.mgmt.update.active then s.cmdEnd fn e.tag 7 0xC
    else
      match read with
      | none => s.cmdEnd fn e.tag 7 8
      | some c =>
        match s.fwCode c with
        | some code => (s.fwRecord 3 target c.svn).cmdEnd fn e.tag 7 code
        | none => (s.cmdState fn e.tag 3).startActivation (some fn) e.tag [(target, c)])

/-- The hold of an activation ends, and the command that asked for it, if any, ends. -/
def State.endActivation (s : State) (a : FwAct) (state code : Nat) : State :=
  let s := (s.modBoot fun b => { b with act := none }).modOb fun o => { o with hold := false }
  match a.fn with
  | some fn => s.cmdEnd fn a.tag state code
  | none => s

/-- CDI1 and CDI2 of the firmware that runs (R412; log entry 9). -/
def State.rederive (s : State) : State :=
  let c := Config.nextSecret Config.uds s.boot.thimble.2
  s.modThm fun t => { t with cdi1 := c, cdi2 := Config.nextSecret c s.boot.hub.2 }

/-- FW_ACTIVATION_COMPLETE: within 2 ms the new image runs, and its bank becomes the boot bank; a Thimble activation ends every
SPDM session. -/
def execFwActivationComplete (t : Dword) (s : State) : Out :=
  let s := s.at_ t
  match s.boot.act with
  | none => .next s
  | some a =>
    if a.since.toNat + 2000000 < s.now then .next s
    else
      let s := s.modFlash fun f => { f with bootBank := 1 - f.bootBank }
      let s := s.each a.images fun s i =>
        let run := (i.2.svn, i.2.digest)
        let s := s.modBoot fun b => if i.1 == 0 then { b with hub := run } else { b with thimble := run }
        ((s.when (i.1 == 1) fun s => s.modThm fun t => { t with sessions := [] }).rederive).fwRecord 1 i.1 i.2.svn
      .next (s.endActivation a 5 0)

/-- FW_ACTIVATE_START_TIMEOUT: 2 ms have passed: the old image runs again. -/
def execFwActivateStartTimeout (t : Dword) (s : State) : Out :=
  let s := s.at_ t
  match s.boot.act with
  | none => .next s
  | some a =>
    if a.since.toNat + 2000000 ≤ s.now then .next ((s.each a.images fun s i => s.fwRecord 2 i.1 i.2.svn).endActivation a 7 0x13) else .next s

/-! ## Function reset (R381 to R383, R470, R525, R548) -/

/-- What of a function an FLR ends: its rings are off, what they held is gone, its live commands end; nothing is written to
the host. -/
def State.flrFn (s : State) (fn : Nat) : State :=
  (s.stopRings fn).modHif fun h => { h with
    inbox := h.inbox.filter fun e => e.fn != fn
    cmds := h.cmds.filter fun c => c.fn != fn }

/-- An FLR of a VF: every live request closes to FREE, its reduction ends. -/
def State.flrVf (s : State) (vf : Nat) : State :=
  if vf == 0 || 16 < vf then s
  else
    let s := (s.endReduce (vf - 1) 8 0).flrFn vf
    s.each (s.seqsOf (vf - 1)) fun s e => s.dropSeq e.1

/-- A load that PF0's FLR stops: in PHASE 1 or 3 the old image stays, with LAST_CODE 0x012; in PHASE 4 it completes. -/
def State.flrLoad (s : State) : State :=
  match s.ob.load with
  | some _ =>
    if s.ob.phase == .switching then s.modOb fun o => { o with load := o.load.map fun l => { l with orphan := true } }
    else
      let s := s.modOb fun o => { o with load := none, lastCode := 0x012 }
      s.setPhase (if s.ob.image.isSome then .active else .failed)
  | none => s

/-- The unit under fitting is restored and returned, and the command is over (R382, R548). -/
def State.flrFit (s : State) : State :=
  match s.err.fit with
  | some j =>
    let s := s.modErr fun e => { e with fit := none }
    match j.held with
    | some (i, _, testing) =>
      let s := match fitCoreOf j.cls i, testing with
        | some c, true => s.testedCore c
        | _, _ => s
      ((s.when (j.cls == 7) fun s => s.fitPort i 0xFF).fitReturn j.cls i).msix 0 6
    | none => s
  | none => s

/-- An FLR of PF0: on PF0 and every VF; loads, fittings, calibrations, measures and the graph end (R382, R525). -/
def State.flrPf0 (s : State) : State :=
  let s := s.each (List.range 16) fun s p => s.flrVf (p + 1)
  let s := ((s.flrLoad).flrFit).flrFn 0
  let s := s.modBoot fun b => { b with act := b.act.map fun a => { a with fn := none } }
  { s with cal := { s.cal with job := none }, msr := { s.msr with jobs := [], latches := [], tangle := none } }

/-- VF_FLR (R381). -/
def execVfFlr (vf : Nat) (s : State) : Out := .next (s.flrVf vf).settle

/-- PF0_FLR (R382). -/
def execPf0Flr (s : State) : Out := .next s.flrPf0.settle

/-- A function reset as by an FLR (R381 to R383). -/
def State.flr (s : State) (fn : Nat) : State := if fn == 0 then s.flrPf0 else s.flrVf fn

/-- A function enters D3hot: an FLR, and it answers configuration requests only (R383). -/
def State.toD3hot (s : State) (fn : Nat) : State := (s.flr fn).modFn fn fun f => { f with d3hot := true }

/-- D3HOT_ENTRY (R383). -/
def execD3hotEntry (fn : Nat) (s : State) : Out := .next (s.toD3hot fn).settle

/-! ## Configuration space (R359, R363, R384, R557) -/

/-- Capabilities that a function shows: SR-IOV, ARI, Resizable BAR, IDE and DOE stand on PF0; what R359 does not list is absent. -/
def capShown (fn : Nat) : Capability → Bool
  | .flitMode | .l0p | .tenBitTags | .msix | .aer | .flr => true
  | .sriov | .ari | .resizableBar | .vfResizableBar | .ide | .doe => fn == 0
  | .aspmL0s | .aspmL1 | .l1Substates | .ats | .pri | .pasid | .tdisp | .tph | .atomicOps | .ptm | .cxl => false

/-- What a register of configuration space reads. -/
def State.configRead (s : State) (fn : Nat) : ConfigReg → Nat
  | .maxPayload => (s.fn fn).maxPayload
  | .maxRead => (s.fn fn).maxRead
  | .timeoutRange => (s.fn fn).timeoutRange
  | .bar2Size => s.hif.bar2Size
  | .vfBar2Size => s.hif.vfBar2Size
  | .powerState => if (s.fn fn).d3hot then 3 else 0
  | .noSoftReset => 0
  | .tags => 768
  | .linkWidth => nth 16 [16, 8, 4, 2, 1] (Config.hostLink.1 % 5)
  | .linkGen => 7 - Config.hostLink.2 % 7
  | .vfs => 16
  | .vectors => if fn == 0 then 16 else 2
  | .aerUr => b2n (s.fn fn).aerUr
  | .aerCa => b2n (s.fn fn).aerCa

/-- Whether n is a power of two from 2^lo to 2^hi. -/
def powerIn (n lo hi : Nat) : Bool := (List.range (hi + 1 - lo)).any fun k => n == 2 ^ (lo + k)

/-- What a write of a register of configuration space does; a value outside what R359 and R363 support, and a register that only
reads, are left as they are. -/
def State.configWrite (s : State) (fn : Nat) (r : ConfigReg) (v : Nat) : State :=
  match r with
  | .maxPayload => s.when (powerIn v 7 9) fun s => s.modFn fn fun f => { f with maxPayload := v }
  | .maxRead => s.when (powerIn v 7 12) fun s => s.modFn fn fun f => { f with maxRead := v }
  | .timeoutRange => s.when (decide (v ≤ 4)) fun s => s.modFn fn fun f => { f with timeoutRange := v }
  | .bar2Size => s.when (fn == 0 && powerIn v 0 6) fun s => s.modHif fun h => { h with bar2Size := v }
  | .vfBar2Size => s.when (fn == 0 && powerIn v 0 6) fun s => s.modHif fun h => { h with vfBar2Size := v }
  | .powerState =>
    if v == 3 then (if (s.fn fn).d3hot then s else s.toD3hot fn)
    else s.when (v == 0) fun s => s.modFn fn fun f => { f with d3hot := false }
  | .aerUr => s.when (v % 2 == 1) fun s => s.modFn fn fun f => { f with aerUr := false }
  | .aerCa => s.when (v % 2 == 1) fun s => s.modFn fn fun f => { f with aerCa := false }
  | .noSoftReset | .tags | .linkWidth | .linkGen | .vfs | .vectors => s

/-- CONFIG_REQUEST: Request Retry Status until configuration space is ready; then a request to PF0 or to an enabled VF succeeds, and
one to another gets UR (R360, R557). What a register holds stands in the completion as a number of its own unit, since the base
specification's layout is not in the source (log entry 54). -/
def execConfigRequest (req : ConfigAsk) (s : State) : Out :=
  let fn := req.fn
  if !s.hif.configReady then .next (s.complete fn 3 [])
  else if !(fn == 0 || (s.fn fn).enabled) then .next (s.complete fn 1 [])
  else
    match req.op with
    | .present c => .next (s.complete fn 0 (toBytes 4 (b2n (capShown fn c))))
    | .read r => .next (s.complete fn 0 (toBytes 4 (s.configRead fn r)))
    | .write r v => .next ((s.configWrite fn r v).complete fn 0 []).settle

end Sys2Proof.Machine
end

