-- ==== Sys2Proof/Machine/Boot.lean ====
section
/-! DEFINITION. Power, resets and the bring-up phases (R286, R551 to R561, R568, R569, R578). -/

namespace Sys2Proof.Machine

/-- Local address of a register of the THM_ block (R419, R569). -/
def thmRegAddr (off : Nat) : Nat := regBase + 0x100000 + off

/-- PWRGD: high from the release of module reset while PHASE is 1 to 6 (R550). -/
def State.pwrgd (s : State) : Bool := s.time.running && decide (1 ≤ s.boot.phase ∧ s.boot.phase ≤ 6)

/-- A phase entered: sensor 9 sends its event (R555, R563). -/
def State.enterPhase (s : State) (n : Nat) : State :=
  (s.modBoot fun b => { b with phase := n, phaseAt := s.time.now }).platformEvent 9 n

/-- PHASE 7 with a code (R559). -/
def State.bootFails (s : State) (code : Nat) : State := (s.enterPhase 7).modBoot fun b => { b with lastCode := BitVec.ofNat 7 code }

/-- The release of module reset, once PHASE 0 is done, PERST# is released and the test access port does not hold it: global
time starts at 0 (R482, R555, R567). -/
def State.release (s : State) : State :=
  if s.boot.phase == 0 && s.boot.hold && !s.boot.perst && !s.tap.holds && !s.boot.recovery then
    (({ s with time := { s.time with now := 0, running := true } } : State).modBoot fun b => { b with hold := false }).enterPhase 1
  else s

/-! ## Power (R286, R555, R560, R568) -/

/-- POWER_INPUT_ON: the input reaches 44 V; the Thimble ROM checks the banks and PHASE 0 begins. What the check of each bank
finds is the operand's. -/
def execPowerInputOn (bankOk : List Bool) (s : State) : Out :=
  if s.pwr.inputOk then .next s
  else
    let s := s.modPwr fun w => { w with inputOk := true, low := false }
    let s := s.modFlash fun f => { f with
      banks := ((List.range 2).map fun n => let b := nth {} f.banks n; { b with thimbleOk := b.thimbleOk && nth true bankOk n }) }
    .next s.bootRom

/-- POWER_LOSS: the input goes; a module that runs keeps nothing (R286). -/
def execPowerLoss (s : State) : Out :=
  let s := if s.boot.powered then s.powerDown .powerOn else s
  .next (s.modPwr fun w => { w with inputOk := false })

/-! ## PERST# (R551, R555, R567, R578) -/

/-- PERST_ASSERT: under 1 µs it is ignored, from 100 µs on it resets the module, and between it may (a free choice). -/
def execPerstAssert (forNs : Nat) (s : State) : Out :=
  if forNs < 1000 then .next s
  else
    let hit := decide (100000 ≤ forNs) || s.pick 2 == 1
    let s := if 100000 ≤ forNs then s else s.bump
    if hit then .next ((s.modBoot fun b => { b with perst := true }).moduleReset .perst) else .next s

/-- PERST_DEASSERT: the release of module reset, unless the test access port drives the pins: it then holds the reset. -/
def execPerstDeassert (s : State) : Out :=
  if !s.boot.perst then .next s
  else
    let s := s.modBoot fun b => { b with perst := false }
    .next (({ s with tap := { s.tap with holds := s.tap.holds || s.tap.driving } } : State).release)

/-! ## The phases (R555 to R559) -/

/-- A record of a failure in bring-up: its source byte, and a code of that source that the rule does not give (free). -/
def State.bootRecord (s : State) (unit source codes : Nat) : State :=
  (s.bump).record .module .module unit source (s.pick codes + 1) noPart []

/-- PHASE 1: every island at its point, the link up, PF0 there; the bridges trained or PHASE 7. -/
def State.endPhase1 (s : State) (bridgesOk : Bool) : State :=
  let s := s.each (List.range islandCount) fun s i => s.modIsland i fun k => { k with freq := BitVec.ofNat 11 (vfFreq i 15) }
  let s := (s.modHif fun h => { h with configReady := true }).setVf 0 true
  if bridgesOk then s.enterPhase 2 else ((s.bump.bootRecord (unitId 8 (s.pick 6)) 0x10 4)).bootFails 2

/-- PHASE 2: the strands that did not train, and the interleave map. -/
def State.endPhase2 (s : State) (failed : List (BitVec 12)) : State :=
  let s := s.each failed fun s n => (s.modStrand n.toNat fun x => { x with failed := true }).bootRecord (unitId 5 n.toNat) 5 6
  (s.modMem fun m => if m.ilvSet then m else { m with ilv := 0xFFFF000000000000, ilvSet := true }).enterPhase 3

/-- PHASE 3: zeros in stacked memory; PHASE 4 is skipped where no LPDDR6 is fitted. -/
def State.endPhase3 (s : State) : State :=
  (s.zeroRange 0 stackTop).enterPhase (if Config.lpddrGiB == 0 then 5 else 4)

/-- PHASE 4: the rate at which every channel trained, and zeros under the module key; or no LPDDR6 at all. -/
def State.endPhase4 (s : State) (rate : Nat) : State :=
  let s := if rate == 1 || rate == 2 then
      let size : BitVec 2 := if Config.lpddrGiB == 256 then 1 else 2
      (s.zeroRange lpdBase Config.lpddrBytes).modMem fun m => { m with
        lpd := List.replicate 16 { size := size, rate := BitVec.ofNat 2 rate, ready := true, selfRefresh := false, lastAt := s.time.now } }
    else (s.modMem fun m => { m with lpdOff := true }).bump.bootRecord (unitId 6 (s.pick 16)) 5 6
  s.enterPhase 5

/-- PHASE 5: the persisted geometry formed; READY. -/
def State.endPhase5 (s : State) : State :=
  let s := match s.thm.flash.geom with
    | some (masks, modes) => s.each ((List.range 16).filter fun p => nth 0 masks p != 0) fun s p =>
        s.reform p (nth 0 masks p) (nth false modes p)
    | none => s
  (s.modBoot fun b => { b with bootMs := BitVec.ofNat 32 (s.now / 1000000) }).enterPhase 6

/-- BOOT_PHASE_COMPLETE: the work of the present phase is done, and the next begins. -/
def execBootPhaseComplete (bridgesOk : Bool) (strandsFailed : List (BitVec 12)) (lpddrRate : Nat) (t : Dword) (s : State) : Out :=
  let s := s.at_ t
  let b := s.boot
  match b.phase with
  | 0 =>
    if !b.powered || b.hold || b.recovery || s.pwr.low then .next s
    else .next ((((s.reconcile).loadAlters).loadQuarantine.modBoot fun b => { b with hold := true }).release)
  | 1 => .next (s.endPhase1 bridgesOk)
  | 2 => .next (s.endPhase2 strandsFailed)
  | 3 => .next s.endPhase3
  | 4 => .next (s.endPhase4 lpddrRate)
  | 5 => .next s.endPhase5
  | _ => .next s

/-- Limit of a phase in ns, and the code of exceeding it (R555, R559). PHASE 0 runs before global time: its limit is over when
the command comes. -/
def phaseLimit (phase : Nat) : Nat × Nat :=
  match phase with
  | 0 => (0, 7)
  | 1 => (20000000, 8)
  | 2 => (60000000, 3)
  | 3 => (10000000, 4)
  | 4 => (250000000 + 2200000 * Config.lpddrGiB, 5)
  | _ => (5000000, 6)

/-- BOOT_PHASE_TIMEOUT: PHASE 7; the record's source is the bridges' or the memory's in the phases that train them, and free in
the others. -/
def execBootPhaseTimeout (t : Dword) (s : State) : Out :=
  let s := s.at_ t
  let b := s.boot
  let (limit, code) := phaseLimit b.phase
  if 6 ≤ b.phase || !b.powered || b.recovery || (b.phase == 0 && (b.hold || s.pwr.low)) || s.now < b.phaseAt.toNat + limit then .next s
  else
    let s := match b.phase with
      | 1 => s.bootRecord (unitId 0 0) 0x10 4
      | 2 | 3 | 4 => s.bootRecord (unitId 0 0) 5 6
      | _ => s.bump.bootRecord (unitId 0 0) (s.pick 0x11 + 1) 6
    .next (s.bootFails code)

/-! ## THM_RESET and the watchdog (R553, R554, R568) -/

/-- THM_RESET_ARM: a write with GO 0 arms GO when ARM is 0xA5, and disarms it otherwise. -/
def execThmResetArm (op : RegOp) (t : Dword) (s : State) : Out :=
  let s := s.at_ t
  if !isWide op.agent || !covers op 8 0 || bit op.value 8 then .next s
  else .next (s.modBoot fun b => { b with armedAt := if nbits op.value.toNat 7 0 == 0xA5 then some s.time.now else none })

/-- THM_RESET_GO: a write with GO 1 resets the module when GO is armed; else it is ignored with an absorbed record. -/
def execThmResetGo (op : RegOp) (t : Dword) (s : State) : Out :=
  let s := s.at_ t
  if !isWide op.agent || !covers op 8 0 || !bit op.value 8 then .next s
  else
    let armed := match s.boot.armedAt with
      | some a => decide (s.now ≤ a.toNat + 1000000)
      | none => false
    if armed then .next (s.moduleReset .request)
    else .next (s.refusedWrite (unitId 0x0D 0) noPart (thmRegAddr 0x30) (acctOf op.agent))

/-- THM_RESET_ARM_EXPIRY: GO disarms 1 ms after it was armed. -/
def execThmResetArmExpiry (t : Dword) (s : State) : Out :=
  let s := s.at_ t
  match s.boot.armedAt with
  | some a => if a.toNat + 1000000 ≤ s.now then .next (s.modBoot fun b => { b with armedAt := none }) else .next s
  | none => .next s

/-- THIMBLE_WATCHDOG_EXPIRY: 2 s without service: a record in flash, then module reset with cause 3. The rule gives the record
no source and code (free). -/
def execThimbleWatchdogExpiry (sinceUs : Nat) (s : State) : Out :=
  if !s.boot.powered || sinceUs < 2000000 then .next s
  else .next ((s.bump.flashRecord .module (unitId 0x0D 0) (s.pick 0x11 + 1) (s.bump.pick 6 + 1)).bump.moduleReset .watchdog)

end Sys2Proof.Machine
end

