-- ==== Sys2Proof/Machine/Mgmt.lean ====
section
/-! DEFINITION. The management controller and the test access port (R550, R562 to R568). Numbers of the DMTF and IEEE standards
that the manual names without giving are PRESUMED from those standards or free (log entry 12). -/

namespace Sys2Proof.Machine

/-! ## Messages (R562, R565) -/

/-- Whether the management bus answers: PHASE 0 has brought it up, or the Thimble serves in recovery (R555, R559, R561). -/
def State.mgmtUp (s : State) : Bool :=
  s.boot.powered && (s.boot.hold || s.boot.phase != 0 || s.boot.recovery)

/-- What the controller sends. -/
def State.mgmtSend (s : State) (o : MgmtOut) : State := s.modMgmt fun m => { m with out := o :: m.out }

/-- The absorbed record of a violation: row and class. The rule gives it no source byte (free). -/
def State.mgmtViolation (s : State) (row cls : Nat) : State :=
  s.bump.record .absorbed .module (unitId 0x0D 2) (s.pick 0x11 + 1) cls noPart (toBytes 8 row)

/-- One message counted in its second of global time; beyond 1,000 it is dropped. -/
def State.countMsg (s : State) : State × Bool :=
  let second := s.now / 1000000000
  let n := if s.mgmt.second == second then s.mgmt.count + 1 else 1
  (s.modMgmt fun m => { m with second := second, count := n }, decide (1000 < n))

/-- A message: dropped or refused by R565, with `bad` the answer to a reserved field; or handed on. -/
def State.mgmtMsg (s : State) (fault : BusFault) (bad : State → State) (f : State → State) : State :=
  if !s.mgmtUp then s
  else
    let (s, tooLong) := s.countMsg
    if tooLong then s.mgmtViolation 6 1
    else
      match fault with
      | .none => f s
      | .frame => (s.mgmtSend .nack).mgmtViolation 1 3
      | .badMctp => s.mgmtViolation 2 1
      | .badType => s.mgmtViolation 3 1
      | .reservedField => (bad s).mgmtViolation 4 4
      | .overLimit => s.mgmtViolation 6 1

/-- An MCTP control message: completion 0x02 answers invalid data. -/
def State.mctpMsg (s : State) (fault : BusFault) (cmd : Byte) (f : State → State × List Byte) : State :=
  s.mgmtMsg fault (fun s => s.mgmtSend (.mctp cmd [2])) fun s => let r := f s; r.1.mgmtSend (.mctp cmd r.2)

/-- A PLDM command: type, command, and its completion code with bytes; completion 0x02 is ERROR_INVALID_DATA. -/
def State.pldmMsg (s : State) (fault : BusFault) (type cmd : Byte) (f : State → State × Byte × List Byte) : State :=
  s.mgmtMsg fault (fun s => s.mgmtSend (.pldm type cmd 2 [])) fun s => let r := f s; r.1.mgmtSend (.pldm type cmd r.2.1 r.2.2)

/-! ## Addresses (R562) -/

/-- SETDASA: a target without a dynamic address takes one by its static address, 0b10100 then ADDR[1:0]. -/
def execSetdasa (static dynamic : BitVec 7) (s : State) : Out :=
  if s.mgmtUp && s.mgmt.dynAddr.isNone && static == 0x50#7 + s.mgmt.strap.setWidth 7 then
    .next (s.modMgmt fun m => { m with dynAddr := some dynamic })
  else .next s

/-- ENTDAA: a target without a dynamic address takes one. -/
def execEntdaa (dynamic : BitVec 7) (s : State) : Out :=
  if s.mgmtUp && s.mgmt.dynAddr.isNone then .next (s.modMgmt fun m => { m with dynAddr := some dynamic }) else .next s

/-! ## MCTP control (R562) -/

/-- SET_ENDPOINT_ID: an EID of 0 or 0xFF is invalid. -/
def execSetEndpointId (fault : BusFault) (eid : Byte) (s : State) : Out :=
  .next (s.mctpMsg fault 1 fun s =>
    if eid == 0 || eid == 0xFF then (s, [2]) else (s.modMgmt fun m => { m with eid := eid }, [0, 0, eid, 0]))

/-- GET_ENDPOINT_ID. -/
def execGetEndpointId (fault : BusFault) (s : State) : Out := .next (s.mctpMsg fault 2 fun s => (s, [0, s.mgmt.eid, 0, 0]))

/-- GET_MCTP_VERSION_SUPPORT: version 1.3. -/
def execGetMctpVersionSupport (fault : BusFault) (s : State) : Out :=
  .next (s.mctpMsg fault 4 fun s => (s, [0, 1, 0xF1, 0xF3, 0xFF, 0]))

/-- GET_MESSAGE_TYPE_SUPPORT: PLDM and SPDM beside control. -/
def execGetMessageTypeSupport (fault : BusFault) (s : State) : Out := .next (s.mctpMsg fault 5 fun s => (s, [0, 2, 1, 5]))

/-! ## PLDM base (R562) -/

/-- GET_TID. -/
def execGetTid (fault : BusFault) (s : State) : Out := .next (s.pldmMsg fault 0 2 fun s => (s, 0, Config.mgmtBytes 0))

/-- The PLDM types supported. -/
def pldmTypes : List Nat := [0, 2, 5]

/-- GET_PLDM_VERSION of a type; another type is invalid data. -/
def execGetPldmVersion (fault : BusFault) (pldmType : Nat) (s : State) : Out :=
  .next (s.pldmMsg fault 0 3 fun s => if pldmTypes.contains pldmType then (s, 0, Config.mgmtBytes (16 + pldmType)) else (s, 2, []))

/-- GET_PLDM_TYPES: types 0, 2 and 5. -/
def execGetPldmTypes (fault : BusFault) (s : State) : Out := .next (s.pldmMsg fault 0 4 fun s => (s, 0, toBytes 8 0x25))

/-- GET_PLDM_COMMANDS of a type. -/
def execGetPldmCommands (fault : BusFault) (pldmType : Nat) (s : State) : Out :=
  .next (s.pldmMsg fault 0 5 fun s => if pldmTypes.contains pldmType then (s, 0, Config.mgmtBytes (32 + pldmType)) else (s, 2, []))

/-! ## PLDM monitoring and control (R562, R563) -/

/-- GET_SENSOR_READING of numeric sensors 1 to 8; completion 0x80 names an invalid sensor. -/
def execGetSensorReading (fault : BusFault) (sensor : Nat) (s : State) : Out :=
  .next (s.pldmMsg fault 2 0x11 fun s =>
    if 1 ≤ sensor ∧ sensor ≤ 8 then (s, 0, toBytes 4 (BitVec.ofInt 32 (tget 0 s.mgmt.readings sensor)).toNat) else (s, 0x80, []))

/-- GET_STATE_SENSOR_READINGS: PHASE and MODULE_FAULT. -/
def execGetStateSensorReadings (fault : BusFault) (sensor : Nat) (s : State) : Out :=
  .next (s.pldmMsg fault 2 0x21 fun s =>
    if sensor == 9 then (s, 0, toBytes 1 s.boot.phase)
    else if sensor == 10 then (s, 0, toBytes 1 (b2n s.err.moduleFault)) else (s, 0x80, []))

/-- SET_STATE_EFFECTER_STATES: effecter 1 in state 2 resets the module (R553); completion 0x80 names an invalid effecter, 0x81 an
invalid state. -/
def execSetStateEffecterStates (fault : BusFault) (effecter state : Nat) (s : State) : Out :=
  let go := effecter == 1 && state == 2 && fault == .none && s.mgmtUp && !s.countMsg.2
  let s := s.pldmMsg fault 2 0x39 fun s => (s, if effecter != 1 then 0x80 else if state != 2 then 0x81 else 0, [])
  .next (s.when go fun s => s.moduleReset .request)

/-- GET_PDR: a record of the repository (log entry 12). -/
def execGetPdr (fault : BusFault) (handle : Nat) (s : State) : Out := .next (s.pldmMsg fault 2 0x51 fun s => (s, 0, Config.pdr handle))

/-- SET_EVENT_RECEIVER: the requester that last enabled events gets them. -/
def execSetEventReceiver (fault : BusFault) (receiver : Nat) (enable : Bool) (s : State) : Out :=
  .next (s.pldmMsg fault 2 4 fun s => (s.modMgmt fun m => { m with receiver := if enable then some receiver else none }, 0, []))

/-! ## PLDM firmware update (R409, R545, R561, R564, R568) -/

/-- An update command out of sequence: COMMAND_NOT_EXPECTED and its record. -/
def State.notExpected (s : State) : State × Byte × List Byte := (s.mgmtViolation 5 4, 0x88, [])

def State.modUpdate (s : State) (f : UpdateSt → UpdateSt) : State := s.modMgmt fun m => { m with update := f m.update }

/-- Activation of the components applied, each of which must still meet R409: in recovery a module reset; else as FW_ACTIVATE, with what excludes one. -/
def State.activateUpdate (s : State) : State × Byte × List Byte :=
  if s.mgmt.update.applied.any fun i => (s.fwCode i.2).isSome then
    ((s.each s.mgmt.update.applied fun s i => s.when (s.fwCode i.2).isSome fun s => s.fwRecord 3 i.1 i.2.svn).modUpdate fun _ => {},
      Config.verifyError, [])
  else if s.boot.recovery then ((s.modUpdate fun _ => {}).moduleReset .request, 0, [])
  else if s.boot.act.isSome || s.err.fit.isSome || s.thm.form.isSome || s.loading then (s, 1, [])
  else
    let images := s.mgmt.update.applied
    ((s.modUpdate fun _ => {}).startActivation none 0 images, 0, [])

/-- One command of an update (R564): its effect and completion code. -/
def State.updateCmd (s : State) (cmd : FwUpdate) : State × Byte × List Byte :=
  let u := s.mgmt.update
  match cmd with
  | .requestUpdate =>
    if u.active || s.boot.act.isSome then (s, 0x81, []) else (s.modUpdate fun _ => { active := true }, 0, [])
  | .passComponent target =>
    if !u.active || u.component.isSome then s.notExpected
    else if 1 < target then (s.mgmtViolation 4 4, 2, [])
    else
      let b := nth {} s.thm.flash.banks (1 - s.thm.flash.bootBank)
      let svn := if target == 0 then b.hubSvn else b.thimbleSvn
      let digest := if target == 0 then b.hubDigest else b.thimbleDigest
      ((s.writeBank target svn digest false).modUpdate fun u => { u with component := some target, received := 0, verified := none }, 0, [])
  | .transferData target bytes =>
    if !u.active || u.component != some target || u.verified.isSome then s.notExpected
    else (s.modUpdate fun u => { u with received := u.received + bytes }, 0, [])
  | .verify target c =>
    if !u.active || u.component != some target || u.received == 0 || u.verified.isSome then s.notExpected
    else
      match s.fwCode c with
      | some _ => ((s.modUpdate fun _ => {}).fwRecord 3 target c.svn, Config.verifyError, [])
      | none => (s.modUpdate fun u => { u with verified := some c }, 0, [])
  | .applyComponent target =>
    match u.verified with
    | some c =>
      if u.active && u.component == some target then
        ((s.writeBank target c.svn c.digest true).modUpdate fun u =>
          { u with component := none, verified := none, applied := (target, c) :: u.applied.filter fun x => x.1 != target }, 0, [])
      else s.notExpected
    | none => s.notExpected
  | .activate selfContained =>
    if !u.active || u.component.isSome || u.applied.isEmpty then s.notExpected
    else if !selfContained then (s.mgmtViolation 4 4, 2, [])
    else s.activateUpdate
  | .cancelUpdate => if u.active then (s.modUpdate fun _ => {}, 0, []) else s.notExpected
  | .unsupported => (s.mgmtViolation 4 4, 5, [])

/-- The command byte of an update command. -/
def updateCode : FwUpdate → Byte
  | .requestUpdate => 0x10
  | .passComponent _ => 0x13
  | .transferData _ _ => 0x15
  | .verify _ _ => 0x17
  | .applyComponent _ => 0x18
  | .activate _ => 0x1A
  | .cancelUpdate => 0x1D
  | .unsupported => 0

/-- PLDM_FIRMWARE_UPDATE. -/
def execPldmFirmwareUpdate (fault : BusFault) (cmd : FwUpdate) (s : State) : Out :=
  .next (s.pldmMsg fault 5 (updateCode cmd) fun s => s.updateCmd cmd)

/-! ## The test access port (R566, R567) -/

/-- An instruction loaded that does not drive the pins: what drove them ends, and a reset that it held is released. -/
def State.tapPlain (s : State) (ir : TapIr) (tdo : Word) : State :=
  ({ s with tap := { s.tap with ir := ir, driving := false, holds := false, tdo := tdo } } : State).release

/-- EXTEST, CLAMP or HIGHZ: while PERST# holds the module in reset it drives the pins; else it is BYPASS with an absorbed record,
whose source and unit the rule does not give (free source; the Thimble's unit). -/
def State.tapDrive (s : State) (ir : TapIr) : State :=
  if s.boot.perst then { s with tap := { s.tap with ir := ir, driving := true } }
  else (s.bump.tapPlain .bypass 0).record .absorbed .module (unitId 0x0D 0) (s.pick 0x11 + 1) 1 noPart []

/-- BYPASS; a Denfold internal scan instruction, which is BYPASS but under the open debug policy, and then shifts out what the manual does
not give (R415, R566; a free value, log entry 93). -/
def execBypass (s : State) : Out :=
  .next (if s.tap.scanCode && s.thm.otp.debug == 0 then s.bump.tapPlain .internalScan ((Config.freeDword s.time.free).setWidth 32)
    else s.tapPlain .bypass 0)

/-- IDCODE: 0x1B0B_0A3D. -/
def execIdcode (s : State) : Out := .next (s.tapPlain .idcode 0x1B0B0A3D)

/-- SAMPLE_PRELOAD: the boundary register takes the pins. -/
def execSamplePreload (pins : BitVec 64) (s : State) : Out :=
  .next (({ s with tap := { s.tap with boundary := pins } } : State).tapPlain .sample (pins.setWidth 32))

/-- EXTEST. -/
def execExtest (s : State) : Out := .next (s.tapDrive .extest)

/-- CLAMP. -/
def execClamp (s : State) : Out := .next (s.tapDrive .clamp)

/-- HIGHZ. -/
def execHighz (s : State) : Out := .next (s.tapDrive .highz)

/-- TAP_RESET: Test-Logic-Reset selects IDCODE. -/
def execTapReset (s : State) : Out := .next (s.tapPlain .idcode s.tap.tdo)

end Sys2Proof.Machine
end

