-- ==== Sys2Proof/Machine/RegRead.lean ====
section
/-! DEFINITION. What every register reads as (R20, R29, R30, R68 to R79, R179 to R182, R203 to R207, R244 to R249, R323 to R332,
R353 to R358, R385 to R389, R419, R446 to R448, R474, R499 to R502, R526, R527, R549, R569). Reserved offsets read 0, and so do
fields that are only written. -/

namespace Sys2Proof.Machine

/-! ## Codes of states -/

def SkeinSt.code : SkeinSt → Nat
  | .free => 0
  | .loading => 1
  | .running => 2
  | .excHalted => 3
  | .abortHalted => 4
  | .debugHalted => 5
  | .ending => 6

def BSt.code : BSt → Nat
  | .free => 0
  | .running => 1
  | .aborted => 2

def StepPhase.code : StepPhase → Nat
  | .idle => 0
  | .draft => 1
  | .main => 2
  | .updating => 3

def PSt.code : PSt → Nat
  | .unformed => 0
  | .formed => 1
  | .draining => 2
  | .scrubbing => 3

def PortSt.code : PortSt → Nat
  | .disabled => 0
  | .training => 1
  | .up => 2
  | .retraining => 3
  | .down => 4
  | .miswired => 5

def GSt.code : GSt → Nat
  | .none => 0
  | .forming => 1
  | .formed => 2
  | .degraded => 3
  | .stopped => 4
  | .refused => 5

def CSt.code : CSt → Nat
  | .running => 0
  | .stretching => 1
  | .stopped => 2
  | .gated => 3
  | .held => 4

/-! ## Snapshots and records as bytes (R292, R350, R529) -/

/-- FLAGS of CTL (R293). -/
def Entry.ctlFlags (e : Entry) : Nat :=
  b2n e.toileNext + 2 * b2n e.toileUsed + 4 * b2n e.wasPreempted + 8 * b2n e.truncated + 16 * b2n e.cancelPending
    + 32 * b2n e.pageHold + 64 * b2n e.strike + 128 * b2n e.textIn

/-- An entry in the layout of R292. -/
def Entry.bytes (e : Entry) : List Byte :=
  toBytes 4 (e.st.code + 16 * e.priority.toNat + 2 ^ 8 * e.client.toNat + 2 ^ 20 * e.part.toNat + 2 ^ 24 * e.ctlFlags)
    ++ toBytes 4 e.tag.toNat ++ toBytes 8 e.statusAddr.toNat ++ toBytes 8 e.outTokAddr.toNat ++ toBytes 8 e.outTxtAddr.toNat
    ++ toBytes 4 e.outTokCap ++ toBytes 4 e.outTxtCap ++ toBytes 8 e.firstDl.toNat ++ toBytes 4 e.interDl ++ toBytes 4 e.maxTokens
    ++ toBytes 4 (e.position % 2 ^ 20 + 2 ^ 20 * (e.treeN % 32) + 2 ^ 25 * (e.treeDepth % 8))
    ++ toBytes 4 (e.promptLen % 2 ^ 20) ++ toBytes 8 e.kvdir.toNat ++ toBytes 8 e.sideAddr.toNat
    ++ toBytes 4 e.temp.toNat ++ toBytes 4 e.topP.toNat ++ toBytes 2 e.topK ++ toBytes 2 e.sideN.toNat ++ toBytes 4 e.lastToken
    ++ ((List.range 31).flatMap fun k => toBytes 4 (tget 0 e.tree (k + 1)).toNat)
    ++ toBytes 4 e.accTokens ++ toBytes 4 e.accToile ++ toBytes 4 e.pages.length ++ toBytes 4 (sat32 e.accWait)
    ++ toBytes 4 (e.preempts % 2 ^ 12 + 2 ^ 12 * e.lag) ++ toBytes 8 e.admitTime.toNat ++ toBytes 8 e.lastTime.toNat

/-- An account in the layout of R350. -/
def Account.bytes (a : Account) : List Byte :=
  toBytes 8 a.waitTotal.toNat ++ toBytes 4 a.waitMax.toNat ++ toBytes 4 a.preempts.toNat ++ toBytes 8 a.tokens.toNat
    ++ toBytes 8 a.toileTokens.toNat ++ toBytes 4 a.firstMisses.toNat ++ toBytes 4 a.interMisses.toNat ++ toBytes 4 a.ended.toNat
    ++ toBytes 4 0 ++ ((List.range 16).flatMap fun k => toBytes 4 (tget 0 a.hist k).toNat) ++ toBytes 8 a.since.toNat ++ toBytes 8 0

/-- An error record in the layout of R529. -/
def ErrRec.bytes (r : ErrRec) : List Byte :=
  toBytes 8 r.time.toNat ++ toBytes 4 r.unit ++ toBytes 1 r.cls ++ toBytes 1 r.code ++ toBytes 1 r.source ++ toBytes 1 r.part
    ++ slice r.detail 0 48

/-- Word w of a byte list. -/
def wordOf (l : List Byte) (w : Nat) : Dword := BitVec.ofNat 64 (leAt l (8 * w) 8)

/-- Word w of a log slot; a slot that holds no record reads 0. -/
def logWord (log : SMap ErrRec) (slot w : Nat) : Dword :=
  match log.find? fun e => e.1 == slot with
  | some (_, r) => wordOf r.bytes w
  | none => 0

/-- The value of a register, or 0 at an offset that is not 8 × its number. -/
def at8 (o base n : Nat) (f : Nat → Dword) : Dword := if base ≤ o && o < base + 8 * n then f ((o - base) / 8) else 0

/-! ## Core blocks -/

/-- CORE_ (R68 to R74). -/
def Core.coreWord (k : Core) (o : Nat) : Dword :=
  if o == 0x008 then fld k.lastRefusal.toNat 32 ||| fld k.refused.toNat 16 ||| fld k.launchQ.length 0
  else if o == 0x010 then fld k.freeKnots 16 ||| fld k.freeUnits 7 ||| fld k.freeSlots 0
  else if o < 0x200 then at8 o 0x100 16 fun n =>
    let x := nth ({} : Knot) k.knots n
    fld (b2n x.owner.isSome) 63 ||| fld ((x.owner.map (·.toNat)).getD 0) 57 ||| fld (b2n x.phase) 56 ||| fld x.wdogUs.toNat 40
      ||| fld x.participants 24 ||| fld x.arrived.length 13 ||| fld x.exited 2
  else at8 o 0x200 64 fun b =>
    let x := k.bundle b
    fld x.st.code 61 ||| fld x.cause.toNat 48 ||| fld x.firstSlot.toNat 42 ||| fld ((x.desc.map fun d => d.skeins - 1).getD 0) 37
      ||| fld x.seq.toNat 0

/-- SKN_ (R75 to R79). -/
def Core.sknWord (k : Core) (o : Nat) : Dword :=
  let x := k.skein (o / 0x1000)
  let o := o % 0x1000
  let exc := x.st == .excHalted
  if o == 0x000 then
    fld x.st.code 61 ||| fld x.bundle.toNat 50 ||| fld x.index.toNat 45 ||| fld (x.units - 1) 40
      ||| fld (if exc then x.cause.toNat else 0) 32 ||| fld (if exc then x.excMask.toNat else 0) 0
  else if o == 0x008 then (if exc then x.excPc else 0)
  else if o == 0x010 then (if exc then x.excAddr else 0)
  else if o == 0x018 then fld x.exited.toNat 32 ||| fld (maskOf (x.knotWait.map (·.1) ++ (x.knotHeld.filter fun h => h.2.2.1).map (·.1))).toNat 0
  else if o == 0x020 then fld (b2n x.lost) 0
  else at8 o 0x100 32 fun t => tget 0 x.pc t

/-- HOOP_ (R179 to R182). -/
def Core.hoopWord (k : Core) (o : Nat) : Dword :=
  if o < 0x100 then (if o % 0x40 < 0x20 then k.hoopState (o / 0x40) (o % 0x40 / 8) else 0)
  else if o == 0x100 then fld k.expBase.toNat 6
  else at8 o 0x200 64 fun n =>
    fld (tget 0 k.cb (4 * n)).toNat 0 ||| fld (tget 0 k.cb (4 * n + 1)).toNat 16 ||| fld (tget 0 k.cb (4 * n + 2)).toNat 32
      ||| fld (tget 0 k.cb (4 * n + 3)).toNat 48

/-- SHT_ (R203 to R207). -/
def Core.shtWord (k : Core) (o : Nat) : Dword :=
  if o < 0x800 then k.cntVal (o / 8)
  else if o < 0x820 then BitVec.ofNat 64 (k.cntFault.toNat / 2 ^ (64 * ((o - 0x800) / 8)))
  else if o < 0x1000 || 0x1200 ≤ o then 0
  else
    let g := k.engine ((o - 0x1000) / 0x100)
    let q := o % 0x100
    if q < 0x20 then (g.queue (q / 8)).stat else if q == 0x80 then g.faultReg else if q == 0x88 then g.faultAddr else 0

/-- The bits of a field. -/
def maskBits (hi lo : Nat) : Nat := 2 ^ (hi + 1) - 2 ^ lo

/-- The bits of a core block's register that are not reserved: 0 for reserved offsets and for registers that only take writes (R6, R68 to
R79, R179 to R182, R203 to R207). -/
def coreMask (o : Nat) : Nat :=
  let full := 2 ^ 64 - 1
  if o < 0x40000 then
    (if o == 0x008 then maskBits 39 16 ||| maskBits 4 0
    else if o == 0x010 then maskBits 20 0
    else if 0x100 ≤ o && o < 0x180 then maskBits 63 40 ||| maskBits 34 2
    else if 0x200 ≤ o && o < 0x400 then maskBits 63 61 ||| maskBits 55 37 ||| maskBits 31 0
    else 0)
  else if o < 0x80000 then
    let q := o % 0x1000
    (if q == 0 then maskBits 63 61 ||| maskBits 55 0
    else if q == 0x008 || q == 0x010 || q == 0x018 || (0x100 ≤ q && q < 0x200) then full
    else if q == 0x020 then 1
    else 0)
  else if o < 0xC0000 then
    let q := o - 0x80000
    (if q < 0x100 then (if q % 0x40 < 0x20 then maskBits 63 59 ||| maskBits 55 24 ||| maskBits 22 16 ||| maskBits 14 8 else 0)
    else if q == 0x100 then maskBits 20 6
    else if 0x200 ≤ q && q < 0x400 then full
    else 0)
  else
    let q := o - 0xC0000
    (if q < 0x820 then full
    else if q < 0x1000 || 0x1200 ≤ q then 0
    else if q % 0x100 < 0x20 then maskBits 63 8 ||| maskBits 4 0
    else if q % 0x100 == 0x80 then maskBits 63 38
    else if q % 0x100 == 0x88 then full
    else 0)

/-- A register of a core's block. A core that has been gated and neither scrubbed nor reset since keeps no state: the fields of its
registers read as free values (R480; log entry 3). -/
def State.coreBlock (s : State) (c o : Nat) : Dword :=
  let k := s.core c
  if k.uninit then
    BitVec.ofNat 64 (ofBytes ((List.range 8).map fun i => Config.lostByte s.time.free (coreRegAddr c o + i)) &&& coreMask o)
  else if o < 0x40000 then k.coreWord o
  else if o < 0x80000 then k.sknWord (o - 0x40000)
  else if o < 0xC0000 then k.hoopWord (o - 0x80000)
  else k.shtWord (o - 0xC0000)

/-! ## Die blocks -/

/-- STR_ (R245 to R248). -/
def State.strWord (s : State) (die o : Nat) : Dword :=
  if o == 0 then s.mem.ilv
  else if o == 8 then let a := nth (0, 0, 0) s.mem.arb die; fld a.2.2.toNat 16 ||| fld a.2.1.toNat 8 ||| fld a.1.toNat 0
  else at8 o 0x1000 1024 fun n =>
    let x := tget ({} : Strand) s.mem.strands (die * 1024 + n)
    fld (b2n (x.held || x.fitHeld)) 63 ||| fld (b2n x.hot) 62 ||| fld x.lastUe.toNat 0

/-- LPD_CFG (R249). -/
def State.lpdWord (s : State) (die o : Nat) : Dword :=
  if o % 0x100 == 0 && o / 0x100 < 4 then
    let x := nth ({} : LpdChan) s.mem.lpd (die * 4 + o / 0x100)
    fld x.size.toNat 6 ||| fld x.rate.toNat 4 ||| fld (b2n x.ready) 0
  else 0

/-- WLK_GROUP, which reads 0 in FORM and LEAVE. -/
def WlkSt.groupWord (w : WlkSt) : Dword :=
  fld w.gstate.code 61 ||| fld w.localId.toNat 42 ||| fld w.w.toNat 34 ||| fld w.d.toNat 26 ||| fld w.m.toNat 9

/-- Registers of a port (R448). -/
def Port.word (p : Port) (o : Nat) : Dword :=
  if o == 0 then
    fld p.st.code 61 ||| fld p.width.toNat 59 ||| fld p.first.toNat 56 ||| fld p.laneOk.toNat 48 ||| fld p.peer.toNat 31
      ||| fld p.peerPort.toNat 27 ||| fld (b2n p.bypass) 26
  else if o == 8 then fld (b2n p.enable) 0
  else if o == 0x10 then fld p.retrains.toNat 48 ||| fld p.naksSent.toNat 32 ||| fld p.naksRcvd.toNat 16 ||| fld p.violations.toNat 0
  else 0

/-- WLK_ (R446 to R448). -/
def State.wlkWord (s : State) (die o : Nat) : Dword :=
  let w := s.wlk
  if o == 0x00 then w.sysWord
  else if o == 0x08 then w.groupWord
  else if o == 0x10 then fld w.parts.toNat 48 ||| fld w.tableAddr.toNat 0
  else if o == 0x18 then fld w.anchor.toNat 47 ||| fld w.deputy.toNat 30 ||| fld w.failed.toNat 0
  else if o == 0x20 then fld w.parent.toNat 60 ||| fld (b2n w.timeHold) 59 ||| fld w.depth.toNat 40 ||| fld w.offset.toNat 24
  else if o == 0x28 then fld w.deadCount.toNat 48 ||| fld w.deadLast.toNat 0
  else if 0x1000 ≤ o && o < 0x1300 then (s.port (die * 3 + (o - 0x1000) / 0x100)).word (o % 0x100)
  else 0

/-- CLK_ISLAND of the islands that a place shows (R499, R500). -/
def State.islandWord (s : State) (die : Option Nat) (o : Nat) : Dword := at8 o 0x1000 islandCount fun n =>
  if islandDie n == die then
    let i := s.island n
    fld i.st.code 61 ||| fld i.point.toNat 57 ||| fld i.tlimit.toNat 53 ||| fld i.freq.toNat 42 ||| fld i.temp.toNat 32
      ||| fld i.dlimit.toNat 28
  else 0

/-- A register of a die block. -/
def State.dieBlock (s : State) (die o : Nat) : Dword :=
  let sub := o / 0x2000000
  let o := o % 0x2000000
  if sub == 1 then s.strWord die o
  else if sub == 2 then s.lpdWord die o
  else if sub == 3 then s.wlkWord die o
  else if sub == 4 then
    (if o % 0x100 == 0 && o / 0x100 < 3 then let p := s.port (die * 3 + o / 0x100); fld p.combined.toNat 32 ||| fld p.converted.toNat 0 else 0)
  else if sub == 5 then s.islandWord (some die) o
  else 0

/-! ## Function pages and partition blocks -/

/-- BOUND of HIF_FN_STATE (R386). -/
def State.fnBound (s : State) (fn : Nat) : Bool :=
  (s.fn fn).enabled && (fn == 0 || ((s.part (fn - 1)).st != .unformed && (s.part (fn - 1)).bound && (s.part (fn - 1)).unbind.isNone))

/-- A register of a function's page (R385 to R388). -/
def State.fnPage (s : State) (fn o : Nat) : Dword :=
  let f := s.fn fn
  if o == 0 then
    fld (b2n (s.fnBound fn)) 63 ||| fld (b2n f.exc) 62 ||| fld (b2n f.lost) 61 ||| fld (b2n f.abort) 60 ||| fld (b2n f.req.err) 59
      ||| fld (b2n f.cmd.err) 58 ||| fld f.violations.toNat 32 ||| fld f.exceptions.toNat 16 ||| fld f.lastCause.toNat 8
  else if o == 8 then (if fn == 0 then 0 else fld f.vbase.toNat 30 ||| fld (b2n f.bar2En) 0)
  else if 0x100 ≤ o && o < 0x180 && !(fn == 0 && o < 0x140) then
    let r := f.ring ((o - 0x100) / 0x40)
    let q := o % 0x40
    if q == 0 then fld r.base.toNat 12
    else if q == 8 then fld r.log2.toNat 1 ||| fld (b2n r.enable) 0
    else if q == 0x18 then fld r.consumed.toNat 32 ||| fld r.head.toNat 0
    else 0
  else 0

/-- OB_ and DLM_ registers of a partition block (R328 to R332, R355 to R358). -/
def State.obPartWord (s : State) (p o : Nat) : Dword :=
  let x := s.obPart p
  if o == 0x400000 then x.cfgWord
  else if o == 0x400008 then x.listBase
  else if o == 0x400010 then fld x.step.toNat 32 ||| fld x.phase.code 28 ||| fld (x.rows % 4096) 16 ||| fld x.aborts.toNat 0
  else if o == 0x400020 then x.resultBase
  else if o == 0x400028 then fld ((s.seqsOf p).filter fun e => e.2.pageHold).length 32 ||| fld x.pool.length 0
  else if o == 0x400030 then fld x.demotePages.toNat 48 ||| fld x.demoteBase.toNat 21
  else if o == 0x480000 then x.dlmWord
  else if o == 0x480008 then fld x.demoted.toNat 48 ||| fld x.misses.toNat 32 ||| fld x.fallbacks.toNat 12 ||| fld x.lastPred.toNat 0
  else at8 o 0x481000 320 fun i =>
    let d := tget ({} : Pred) x.preds i
    fld (b2n d.seen) 16 ||| fld d.run 12 ||| fld d.pred 0

/-- PTN_ registers of a partition block (R244, R419). -/
def State.ptnWord (s : State) (p o : Nat) : Dword :=
  let x := s.part p
  if o == 0x800000 then x.xlatBase
  else if o == 0x800008 then fld (b2n x.xlatBusy) 0
  else if o == 0x800010 then fld (b2n x.sealed_) 0
  else if o == 0x800018 then
    fld (b2n x.bound) 63 ||| fld (b2n x.optin) 62 ||| fld (s.thm.clients.filter fun c => c.part == p).length 0
  else if o == 0x800020 then fld (b2n x.sendEn) 63
  else at8 o 0x800040 8 fun k => (nth ({} : Admit) x.admission k).word

/-- A register of a partition block. -/
def State.partBlock (s : State) (p o : Nat) : Dword :=
  let x := s.part p
  if o < 0x1000 then s.fnPage (p + 1) o
  else if o < 0x800000 then s.obPartWord p o
  else if o < 0x900000 then s.ptnWord p o
  else if o < 0x900040 then
    let w := nth ({} : Landing) x.land ((o - 0x900000) / 16)
    if o % 16 == 0 then fld (b2n w.en) 63 ||| fld w.base.toNat 21 else fld w.limit.toNat 21
  else if o == 0xA00018 then fld (b2n (s.seamPart p).active) 32 ||| fld (s.seamPart p).committed.toNat 0
  else if o == 0xA00020 then
    let m := s.seamPart p
    fld m.late.toNat 48 ||| fld m.short.toNat 32 ||| fld m.writes.toNat 16 ||| fld m.void.toNat 0
  else if o == 0xB00000 then
    fld x.written.toNat 32 ||| fld ((coresOf x.quads).filter fun c => !(s.core c).quar).length 10 ||| fld x.ptnRecords.toNat 6
      ||| fld (x.written.toNat % 64) 0
  else at8 o 0xB01000 512 fun n => logWord s.err.plog (p * 64 + n / 8) (n % 8)

/-! ## Global blocks -/

/-- OB_ (R29, R30, R325 to R327). -/
def State.obWord (s : State) (o : Nat) : Dword :=
  let b := s.ob
  let count (f : Entry → Bool) : Nat := (b.entries.filter fun e => f e.2).length
  if o == 0x00 then fld b.phase.code 44 ||| fld b.lastCode.toNat 32 ||| fld ((b.image.map (·.id.toNat)).getD 0) 0
  else if o == 0x08 then
    (if b.phase == .staging || b.phase == .draining || b.phase == .switching then fld ((b.load.map (·.id.toNat)).getD 0) 0 else 0)
  else if o == 0x10 then
    fld (count fun e => e.st == .admission || e.st == .queued) 48 ||| fld (count fun e => e.st == .prefill || e.st == .decode) 32
      ||| fld (count fun e => e.st != .free) 0
  else if o == 0x18 then fld b.peekSel.toNat 0
  else if o == 0x20 then fld b.sideSize.toNat 40 ||| fld b.sideBase.toNat 10
  else at8 o 0x100 32 fun w => wordOf b.peek.bytes w

/-- THM_ (R419, R569). -/
def State.thmWord (s : State) (o : Nat) : Dword :=
  let t := s.thm
  if o == 0x00 then
    fld t.otp.ownersLeft 60 ||| fld (255 - t.otp.minSvn) 52 ||| fld (64 - t.otp.alterHash.length) 45 ||| fld (32 - t.otp.geoms) 39
  else if o == 0x08 then fld t.otp.debug 0
  else if o == 0x10 then
    fld (b2n t.otp.owner.isSome) 63 ||| fld (t.otp.owners.length - 1) 60 ||| fld (b2n t.operatorKey.isSome) 59
  else if o == 0x18 then fld t.flash.policy.toNat 0
  else if o == 0x20 then fld ((t.flash.ledger.head?.map (·.seq)).getD 0) 32 ||| fld t.flash.unlogged.toNat 16
  else if o == 0x28 then
    fld s.boot.phase 60 ||| fld t.flash.bootBank 59 ||| fld (b2n s.boot.recovery) 58 ||| fld s.boot.lastCode.toNat 48
      ||| fld s.boot.cause.toNat 44 ||| fld s.boot.bootMs.toNat 0
  else 0

/-- PWR_ (R501). -/
def State.pwrWord (s : State) (o : Nat) : Dword :=
  let w := s.pwr
  if o == 0x00 then fld w.volt.toNat 32 ||| fld w.power.toNat 16
  else if o == 0x08 then fld (b2n w.emerg) 12 ||| fld w.cap.toNat 0
  else if o == 0x10 then fld (b2n w.gateUnassigned) 16 ||| fld w.idleUs.toNat 0
  else at8 o 0x100 16 fun p =>
    fld (nth 0 w.ptnCap p).toNat 52 ||| fld (nth 0 w.ptnPower p).toNat 40
      ||| fld (min (nth 15 w.ptnLimit p).toNat (nth 15 w.modLimit p).toNat) 36

/-- A signed value as 32 bits. -/
def int32 (v : Int) : Nat := (BitVec.ofInt 32 v).toNat

/-- CAL_ (R502). -/
def State.calWord (s : State) (o : Nat) : Dword :=
  let c := s.cal
  if o == 0x00 then fld c.sel 0
  else if o == 0x08 then fld (BitVec.ofInt 16 s.altOffset).toNat 0
  else if o == 0x10 then fld (int32 (Config.patternValue c.sel)) 32 ||| fld (int32 s.altEffective) 0
  else if o == 0x18 then
    fld (b2n c.loaded) 63 ||| fld (b2n c.mismatch) 62 ||| fld s.thm.otp.alterHash.length 55 ||| fld c.alters.length 0
  else 0

/-- MSR_ (R526, R527): the power and temperature block is of 32-bit registers. -/
def State.msrWord (s : State) (o : Nat) : Dword :=
  let m := s.msr
  if o == 0x00 then fld m.enable.toNat 0
  else if o == 0x10 then fld m.images.toNat 32 ||| fld m.jobs.length 0
  else at8 o 0x1000 32 fun n => fld (tget 0 m.alken (2 * n + 1)).toNat 32 ||| fld (tget 0 m.alken (2 * n)).toNat 0

/-- ERR_ (R549). -/
def State.errWord (s : State) (o : Nat) : Dword :=
  let e := s.err
  if o == 0x00 then fld e.written.toNat 32 ||| fld e.suppressed.toNat 16 ||| fld (e.written.toNat % 2048) 0
  else if o == 0x08 then
    fld (b2n e.moduleFault) 63 ||| fld s.thm.flash.quarCores.length 32 ||| fld s.thm.flash.quarHoops.length 16
      ||| fld s.thm.flash.quarEngines.length 0
  else if o < 0x20000 then at8 o 0x10000 1024 fun c =>
    let k := s.core c
    fld (b2n k.held) 7 ||| fld ((List.range 2).map fun g => 2 ^ g * b2n (k.engine g).quar).sum 5
      ||| fld ((List.range 4).map fun h => 2 ^ h * b2n (k.hoop h).quar).sum 1 ||| fld (b2n k.quar) 0
  else at8 o 0x20000 16384 fun n => logWord e.log (n / 8) (n % 8)

/-- A register of the global blocks. -/
def State.globalBlock (s : State) (o : Nat) : Dword :=
  let n := o / 0x40000
  let o := o % 0x40000
  match n with
  | 0 =>
    if o < 0x1000 then s.fnPage 0 o
    else if o == 0x1000 then fld s.hif.win.toNat 0
    else if o == 0x1008 then fld s.hif.bar2Base.toNat 30
    else 0
  | 1 => s.obWord o
  | 2 => if o == 0 then fld s.ob.acctSel.toNat 0 else at8 o 0x100 16 fun w => wordOf s.ob.acctPeek.bytes w
  | 3 =>
    if o == 0x80 then fld (b2n s.thm.form.isSome) 63 ||| fld s.thm.formLast.toNat 32 ||| fld s.thm.forms.toNat 0
    else at8 o 0 16 fun p => fld (s.part p).st.code 62 ||| fld (b2n (s.part p).sealed_) 16 ||| fld (s.part p).quads.toNat 0
  | 4 => s.thmWord o
  | 5 => if o == 0 then s.time.now else s.islandWord none o
  | 6 => s.pwrWord o
  | 7 => s.calWord o
  | 8 => s.msrWord o
  | 9 => s.errWord o
  | 10 => if o == 0 then fld (b2n s.msr.tangle.isSome) 63 ||| fld s.msr.tglCycles.toNat 32 ||| fld s.msr.tglNodes.toNat 0 else 0
  | 11 => if o == 0 then fld s.seam.holdNs.toNat 0 else 0
  | _ => 0

/-! ## Reading -/

/-- The 64-bit register at an aligned local address of register space (R20). -/
def State.regWord (s : State) (a : Nat) : Dword :=
  if a < 0x030001000000 then s.globalBlock (a - regBase)
  else if a < 0x030010000000 then 0
  else if a < 0x030020000000 then s.partBlock ((a - 0x030010000000) / 0x1000000) ((a - 0x030010000000) % 0x1000000)
  else if a < 0x030060000000 then s.dieBlock ((a - 0x030020000000) / 0x10000000) ((a - 0x030020000000) % 0x10000000)
  else if a < 0x030080000000 then 0
  else if a < 0x0300C0000000 then s.coreBlock ((a - 0x030080000000) / 0x100000) ((a - 0x030080000000) % 0x100000)
  else 0

/-- A 32- or 64-bit read of register space, as bytes (R8). -/
def State.regRead (s : State) (a size : Nat) : List Byte :=
  slice (toBytes 8 (s.regWord (a / 8 * 8)).toNat) (a % 8) size

end Sys2Proof.Machine
end

