-- ==== Sys2Proof/Machine/RegWrite.lean ====
section
/-! DEFINITION. Register writes that have no row of their own, the registers of the memory system, and REGISTER_WRITE, which
finds the register that an address names (R5, R8, R20, R244 to R247, R327, R329, R358, R361, R362, R384 to R389, R446 to R448). -/

namespace Sys2Proof.Machine

/-- The state that a command's meaning answers. -/
def outState (o : Out) (s : State) : State :=
  match o with
  | .next t => t
  | _ => s

/-! ## Partition registers of the Thimble's private path (R218, R244) -/

/-- PTN_XLAT_INVAL: a firmware write starts the invalidation (R244). -/
def execPtnXlatInval (part : Nat) (agent : Agent) (s : State) : Out :=
  match agent with
  | .firmware => .next (s.modPart part fun p => { p with xlatBusy := true })
  | .vf n => .next (s.vfDrop n (ptnRegAddr part 0x800008))
  | .pf0 => .next s

/-- XLAT_INVAL_COMPLETE: the cached translations of the partition's cores and shuttles are gone, and BUSY clears (R218). -/
def execXlatInvalComplete (part : Nat) (s : State) : Out :=
  if (s.part part).xlatBusy then
    let s := s.each (coresOf (s.part part).quads) fun s c => s.modCore c fun k => { k with tlb := [] }
    .next (s.modPart part fun p => { p with xlatBusy := false, oldLeaves := [] })
  else .next s

/-- PTN_SCRATCH_MODE_WRITE: only firmware writes it, and only in PSTATE 3; the mode changes after the zeroing of scratch that ends it
(R213, R244). -/
def execPtnScratchModeWrite (part : Nat) (op : RegOp) (s : State) : Out :=
  match op.agent with
  | .firmware =>
    if !covers op 0 0 then .next s
    else if (s.part part).st == .scrubbing then .next (s.modPart part fun p => { p with sealedNext := some (bit op.value 0) })
    else .next (s.refusedWrite (unitId 0x10 part) part (ptnRegAddr part 0x800010) .module)
  | .vf n => .next (s.vfDrop n (ptnRegAddr part 0x800010))
  | .pf0 => .next s

/-! ## Memory registers (R246, R247) -/

/-- Local address of a register of the STR_ sub-block. -/
def strRegAddr (die off : Nat) : Nat := 0x030020000000 + die * 0x10000000 + 0x2000000 + off

/-- STR_ILV_WRITE: the first write to any copy sets the register; MODULE spans both halves (R246). -/
def execStrIlvWrite (die : BitVec 2) (op : RegOp) (s : State) : Out :=
  if !isWide op.agent then .next s
  else if op.part != .full then .next (s.spanning op (strRegAddr die.toNat 0))
  else if s.mem.ilvSet then .next s
  else .next (s.modMem fun m => { m with ilv := op.value &&& ~~~1#64, ilvSet := true })

/-- One weight of STR_ARB: a write of 0 leaves it unchanged with an absorbed record (R247). -/
def State.arbField (s : State) (die : Nat) (op : RegOp) (lo : Nat) (f : Byte → Byte × Byte × Byte → Byte × Byte × Byte) : State :=
  if !covers op (lo + 7) lo then s
  else
    let v := nbits op.value.toNat (lo + 7) lo
    if v == 0 then s.refusedWrite (unitId 0 0) noPart (strRegAddr die 8) (acctOf op.agent)
    else s.modMem fun m => { m with arb := upd m.arb die (f (BitVec.ofNat 8 v)) }

/-- STR_ARB_WRITE: the weights of one die's strands (R247). -/
def execStrArbWrite (die : BitVec 2) (op : RegOp) (s : State) : Out :=
  if !isWide op.agent then .next s
  else
    let d := die.toNat
    .next (((s.arbField d op 0 fun v a => (v, a.2.1, a.2.2)).arbField d op 8 fun v a => (a.1, v, a.2.2)).arbField d op 16
      fun v a => (a.1, a.2.1, v))

/-! ## Registers of a function page (R386, R387) -/

/-- HIF_FN_STATE: EXC, LOST and ABORT are cleared by writing 1. -/
def State.fnStateWrite (s : State) (fn : Nat) (op : RegOp) : State :=
  s.modFn fn fun f => { f with
    exc := f.exc && !(covers op 62 62 && bit op.value 62)
    lost := f.lost && !(covers op 61 61 && bit op.value 61)
    abort := f.abort && !(covers op 60 60 && bit op.value 60) }

/-- HIF_FN_BAR2, which firmware writes (R387). -/
def State.fnBar2Write (s : State) (fn : Nat) (op : RegOp) : State :=
  if fn == 0 then s
  else s.modFn fn fun f => { f with
    vbase := if covers op 47 30 then bits op.value 47 30 else f.vbase
    bar2En := if covers op 0 0 then bit op.value 0 else f.bar2En }

/-- A write to a function's page. `priv` is the Thimble's private path. -/
def State.fnPageWrite (s : State) (priv : Bool) (fn : Nat) (op : RegOp) (o : Nat) : State :=
  if o == 0 then s.fnStateWrite fn op
  else if o == 8 then (if priv then s.fnBar2Write fn op else s)
  else if o < 0x100 || 0x180 ≤ o then s
  else
    let k := (o - 0x100) / 0x40
    match o % 0x40 with
    | 0x00 => outState (execHifRingBaseWrite fn k op s) s
    | 0x08 => outState (execHifRingCfgWrite fn k op s) s
    | 0x10 => outState (execRingTailWrite fn k op s) s
    | _ => s

/-! ## Registers of the Order Book without a row (R327, R329, R358) -/

/-- OB_SIDE: SIZE and BASE each take their first write; BASE spans both halves (R327). -/
def State.obSideWrite (s : State) (op : RegOp) : State :=
  let s := s.spanning op (regBase + 0x40020)
  let s := s.when (covers op 63 40 && !s.ob.sideSizeSet) fun s => s.modOb fun o => { o with sideSize := bits op.value 63 40, sideSizeSet := true }
  s.when (covers op 39 10 && !s.ob.sideBaseSet) fun s => s.modOb fun o => { o with sideBase := bits op.value 39 10, sideBaseSet := true }

/-- A write of a 64-bit field of a partition's registers. -/
def State.wideField (s : State) (op : RegOp) (addr : Nat) (f : State → State) : State :=
  if covers op 63 0 then f s else s.spanning op addr

/-- OB_PTN_DEMOTE: PAGES, and VBASE, which spans both halves (R358). -/
def State.demoteWrite (s : State) (p : Nat) (op : RegOp) : State :=
  (s.spanning op (ptnRegAddr p 0x400030)).modObPart p fun o => { o with
    demotePages := if covers op 63 48 then bits op.value 63 48 else o.demotePages
    demoteBase := if covers op 47 21 then bits op.value 47 21 else o.demoteBase }

/-! ## Link registers without a row (R446 to R448) -/

/-- WLK_GROUP: the fields, and FORM and LEAVE in this order; the fields are written once. -/
def State.groupWrite (s : State) (op : RegOp) : State :=
  if covers op 60 60 && bit op.value 60 then
    let t := outState (execGroupForm op 0 s) s
    if !(covers op 59 59 && bit op.value 59) then t
    else if s.groupForms then t.leaveGroup else outState (execGroupLeave (.here op) t) t
  else if covers op 59 59 && bit op.value 59 then outState (execGroupLeave (.here op) s) s
  else s.groupFields op

/-- WLK_GROUP_TABLE: PARTS, and ADDR, which spans both halves. -/
def State.groupTableWrite (s : State) (op : RegOp) : State :=
  (s.spanning op (wlkRegAddr 0x10)).modWlk fun w => { w with
    parts := if covers op 63 48 then bits op.value 63 48 else w.parts
    tableAddr := if covers op 46 0 then bits op.value 46 0 else w.tableAddr }

/-- WLK_LAND_BASE and WLK_LAND_LIMIT, by the Thimble's private path (R446, R448). -/
def State.landWrite (s : State) (p o : Nat) (op : RegOp) : State :=
  s.modPart p fun x => { x with
    land := upd x.land ((o - 0x900000) / 16) fun w =>
      if o % 16 == 0 then { w with
          en := if covers op 63 63 then bit op.value 63 else w.en
          base := if covers op 46 21 then bits op.value 46 21 else w.base }
      else { w with limit := if covers op 46 21 then bits op.value 46 21 else w.limit } }

/-! ## Blocks -/

/-- A write to a core's block (R68, R75, R179, R203). -/
def State.coreBlockWrite (s : State) (c : Nat) (op : RegOp) (o : Nat) : State :=
  let core := BitVec.ofNat 10 c
  let q := o % 0x40000
  match o / 0x40000 with
  | 0 =>
    if q == 0 then
      (if op.part == .full then s.queueLaunch c { writer := if op.agent == .pf0 then .pf0 else .firmware, desc := op.value }
        else s.spanning op (coreRegAddr c 0))
    else if q == 0x18 then outState (execCoreBundleRelease core op s) s
    else s
  | 1 =>
    let slot := q / 0x1000
    if q % 0x1000 == 0x20 then
      (if covers op 0 0 && bit op.value 0 then s.modSkein c slot fun k => { k with lost := false } else s)
    else if q % 0x1000 == 0x28 then
      (if bit op.value 0 then outState (execSknHalt core (BitVec.ofNat 6 slot) op s) s
        else outState (execSknResume core (BitVec.ofNat 6 slot) op s) s)
    else s
  | 2 =>
    if q == 0x100 then s.expBaseWrite c op
    else if 0x200 ≤ q && q < 0x400 then s.cbWrite c ((q - 0x200) / 0x20) ((q - 0x200) % 0x20 / 8) op
    else s
  | _ =>
    if q < 0x800 then outState (execShtCntWrite core (BitVec.ofNat 8 (q / 8)) op s) s
    else if q < 0x820 then s.cntFaultClear c ((q - 0x800) / 8) op
    else s

/-- A write to a die's block. -/
def State.dieBlockWrite (s : State) (die : Nat) (op : RegOp) (o : Nat) : State :=
  let q := o % 0x2000000
  match o / 0x2000000 with
  | 1 =>
    if q == 0 then outState (execStrIlvWrite (BitVec.ofNat 2 die) op s) s
    else if q == 8 then outState (execStrArbWrite (BitVec.ofNat 2 die) op s) s
    else s
  | 3 =>
    if q == 0 then outState (execWlkSysWrite op s) s
    else if q == 0x08 then s.groupWrite op
    else if q == 0x10 then s.groupTableWrite op
    else if 0x1000 ≤ q && q < 0x1300 && q % 0x100 == 8 then
      let port := die * 3 + (q - 0x1000) / 0x100
      (if bit op.value 0 then outState (execPortEnable port op s) s else outState (execPortDisable port op s) s)
    else s
  | _ => s

/-- Whether an offset of a partition block names an OB_, DLM_ or PTN_ register, which a VF may not write (R384 row 3). -/
def vfReadOnly (o : Nat) : Bool :=
  (decide (0x400000 ≤ o) && decide (o < 0x400038)) || o == 0x480000 || o == 0x480008
    || (decide (0x481000 ≤ o) && decide (o < 0x481A00)) || (decide (0x800000 ≤ o) && decide (o < 0x800028))
    || (decide (0x800040 ≤ o) && decide (o < 0x800080))

/-- A write to a partition's block. -/
def State.partBlockWrite (s : State) (priv : Bool) (p : Nat) (op : RegOp) (o : Nat) : State :=
  if o < 0x1000 then s.fnPageWrite priv (p + 1) op o
  else if 0x900000 ≤ o && o < 0x900040 then (if priv then s.landWrite p o op else s)
  else if o == 0xA00000 then outState (execSeamPost p op s) s
  else if o == 0xA00008 then outState (execSeamPublish p op s) s
  else if o == 0xA00010 then outState (execSeamBoundary p op s) s
  else if !vfReadOnly o then s
  else
    s.wideWrite op.agent (ptnRegAddr p o) fun s =>
      let a := ptnRegAddr p o
      if o == 0x400000 then outState (execObPtnCfgWrite p op s) s
      else if o == 0x400008 then s.wideField op a fun s => s.modObPart p fun x => { x with listBase := op.value }
      else if o == 0x400018 then outState (execObStepDone p op 0 s) s
      else if o == 0x400020 then s.wideField op a fun s => s.modObPart p fun x => { x with resultBase := op.value }
      else if o == 0x400030 then s.demoteWrite p op
      else if o == 0x480000 then outState (execDlmPtnCfgWrite p op s) s
      else if !priv then s
      else if o == 0x800000 then (if covers op 63 0 then s.modPart p fun x => { x with xlatBase := op.value } else s)
      else if o == 0x800008 then (if covers op 0 0 then outState (execPtnXlatInval p op.agent s) s else s)
      else if o == 0x800010 then outState (execPtnScratchModeWrite p op s) s
      else s

/-- A write to the global blocks. -/
def State.globalBlockWrite (s : State) (priv : Bool) (op : RegOp) (o : Nat) : State :=
  let q := o % 0x40000
  match o / 0x40000 with
  | 0 =>
    if q < 0x1000 then s.fnPageWrite priv 0 op q
    else if q == 0x1000 then (if covers op 4 0 then s.modHif fun h => { h with win := bits op.value 4 0 } else s)
    else if q == 0x1008 then outState (execHifBar2BaseWrite op s) s
    else s
  | 1 => if q == 0x18 then outState (execObPeekSelWrite op s) s else if q == 0x20 then s.obSideWrite op else s
  | 2 =>
    if q == 0 then outState (execDlmAcctSelWrite op s) s
    else if q == 8 && covers op 12 0 then
      (if bit op.value 12 then outState (execAcctClearAll op.agent s) s
        else outState (execAcctClearClient op.agent (bits op.value 11 0) s) s)
    else s
  | 4 =>
    if q == 0x30 then
      (if bit op.value 8 then outState (execThmResetGo op 0 s) s else outState (execThmResetArm op 0 s) s)
    else s
  | 5 => if q == 8 then outState (execClkTimeAdjWrite op s) s else s
  | 6 =>
    if q == 0x08 then outState (execPwrModuleCapWrite op s) s
    else if q == 0x10 then outState (execPwrIdleWrite op s) s
    else if 0x100 ≤ q && q < 0x180 then outState (execPwrPtnWrite ((q - 0x100) / 8) op s) s
    else s
  | 7 => if q == 0 then outState (execCalAltSelWrite op s) s else if q == 8 then outState (execCalAltValueWrite op s) s else s
  | 8 =>
    if q == 0 then (if covers op 4 0 then s.msrEnable (bits op.value 4 0) else s)
    else if q == 8 then outState (execMsrResetWrite op s) s
    else s
  | 9 => if q == 8 && covers op 63 63 && bit op.value 63 then s.modErr fun e => { e with moduleFault := false } else s
  | 11 => if q == 0 && covers op 11 0 then { s with seam := { s.seam with holdNs := bits op.value 11 0 } } else s
  | _ => s

/-- A write of the register at an aligned local address (R20). `priv` says that it came by the Thimble's private path. -/
def State.regWrite (s : State) (priv : Bool) (op : RegOp) (a : Nat) : State :=
  if a < 0x030001000000 then s.globalBlockWrite priv op (a - regBase)
  else if a < 0x030010000000 then s
  else if a < 0x030020000000 then s.partBlockWrite priv ((a - 0x030010000000) / 0x1000000) op ((a - 0x030010000000) % 0x1000000)
  else if a < 0x030060000000 then s.dieBlockWrite ((a - 0x030020000000) / 0x10000000) op ((a - 0x030020000000) % 0x10000000)
  else if a < 0x030080000000 then s
  else if a < 0x0300C0000000 then s.coreBlockWrite ((a - 0x030080000000) / 0x100000) op ((a - 0x030080000000) % 0x100000)
  else s

/-- A 32- or 64-bit write at an aligned local address of register space, as the register sees it (R8). -/
def regOpAt (agent : Agent) (a size : Nat) (v : Dword) : RegOp :=
  if size == 8 then { agent := agent, part := .full, value := v }
  else if a % 8 == 0 then { agent := agent, part := .low, value := v &&& 0xFFFFFFFF#64 }
  else { agent := agent, part := .high, value := v <<< 32 }

/-! ## REGISTER_WRITE -/

/-- The local address that a host function's BAR0 offset reaches (R361). -/
def State.barLocal (s : State) (fn offset : Nat) : Option Nat :=
  if fn == 0 then
    (if offset < 0x1000000 then some (regBase + offset)
      else if 0x8000000 ≤ offset && offset < 0x10000000 then some (regBase + s.hif.win.toNat * 0x8000000 + (offset - 0x8000000))
      else none)
  else if offset < 0x1000000 then some (ptnRegAddr (fn - 1) offset) else none

/-- A BAR0 write of a function: dropped while the function does not answer or the packet is outside its IDE stream; a violation when
it is poisoned or its width or alignment is not of R8; else the register's own effect (R380, R384). -/
def State.hostRegWrite (s : State) (fn : Nat) (w : AddrWrite) : State :=
  if w.tlp.ideFail then s.ideFailed fn (w.tlp.stream.getD 0) w.addr
  else if !s.fnUp fn || s.tlpHeld fn w.tlp then s
  else if w.tlp.poisoned then s.hostViolation fn 8 1 w.addr
  else if !(w.size == 4 || w.size == 8) || w.addr % w.size != 0 then s.hostViolation fn 1 1 w.addr
  else
    match s.barLocal fn w.addr with
    | some a => s.regWrite false (regOpAt w.agent a w.size w.value) (a / 8 * 8)
    | none => s

/-- A BAR0 read of a function: the register's bytes, 0 where the BAR reaches none; or UR (R361, R362, R380, R384). -/
def State.hostRegRead (s : State) (fn : Nat) (w : AddrWrite) : State :=
  if w.tlp.ideFail then s.ideFailed fn (w.tlp.stream.getD 0) w.addr
  else if !s.fnUp fn || s.tlpHeld fn w.tlp then s.complete fn 1 []
  else if w.tlp.poisoned then s.answerUr fn 8 w.addr
  else if !(w.size == 4 || w.size == 8) || w.addr % w.size != 0 then s.answerUr fn 1 w.addr
  else
    match s.barLocal fn w.addr with
    | some a => s.complete fn 0 (s.regRead a w.size)
    | none => s.complete fn 0 (List.replicate w.size 0)

/-- A host function's register access through its BAR0. -/
def State.hostReg (s : State) (fn : Nat) (w : AddrWrite) : State := if w.read then s.hostRegRead fn w else s.hostRegWrite fn w

/-- REGISTER_WRITE: a field without a row of its own takes the write as its access code says (R5); the host's register reads, which
have no row, come with it (R361, R362; log entry 52). -/
def execRegisterWrite (w : AddrWrite) (s : State) : Out :=
  match w.agent with
  | .pf0 => .next (s.hostReg 0 w)
  | .vf n => .next (s.hostReg n w)
  | .firmware =>
    if !w.read && (w.size == 4 || w.size == 8) && w.addr % w.size == 0 && isReg w.addr then
      .next (s.regWrite true (regOpAt .firmware w.addr w.size w.value) (w.addr / 8 * 8))
    else .next s

/-! ## Strands, the patrol scrubber and LPDDR6 channels (R234, R238, R239, R496) -/

/-- A corrected event at an address: its count, and a record within the limit of its unit (R238, R531). -/
def State.correctedAt (s : State) (a : Nat) : State :=
  let rec_ := if isStack a then recStrand (s.strandOf a) else if isLpd a then recLpd (lpdChannel a) else recCore (scratchCore a)
  (s.aonAdd rec_ 1 1).record .corrected .module (s.tierUnit a) 0x05 1 noPart (toBytes 8 a)

/-- STRAND_READ_CRC_FAILURE: re-reads, at most three; when all three fail, the strand is held for a recalibration, after which the
block is read once more; data that stays bad cannot be corrected (R234, R243). -/
def execStrandReadCrcFailure (addr : Nat) (outcome : CrcOutcome) (s : State) : Out :=
  if !isStack addr then .next s
  else
    let n := s.strandOf addr
    let rec_ := recStrand n
    let t : Strand := tget {} s.mem.strands n
    let due := t.retry == some (addr / 64 * 64) && !t.held
    let again (s : State) : State := s.modStrand n fun t => { t with retry := none }
    match outcome with
    | .reread k => .next ((s.aonAdd rec_ 3 (min k 3)).correctedAt addr)
    | .recalibrate => .next ((s.aonAdd rec_ 3 3).modStrand n fun t => { t with held := true, retry := some (addr / 64 * 64) })
    | .afterRecalibration => .next (if due then ((again s).aonAdd rec_ 3 1).correctedAt addr else s)
    | .uncorrectable =>
      .next (if due then (((again s).aonAdd rec_ 3 1).damageBlock addr).ueEvent .contained 2 addr noPart 16 else s)

/-- STRAND_RECALIBRATION: the strand is held, and its hold ends (R234, R496). -/
def execStrandRecalibration (strand : BitVec 12) (cause : RecalCause) (s : State) : Out :=
  .next (s.modStrand strand.toNat fun t => { t with held := cause != .ended })

/-- PATROL_SCRUB_READ: a corrected block is written back unless newer data has come, and its bytes read the same either way; a
block that cannot be corrected is left and named (R238). -/
def execPatrolScrubRead (addr : Nat) (find : ScrubFind) (s : State) : Out :=
  if !(isStack addr || s.lpdHere addr) then .next s
  else
    match find with
    | .clean => .next s
    | .corrected _ => .next (s.correctedAt addr)
    | .uncorrectable => .next ((s.damageBlock addr).ueEvent .contained 5 addr noPart 16)

/-- LPDDR6_POWER_DOWN: a trained channel that has been idle for 1 µs (R239). -/
def execLpddr6PowerDown (channel : BitVec 4) (s : State) : Out :=
  let idle (c : LpdChan) : Bool := c.ready && !c.selfRefresh && decide (c.lastAt.toNat + 1000 ≤ s.now)
  .next (s.modMem fun m => { m with lpd := upd m.lpd channel.toNat fun c => if idle c then { c with powerDown := true } else c })

end Sys2Proof.Machine
end

