-- ==== Sys2Proof/Machine/MSlot.lean ====
section
/-! DEFINITION. The M-slot: what each lane's access reaches and which causes it raises, the M-slot queue, loads, stores, the
store buffer, atomics, fences, prefetches and invalidations (R106 to R113, R253 to R268). -/

namespace Sys2Proof.Machine

/-! ## Checks at issue (R63, R107 to R110, R243, R275) -/

/-- A cause that a lane's access raises: its code, the lane, the fault address, and the local address where data cannot be
corrected. -/
structure MCause where
  code : Nat
  lane : Nat
  addr : Dword
  place : Nat := 0
  deriving DecidableEq, Repr

/-- What the accesses of an M-slot operation come to: the causes raised, the accesses, the translations used. -/
structure MPlan where
  causes : List MCause := []
  accs : List LaneAcc := []
  leaves : List (Nat × Leaf) := []
  deriving DecidableEq, Repr

/-- One lane's access: the lowest of its causes, else where it goes. The lane's number tells its free choice apart. -/
def State.laneReach (s : State) (g : Grp) (m : MSlot) (kind : AccKind) (ea : Dword) (size lane : Nat) :
    List Nat × Option Reach × Option Leaf :=
  if m.msp == 1 then s.ownCauses g.core kind ea.toNat size else s.vaCauses g.core g.part kind ea.toNat size lane

/-- The local address that an access with uncorrectable data names. -/
def reachAddr : Option Reach → Nat
  | some (.mem a _ _) => a
  | _ => 0

/-- One lane's access added to a plan. -/
def State.planLane (s : State) (g : Grp) (m : MSlot) (kind : AccKind) (size : Nat) (data : Nat → List Byte) (p : MPlan)
    (lane : Nat) : MPlan :=
  let ea := effAddr (s.skein g.core g.slot) m lane
  let r := s.laneReach g m kind ea size lane
  let leaves := match r.2.2 with
    | some l => p.leaves ++ [(ea.toNat, l)]
    | none => p.leaves
  match lowest r.1, r.2.1 with
  | some code, w => { p with causes := p.causes ++ [{ code := code, lane := lane, addr := ea, place := reachAddr w }], leaves := leaves }
  | none, some (.mem a key typ) =>
    { p with accs := p.accs ++ [{ lane := lane, addr := a, key := key, typ := typ, data := data lane }], leaves := leaves }
  | none, some (.remote a) =>
    { p with accs := p.accs ++ [{ lane := lane, addr := a, key := 0, typ := 4, data := data lane }], leaves := leaves }
  | none, none => p

/-- The accesses of some lanes. -/
def State.planLanes (s : State) (g : Grp) (m : MSlot) (kind : AccKind) (size : Nat) (data : Nat → List Byte) (lanes : List Nat) : MPlan :=
  lanes.foldl (s.planLane g m kind size data) {}

/-- Whether an opcode is an atomic, and whether it takes two operands. -/
def isAtom (m : MSlot) : Bool := decide (4 ≤ m.mop.toNat ∧ m.mop.toNat ≤ 14)
def isCas (m : MSlot) : Bool := m.mop == 0x0B

/-- The bytes in force at an address for a load of this core: the store buffer's where it holds them (R255). The address is
global; later entries come later in coherence order. -/
def overlay (sb : List SbEntry) (g : Nat) (bs : List Byte) : List Byte :=
  ((List.range bs.length).zip bs).map fun e =>
    let a := g + e.1
    sb.foldl (fun v x => if x.line == a / 128 then ((x.bytes.find? fun y => y.1 == a % 128).map (·.2)).getD v else v) e.2

/-- The bytes that a load of a core finds at a local address. -/
def State.coreBytes (s : State) (c : Nat) (a : LaneAcc) (size : Nat) : List Byte :=
  if isReg a.addr then s.regRead a.addr size
  else overlay (s.core c).sb (s.myId * 2 ^ 47 + a.addr) (s.keyBytes a.key a.addr size)

/-- The accesses of the M-slot operation of a group, for its active lanes (R55, R107 to R110). -/
def State.mPlan (s : State) (g : Grp) (m : MSlot) : MPlan :=
  let k := s.skein g.core g.slot
  let size := accSize m
  let first := g.act.take 1
  match m.mop.toNat with
  | 0x01 => s.planLanes g m .load size (fun _ => []) g.act
  | 0x02 => s.planLanes g m .store size (fun l => dataBytes k m.md l size) g.act
  | 0x03 => s.planLanes g m .load size (fun _ => []) first
  | 0x10 => s.planLanes g m .load 64 (fun _ => []) first
  | 0x19 => if m.msp == 1 then {} else s.planLanes g m .load 1 (fun _ => []) g.act
  | _ =>
    if isAtom m then s.planLanes g m .atomic size (fun l => dataBytes k m.md l (if isCas m then 2 * size else size)) g.act
    else {}

/-- The queue that an SHTL names: engine and queue (R109). -/
def shtlEngine (m : MSlot) : Nat := m.msub.toNat % 2
def shtlQueue (m : MSlot) : Nat := m.msub.toNat / 2

/-- The causes of the M-slot of a group: those of its accesses, none for PREF (R112), and a refused shuttle descriptor's with
its refusal code (R109, R192). -/
def State.mCauses (s : State) (g : Grp) (m : MSlot) : List MCause × Nat :=
  let p := s.mPlan g m
  match m.mop.toNat with
  | 0x19 => ([], 0)
  | 0x10 =>
    match p.accs with
    | a :: _ =>
      match lowest (s.descRefusals g.core g.part (shtlEngine m) (s.coreBytes g.core a 64)) with
      | some code => ([{ code := 0x0D, lane := a.lane, addr := effAddr (s.skein g.core g.slot) m a.lane }], code)
      | none => ([], 0)
    | [] => (p.causes, 0)
  | _ => (p.causes, 0)

/-- Whether a data return of a Stay load is still to come, which holds every later operation of its skein (R260). -/
def Skein.stayWaits (k : Skein) : Bool := k.pend.any fun p => p.fromMem && p.ready && p.stay

/-- Whether the M-slot can issue: the core's queue has space (R46, R113); an SHTL needs room in its shuttle queue (R191), and
its skein's queued operations, Stay loads and fence to have gone before, since its descriptor is read and checked at issue. -/
def Core.mRoom (k : Core) (slot : Nat) (m : MSlot) : Bool :=
  m.mop == 0
    || (decide (k.mq.length < 64)
      && (m.mop != 0x10
        || (decide (((k.engine (shtlEngine m)).queue (shtlQueue m)).entries.length < 16)
          && !(k.mq.any fun e => e.slot.toNat == slot) && (k.skein slot).fence.isNone && !(k.skein slot).stayWaits)))

/-! ## Results of loads and atomics -/

/-- A result to come from memory, nothing where the register discards it. -/
def memPend (r : RegName) (lanes : List Nat) : List Pending :=
  if discards r then [] else [{ dest := r, fromMem := true, vals := lanes.map fun l => (l, 0), ready := false }]

/-- The oldest result to come to a register gets its data. -/
def fillPend (r : RegName) (vals : List (Nat × Dword)) (stay : Bool) : List Pending → List Pending
  | [] => []
  | p :: l =>
    if p.dest == r && p.fromMem && !p.ready then { p with vals := vals, ready := true, stay := stay } :: l
    else p :: fillPend r vals stay l

/-- The values of register n of a load's destination, from each lane's bytes (R108, R109). -/
def loadVal (size : Nat) (sext : Bool) (n : Nat) (bs : List Byte) : Dword :=
  if size ≤ 4 then
    let v : Nat := ofBytes bs
    if sext && size ≤ 2 then (BitVec.ofInt 32 (signed (8 * size) v)).zeroExtend 64 else BitVec.ofNat 64 v
  else BitVec.ofNat 64 (leAt bs (4 * n) 4)

/-- The registers that a load of a size fills, with the value of each for the bytes a lane read. -/
def loadDests (dest : RegName) (size : Nat) (sext : Bool) : List (RegName × (List Byte → Dword)) :=
  match dest with
  | .x d => (List.range (if size ≤ 4 then 1 else size / 4)).map fun n => (.x (regAfter d n), loadVal size sext n)
  | r => [(r, fun bs => BitVec.ofNat 64 (ofBytes bs))]

/-- Those registers. -/
def loadRegs (dest : RegName) (size : Nat) : List RegName := (loadDests dest size false).map fun r => r.1

/-- Data of a load or atomic given to the registers that wait for it. -/
def State.giveData (s : State) (c slot : Nat) (dest : RegName) (size : Nat) (sext stay : Bool) (data : List (Nat × List Byte)) : State :=
  s.modSkein c slot fun k => { k with
    pend := (loadDests dest size sext).foldl (fun l r => fillPend r.1 (data.map fun e => (e.1, r.2 e.2)) stay l) k.pend }

/-! ## Loads (R108, R220, R228, R255) -/

/-- What a read of this module's memory does to the caches and to an LPDDR6 channel; `fill` as for a load (R220, R227, R239). -/
def State.readEffects (s : State) (c part hint : Nat) (fill : Bool) (a : LaneAcc) (n : Nat) : State :=
  if a.typ == 0 then (s.lpdWake a.addr).normalLoad c part a.addr hint fill else s.agentRead false part a.addr n

/-- One part of a lane of a load: its bytes, and what the read does. -/
def State.readPart (s : State) (c part hint : Nat) (fill : Bool) (a : LaneAcc) (o n : Nat) : State × List Byte :=
  let a : LaneAcc := { a with addr := a.addr + o }
  ((s.readEffects c part hint fill a n).when (isReg a.addr) State.bump, s.coreBytes c a n)

/-- Bytes of one single-copy atomic access of a lane (R273): 64-bit Stream loads are two 32-bit reads; 128 bits on LPDDR6 and Stay
are two 64-bit accesses, and on Stream four 32-bit reads or two 64-bit stores. -/
def partSize (load : Bool) (a : LaneAcc) (size : Nat) : Nat :=
  if a.typ == 1 && load && 8 ≤ size then 4
  else if 16 ≤ size && (a.typ == 1 || a.typ == 2 || (a.typ == 0 && !isStack a.addr)) then 8 else size

/-- The offsets of those accesses, ascending. -/
def partsOf (load : Bool) (a : LaneAcc) (size : Nat) : List Nat :=
  let p := partSize load a size
  (List.range (size / p)).map (· * p)

/-- The bytes of a lane's access, as far as they have been read. -/
def LoadEnt.laneBytes (e : LoadEnt) (lane : Nat) : List Byte :=
  (List.range e.size).map fun i =>
    match e.got.find? fun g => g.1 == lane && decide (g.2.1 ≤ i ∧ i < g.2.1 + g.2.2.length) with
    | some g => nth 0 g.2.2 (i - g.2.1)
    | none => 0

/-- Whether the part at an offset must have been read for register k of the destination to have its value (all of it for a uniform
register); reads of a Stream access go in ascending order (R273). -/
def LoadEnt.needs (e : LoadEnt) (a : LaneAcc) (k o : Nat) : Bool :=
  match e.dest with
  | .x _ => decide (o < 4 * k + 4) && (a.typ == 1 || decide (4 * k < o + partSize true a e.size))
  | _ => true

/-- The parts still to be read for register k: lane and offset. -/
def LoadEnt.due (e : LoadEnt) (k : Nat) : List (LaneAcc × Nat) :=
  e.accs.flatMap fun a => ((partsOf true a e.size).filter fun o =>
    e.needs a k o && !(e.got.any fun g => g.1 == a.lane && g.2.1 == o)).map fun o => (a, o)

/-- Registers of a load's destination, in order: number and register. -/
def LoadEnt.regs (e : LoadEnt) : List (Nat × RegName) := let l := loadRegs e.dest e.size; (List.range l.length).zip l

/-- The register that waits for a load's data, by its number, or nothing where it discards. -/
def LoadEnt.regNo (e : LoadEnt) (r : RegName) : Option Nat := (e.regs.find? fun x => x.2 == r && !discards r).map (·.1)

/-- Parts of a load read now, one by one. -/
def State.readDue (s : State) (c : Nat) (e : LoadEnt) : List (LaneAcc × Nat) → State × LoadEnt
  | [] => (s, e)
  | (a, o) :: l =>
    let (s, bs) := s.readPart c e.part e.hint (!e.noFill) a o (partSize true a e.size)
    s.readDue c { e with got := e.got ++ [(a.lane, o, bs)] } l

/-- The registers of a load whose data is now complete and was not before get it. -/
def State.giveRegs (s : State) (c : Nat) (before after : LoadEnt) : State :=
  let new := after.regs.filter fun x => (after.due x.1).isEmpty && !(before.due x.1).isEmpty && !discards x.2
  s.modSkein c after.slot.toNat fun k => { k with
    pend := new.foldl (fun l x =>
      match (loadDests after.dest after.size after.signed)[x.1]? with
      | some d => fillPend d.1 (after.accs.map fun a => (a.lane, d.2 (after.laneBytes a.lane))) (after.accs.any fun a => a.typ == 2) l
      | none => l) k.pend }

/-- Whether a load has all its data. -/
def LoadEnt.full (e : LoadEnt) : Bool := e.regs.all fun x => (e.due x.1).isEmpty || discards x.2

/-- The load at a place of those started reads what register k needs, all of its data for none; a complete one leaves (R257,
R273). -/
def State.performLoad (s : State) (c i : Nat) (k : Option Nat) : State :=
  match (s.core c).lq[i]? with
  | none => s
  | some e =>
    let due := match k with
      | some k => e.due k
      | none => (e.regs.flatMap fun x => e.due x.1).eraseDups
    let (s, e') := s.readDue c e due
    let s := s.giveRegs c e e'
    s.modCore c fun q => { q with lq := if e'.full then dropAt q.lq i else upd q.lq i fun _ => e' }

/-- Whether a load touches one of some ranges (address, bytes). -/
def LoadEnt.touches (e : LoadEnt) (rs : List (Nat × Nat)) : Bool :=
  e.accs.any fun a => rs.any fun r => decide (a.addr < r.1 + r.2 ∧ r.1 < a.addr + e.size)

/-- A skein's loads, among the first n started, that share bytes with some ranges, or with such a load after them; latest first. -/
def sharing (lq : List LoadEnt) (slot : SlotId) : Nat → List (Nat × Nat) → List Nat
  | 0, _ => []
  | n + 1, rs =>
    match lq[n]? with
    | none => sharing lq slot n rs
    | some e =>
      if e.slot == slot && e.touches rs then n :: sharing lq slot n (rs ++ e.accs.map fun a => (a.addr, e.size))
      else sharing lq slot n rs

/-- Before an access of a skein to some bytes is performed, its earlier loads of them are (R252, R256). -/
def State.readFirst (s : State) (c : Nat) (slot : SlotId) (n : Nat) (rs : List (Nat × Nat)) : State :=
  s.each (sharing (s.core c).lq slot n rs) fun s i => s.performLoad c i none

/-- The load started last is performed. -/
def State.performLast (s : State) (c : Nat) : State := s.performLoad c ((s.core c).lq.length - 1) none

/-- A load starts: it joins those whose data is outstanding. One of the core's own scratch or of Stay memory, or without a register
that takes its data, is performed at once (R257, R260, R261). -/
def State.startLoad (s : State) (c : Nat) (e : LoadEnt) : State :=
  let n := (s.core c).lq.length
  let s := s.modCore c fun k => { k with lq := k.lq ++ [e] }
  if (e.accs.any fun a => a.typ == 2 || a.typ == 3) || e.regs.all (fun x => discards x.2) then
    (s.readFirst c e.slot n (e.accs.map fun a => (a.addr, e.size))).performLast c
  else s

/-! ## The store buffer (R253 to R255) -/

/-- The global line of a store. -/
def State.storeLine (s : State) (a : LaneAcc) : Nat := (if a.typ == 4 then a.addr else s.myId * 2 ^ 47 + a.addr) / 128

/-- Whether a store to a line joins an entry: an open one (R254). -/
def SbEntry.takes (e : SbEntry) (line : Nat) : Bool := e.isOpen && e.line == line

/-- The LPDDR6 key of a byte of an entry. -/
def SbEntry.keyAt (e : SbEntry) (o : Nat) : Nat := tget e.key e.keys o

/-- A store's bytes laid over an entry's. -/
def layBytes (m : SMap Byte) (o : Nat) (bs : List Byte) : SMap Byte :=
  ((List.range bs.length).zip bs).foldl (fun m e => tinsert (terase m (o + e.1)) (o + e.1) e.2) m

/-- The lowest entry number that neither the buffer nor an unacknowledged write uses, else one the buffer does not use. -/
def Core.sbNo (k : Core) : Nat :=
  let used (n : Nat) : Bool := k.sb.any fun e => e.no == n
  let sent (n : Nat) : Bool := k.unacked.any fun e => e.no == n
  match (List.range 32).find? fun n => !used n && !sent n with
  | some n => n
  | none => ((List.range 32).find? fun n => !used n).getD 0

/-- A store enters the buffer at a cycle count: it joins the open entry of its line, or allocates one (R254). -/
def Core.sbStore (k : Core) (slot line : Nat) (a : LaneAcc) (hint : Nat) (cycle : Dword) : Core :=
  let o := a.addr % 128
  match findIdx (fun e => e.takes line) k.sb with
  | some i => { k with sb := upd k.sb i fun e =>
      { e with
        bytes := layBytes e.bytes o a.data, slots := if e.slots.contains slot then e.slots else slot :: e.slots
        keys := (List.range a.data.length).foldl (fun m n => tset e.key m (o + n) a.key) e.keys } }
  | none => { k with sb := k.sb ++ [{ no := k.sbNo, line := line, bytes := layBytes [] o a.data, isOpen := true, slots := [slot]
                                      key := a.key, since := cycle, hint := hint, normal := a.typ == 0 }] }

/-- The entries that hold a skein's stores close (R254). -/
def Core.closeSb (k : Core) (slot : Nat) : Core :=
  { k with sb := k.sb.map fun e => if e.slots.contains slot then { e with isOpen := false } else e }

/-- Whether an entry holds a store of a skein to this module. -/
def State.localOf (s : State) (slot : Nat) (e : SbEntry) : Bool := e.slots.contains slot && lineModule e.line == s.myId

/-- The runs of an entry's bytes, each under one key: key, offset, bytes. -/
def SbEntry.runs (e : SbEntry) : List (Nat × Nat × List Byte) :=
  ((e.bytes.map fun b => e.keyAt b.1).eraseDups).flatMap fun k =>
    (runsOf (e.bytes.filter fun b => e.keyAt b.1 == k)).map fun r => (k, r.1, r.2)

/-- A local entry written to its home as one write of its bytes (R220, R223, R254). -/
def State.writeLocal (s : State) (c : Nat) (e : SbEntry) : State :=
  let a := locOf (e.line * 128)
  s.each e.runs fun s r =>
    if e.normal then s.normalWrite (s.partByte c) e.hint r.1 (a + r.2.1) r.2.2 else s.homeWrite (s.partByte c) r.1 (a + r.2.1) r.2.2

/-- The WRITE packet of one granule of an entry: the bytes it covers, with a mask unless they fill it (R254, R427, R428). -/
def State.storePacket (s : State) (c : Nat) (e : SbEntry) (half : Nat) (bs : SMap Byte) : Packet :=
  let mask := (bs.map fun b => 2 ^ (b.1 % 64)).sum
  let data := (List.range 64).map fun i => ((bs.find? fun b => b.1 % 64 == i).map (·.2)).getD 0
  { s.newPacket 1 (lineModule e.line) (s.partByte c) with
    msk := BitVec.ofNat 1 (b2n (bs.length != 64)), gaddr := BitVec.ofNat 41 (locOf (e.line * 128) / 64 + half)
    etag := BitVec.ofNat 19 (c * 512 + e.no)
    body := (if bs.length == 64 then [] else toBytes 16 mask) ++ data }

/-- The bytes of one half of a line. -/
def halfOf (e : SbEntry) (half : Nat) : SMap Byte := e.bytes.filter fun b => b.1 / 64 == half

/-- A remote entry sent as the granules it covers; each waits for its acknowledgement (R254, R264, R428). -/
def State.writeRemote (s : State) (c : Nat) (e : SbEntry) : State :=
  s.each [0, 1] fun s half =>
    let bs := halfOf e half
    match bs with
    | [] => s
    | b :: _ =>
      let u : Unacked := { no := e.no, slots := e.slots, dst := lineModule e.line, addr := locOf (e.line * 128) + b.1, at_ := s.time.now }
      (s.modCore c fun k => { k with unacked := k.unacked ++ [u] }).send (s.storePacket c e half bs) none

/-- The entry at a place written to its home, whatever its state. -/
def State.writeAt (s : State) (c i : Nat) : State :=
  match (s.core c).sb[i]? with
  | none => s
  | some e =>
    let s := s.modCore c fun k => { k with sb := dropAt k.sb i }
    if lineModule e.line == s.myId then s.writeLocal c e else s.writeRemote c e

/-- The entries written in order up to the last that holds a local store of a skein. -/
def State.flushSkein (s : State) (c slot : Nat) : State :=
  let sb := (s.core c).sb
  match (List.range sb.length).reverse.find? fun i => (sb[i]?.map (s.localOf slot)).getD false with
  | some i => iter (i + 1) (fun s => s.writeAt c 0) s
  | none => s

/-- The entries that may be performed next: the closed ones that no open one stands before, which the buffer has sent in the order of
their allocation, and of each line the oldest (R252, R254, R257; DEDUCED, log entry 39). -/
def landable (sb : List SbEntry) : List Nat :=
  let sent := sb.takeWhile fun e => !e.isOpen
  (List.range sent.length).filter fun i =>
    match sent[i]? with
    | some e => !((sent.take i).any fun f => f.line == e.line)
    | none => false

/-! ## Stores (R109, R253 to R261) -/

/-- The core whose CORE_LAUNCH an address names (R20, R68). -/
def launchCore (a : Nat) : Option Nat :=
  if regBase + 0x80000000 ≤ a && a < regBase + 0xC0000000 && a % 0x100000 == 0 then some ((a - regBase - 0x80000000) / 0x100000) else none

/-- Whether a lane of a store may be performed now: room in the store buffer (R253); for Stay, every earlier store of its
skein to this module visible (R260) and, at a CORE_LAUNCH, an entry in the queue (R37); to the core's own scratch, no store of the
skein to the line in the buffer, through its window (R252, R261). -/
def State.laneReady (s : State) (c slot : Nat) (a : LaneAcc) : Bool :=
  let k := s.core c
  match a.typ with
  | 3 => !(k.sb.any fun e => e.slots.contains slot && e.line == s.storeLine a)
  | 2 => !(k.sb.any (s.localOf slot)) && (match launchCore a.addr with
      | some t => a.data.length != 8 || decide ((s.core t).launchQ.length < 16)
      | none => true)
  | _ =>
    k.sb.any (fun e => e.takes (s.storeLine a)) || decide (k.sb.length < 32)
      || (a.typ == 4 && s.wlk.dead.contains (modOf a.addr))

/-- One lane of a store performed, or put into the store buffer, where it updates the line in L1D (R222). A store to a dead module
is discarded (R281). -/
def State.storeLane (s : State) (c slot : Nat) (hint : Nat) (a : LaneAcc) : State :=
  let s := if a.typ == 4 then s else s.readFirst c (BitVec.ofNat 6 slot) (s.core c).lq.length [(a.addr, a.data.length)]
  match a.typ with
  | 3 => s.poke a.addr a.data
  | 2 =>
    if isReg a.addr then
      match launchCore a.addr, a.data.length with
      | some t, 8 => s.queueLaunch t { writer := .skein (BitVec.ofNat 10 c) (BitVec.ofNat 6 slot), desc := BitVec.ofNat 64 (ofBytes a.data) }
      | _, n => s.regWrite false (regOpAt .firmware a.addr n (BitVec.ofNat 64 (ofBytes a.data))) (a.addr / 8 * 8)
    else s.homeWrite (s.partByte c) a.key a.addr a.data
  | _ =>
    if a.typ == 4 && s.wlk.dead.contains (modOf a.addr) then s.lostStore c slot (modOf a.addr) (locOf a.addr)
    else
      let line := s.storeLine a
      let cycle := s.cycles c
      let s := if a.typ == 0 then s.l1dTouch c (a.addr / 128) else s
      s.modCore c fun k => k.sbStore slot line a hint cycle

/-- The accesses that a store is performed as: those of R273, lane by lane. Of Stay accesses each starts when the one before it
has completed (R260). -/
def storeParts (size : Nat) (l : List LaneAcc) : List LaneAcc :=
  let parts := l.flatMap fun a => (partsOf false a size).map fun o =>
    { a with addr := a.addr + o, data := slice a.data o (partSize false a size), later := o != 0 || a.typ == 2 }
  match parts with
  | [] => []
  | a :: r => { a with later := false } :: r

/-- The accesses of a store in order, as far as they can be performed; those that wait are answered. Before one that follows another
as an access of its own, the store may pause: a free choice (R260, R273; log entry 3). -/
def State.storeLanes (s : State) (c slot hint : Nat) : List LaneAcc → State × List LaneAcc
  | [] => (s, [])
  | a :: l =>
    if a.later && Config.freeChoice s.time.free 2 % 2 == 1 then (s.bump, a :: l)
    else if s.laneReady c slot a then ((s.when a.later State.bump).storeLane c slot hint a).storeLanes c slot hint l
    else (s, a :: l)

/-! ## Atomics (R109, R110, R274) -/

/-- The value an atomic stores, none where a CAS does not match: opcode, 64-bit, MSUB, old value, operand, second operand. -/
def atomNew (mop : Nat) (wide : Bool) (msub : BitVec 3) (old v new : Nat) : Option Nat :=
  let w := if wide then 64 else 32
  let less (a b : Nat) : Bool := if bit msub 0 then decide (signed w a < signed w b) else decide (a < b)
  let f (op : FFmt → Nat → Nat → Nat) : Nat :=
    (fLanes (if bit msub 1 then 4 else 2) (fun t x y _ => op t x y) (BitVec.ofNat 32 old) (BitVec.ofNat 32 v) 0).toNat
  match mop with
  | 0x04 => some ((old + v) % 2 ^ w)
  | 0x05 => some (if less v old then v else old)
  | 0x06 => some (if less old v then v else old)
  | 0x07 => some (old &&& v)
  | 0x08 => some (old ||| v)
  | 0x09 => some (old ^^^ v)
  | 0x0A => some v
  | 0x0B => if old == v then some new else none
  | 0x0C => some (f fAdd)
  | 0x0D => some (f fMin)
  | 0x0E => some (f fMax)
  | _ => none

/-- One lane's atomic at the line's home, or at the bank of its own scratch; it answers the old bytes. -/
def State.atomLane (s : State) (part mop : Nat) (wide : Bool) (msub : BitVec 3) (a : LaneAcc) : State × List Byte :=
  let size := if wide then 8 else 4
  let old := s.keyBytes a.key a.addr size
  match atomNew mop wide msub (ofBytes old) (leAt a.data 0 size) (leAt a.data size size) with
  | some v => (if a.typ == 3 then s.poke a.addr (toBytes size v) else s.normalWrite part 0 a.key a.addr (toBytes size v), old)
  | none => (if a.typ == 3 then s else (s.lpdWake a.addr).l2Access (a.addr / 128) part 0, old)

/-- The lanes of an atomic, in an order that the manual leaves open: free choices (R258, R274; log entry 3). -/
def State.atomLanes (s : State) (part mop : Nat) (wide : Bool) (msub : BitVec 3) : Nat → List LaneAcc → State × List (Nat × List Byte)
  | 0, _ => (s, [])
  | f + 1, l =>
    let i := Config.freeChoice s.time.free l.length % l.length
    match l[i]? with
    | none => (s, [])
    | some a =>
      let (t, old) := s.atomLane part mop wide msub a
      let (t, r) := t.bump.atomLanes part mop wide msub f (dropAt l i)
      (t, (a.lane, old) :: r)

/-! ## The M-slot queue (R113, R255, R260, R264) -/

/-- Whether an operation may start, its skein's earlier ones having started: a load whose lines can be filled (R224), a store that
can be performed or buffered, an atomic to lines that the buffer does not hold (R255). -/
def State.mayStart (s : State) (c : Nat) (e : MEntry) : Bool :=
  let k := s.core c
  let x := k.skein e.slot.toNat
  x.fence.isNone && !x.stayWaits
    && (match e.act with
      | .load _ _ _ accs hint => k.fillsFit hint accs
      | .store _ (a :: _) _ => s.laneReady c e.slot.toNat a
      | .atom _ _ _ _ accs => !(accs.any fun a => k.sb.any fun b => b.line == s.storeLine a)
      | _ => true)

/-- A SWAIT starts: its counter is compared; threads whose wait is met go on, the others wait for an addition (R197). -/
def State.startSwait (s : State) (c slot : Nat) (lanes : Mask) (counter : Nat) (target : Dword) (diff : Bool) : State :=
  let met := swaitMet diff ((s.core c).cntVal counter) target
  let w : SWait := { lanes := lanes, counter := counter, target := target, diff := diff, satisfied := false }
  s.modSkein c slot fun k => { k with
    waits := (k.waits.filter fun x => !(x == { w with started := false })) ++ if met then [] else [w] }

/-- What an operation does as it starts; of a store, the part that still waits. -/
def State.startM (s : State) (c : Nat) (e : MEntry) : State × Option MEntry :=
  let slot := e.slot.toNat
  let part := s.partByte c
  match e.act with
  | .load dest size sg accs hint =>
    (s.startLoad c { slot := e.slot, part := part, dest := dest, size := size, signed := sg, hint := hint, accs := accs }, none)
  | .store size accs hint =>
    match s.storeLanes c slot hint accs with
    | (s, []) => (s, none)
    | (s, l) => (s, some { e with act := .store size l hint, started := true })
  | .atom mop wide msub md accs =>
    let n := if wide then 8 else 4
    let s := s.readFirst c e.slot (s.core c).lq.length (accs.map fun a => (a.addr, n))
    let (s, old) := s.atomLanes part mop wide msub accs.length accs
    (if bit msub 2 || mop == 0x0B then s.giveData c slot (.x md) n false false old else s, none)
  | .fence scope => (s.modSkein c slot fun k => { k with fence := some scope }, none)
  | .scadd n v => (s.cntAdd c n v.toNat, none)
  | .swait lanes counter target diff => (s.startSwait c slot lanes counter target diff, none)
  | .pref target addrs hint => (s.each addrs fun s a => s.prefetch c part a target hint, none)
  | .inval target =>
    (if target == 0 then s.modCore c fun k => { k with
        l1i := { k.l1i with sets := k.l1i.sets.map fun x => (x.1, { x.2 with ways := [] }) }
        skeins := k.skeins.map fun x => (x.1, { x.2 with decoded := [] }) }
      else if target == 1 then s.modCore c Core.invalL1d
      else s, none)

/-- The operations of a core's queue that may start do so, from place i on: each skein's in order (R113). -/
def State.drainFrom (s : State) (c : Nat) : Nat → Nat → List SlotId → State
  | 0, _, _ => s
  | f + 1, i, held =>
    match (s.core c).mq[i]? with
    | none => s
    | some e =>
      if held.contains e.slot || !s.mayStart c e then s.drainFrom c f (i + 1) (e.slot :: held)
      else
        let s := s.modCore c fun k => { k with mq := dropAt k.mq i }
        match s.startM c e with
        | (s, none) => s.drainFrom c f i held
        | (s, some r) =>
          let s := s.modCore c fun k => { k with mq := k.mq.take i ++ [r] ++ k.mq.drop i }
          s.drainFrom c f (i + 1) (e.slot :: held)

def State.drainMq (s : State) (c : Nat) : State := s.drainFrom c ((s.core c).mq.length) 0 []

/-! ## The M-slot takes effect at issue -/

/-- An operation put into the core's queue. -/
def State.queueM (s : State) (g : Grp) (a : MAct) : State :=
  s.modCore g.core fun k => { k with mq := k.mq ++ [{ slot := BitVec.ofNat 6 g.slot, act := a }] }

/-- Results to come. -/
def State.awaitM (s : State) (g : Grp) (rs : List RegName) (lanes : List Nat) : State :=
  s.modSkein g.core g.slot fun k => { k with pend := k.pend ++ rs.flatMap fun r => memPend r lanes }

/-- SHTL: every earlier store of the skein to this module is written home, then the descriptor is read and queued (R191,
R266). -/
def State.shtlIssue (s : State) (g : Grp) (m : MSlot) (p : MPlan) : State :=
  match p.accs with
  | [] => s
  | a :: _ =>
    let s := (s.modCore g.core fun k => k.closeSb g.slot).flushSkein g.core g.slot
    let bs := s.coreBytes g.core a 64
    let s := s.readEffects g.core g.part 0 true a 64
    (s.shtlAccept g.core g.part (shtlEngine m) (shtlQueue m) bs).1

/-- SWAIT: the active threads wait, and it enters the queue; it compares when it starts (R109, R113, R197). -/
def State.swaitIssue (s : State) (g : Grp) (m : MSlot) : State :=
  let n := m.moff.toNat % 256
  let target := (s.skein g.core g.slot).ur m.mu.toNat
  let diff := bit m.msub 0
  (s.modSkein g.core g.slot fun k => { k with
    waits := k.waits ++ [{ lanes := maskOf g.act, counter := n, target := target, diff := diff, satisfied := false, started := false }] }).queueM g
    (.swait (maskOf g.act) n target diff)

/-- The lines that a PREF asks for: those of Normal memory of this module that can be read; the rest is dropped (R112, R229). -/
def prefLines (p : MPlan) : List Nat := (p.accs.filter fun a => a.typ == 0).map (·.addr)

/-- Translations used stay cached, and the free choices made are used up. -/
def State.keepLeaves (s : State) (c : Nat) (l : List (Nat × Leaf)) : State :=
  if l.isEmpty then s
  else
    let s := s.each l fun s e => s.keepLeaf c e.1 e.2
    { s with time := { s.time with free := s.time.free + 32 } }

/-- The M-slot of a group whose checks have passed: what happens at issue, and what the queue does next (R109, R113, R254). -/
def State.mIssue (s : State) (g : Grp) (m : MSlot) : State :=
  if m.mop == 0 || g.act.isEmpty then s
  else
    let c := g.core
    let k := s.skein c g.slot
    let p := s.mPlan g m
    let s := s.keepLeaves c p.leaves
    let size := accSize m
    let hint := m.mhint.toNat
    let stay := p.accs.any fun a => a.typ == 2
    let s := match m.mop.toNat with
      | 0x01 => (s.awaitM g (loadRegs (.x m.md) size) g.act).queueM g (.load (.x m.md) size (bit m.msub 0) p.accs hint)
      | 0x02 => (s.when stay fun s => s.modCore c fun k => k.closeSb g.slot).queueM g (.store size (storeParts size p.accs) hint)
      | 0x03 =>
        let r : RegName := .u (BitVec.ofNat 6 m.md.toNat)
        (s.awaitM g [r] [0]).queueM g (.load r size false (p.accs.map fun (a : LaneAcc) => { a with lane := 0 }) hint)
      | 0x10 => s.shtlIssue g m p
      | 0x11 => s.swaitIssue g m
      | 0x12 => s.queueM g (.scadd (m.moff.toNat % 256) (k.ur m.mu.toNat))
      | 0x18 =>
        let scope : Scope := if m.msub == 0 then .core else if m.msub == 1 then .module else .system
        (s.when (m.msub != 0) fun s => s.modCore c fun k => k.closeSb g.slot).queueM g (.fence scope)
      | 0x19 => s.queueM g (.pref m.msub.toNat (prefLines p) hint)
      | 0x1A =>
        (s.when (m.msub == 2) fun s => s.modSkein c g.slot fun k => { k with invalHold := k.invalHold ||| maskOf g.lanes }).queueM g
          (.inval m.msub.toNat)
      | _ =>
        let wide := m.msz == 3
        let s := if bit m.msub 2 || isCas m then
            s.awaitM g (loadRegs (.x m.md) (if wide then 8 else 4)) g.act
          else s
        s.queueM g (.atom m.mop.toNat wide m.msub m.md p.accs)
    s.drainMq c

/-! ## Events of the store buffer and the queue -/

/-- STORE_BUFFER_ENTRY_TIMEOUT: the entry at a place of the buffer closes, 256 core cycles after it was allocated (R254). -/
def execStoreBufferEntryTimeout (core : CoreId) (index : Nat) (s : State) : Out :=
  let now := s.cycles core.toNat
  .next (s.modCore core.toNat fun k => { k with sb := upd k.sb index fun e =>
    if 256 ≤ (now - e.since).toNat then { e with isOpen := false } else e })

/-- STORE_BUFFER_WRITEBACK: of the entries that may be performed, a free one is written to its home or sent to another module; what
waited for it goes on (R254, R257; log entry 39). -/
def execStoreBufferWriteback (core : CoreId) (s : State) : Out :=
  let c := core.toNat
  let l := landable (s.core c).sb
  match l[Config.freeChoice s.time.free l.length % l.length]? with
  | some i => .next (((s.writeAt c i).when (1 < l.length) State.bump).drainMq c).settle
  | none => .next s

/-- Whether the conditions of a fence's scope hold for a skein (R264). -/
def State.fenceMet (s : State) (c slot : Nat) (scope : Scope) : Bool :=
  let k := s.core c
  !((k.skein slot).pend.any fun p => p.fromMem && p.ready) && !(k.lq.any fun e => e.slot.toNat == slot)
    && (match scope with
      | .core => true
      | .module => !(k.sb.any (s.localOf slot))
      | .system => !(k.sb.any fun e => e.slots.contains slot) && !(k.unacked.any fun e => e.slots.contains slot))

/-- FENCE_COMPLETE: the fence's scope is met, and later M-slot operations may start (R264). -/
def execFenceComplete (core : CoreId) (slot : SlotId) (s : State) : Out :=
  let c := core.toNat
  match (s.skein c slot.toNat).fence with
  | some scope =>
    if s.fenceMet c slot.toNat scope then
      .next ((s.modSkein c slot.toNat fun k => { k with fence := none }).drainMq c).settle
    else .next s
  | none => .next s

/-- INVAL_L2_COMPLETE: once the INVAL has left the queue, the partition's lines are written back and invalid, and the issuing
group goes on (R113, R230). -/
def execInvalL2Complete (core : CoreId) (slot : SlotId) (s : State) : Out :=
  let c := core.toNat
  let k := s.core c
  let queued := k.mq.any fun e => e.slot == slot && e.act == .inval 2
  if (k.skein slot.toNat).invalHold != 0 && !queued then
    .next ((s.invalL2 (s.partByte c)).modSkein c slot.toNat fun x => { x with invalHold := 0 })
  else .next s

/-- The oldest result to a register written, if p holds of it (R120). -/
def Skein.writeOldest (k : Skein) (r : RegName) (p : Pending → Bool) : Skein :=
  match findIdx (fun e => e.dest == r) k.pend with
  | none => k
  | some i =>
    match k.pend[i]? with
    | none => k
    | some e => if p e then { (k.putAll e) with pend := dropAt k.pend i } else k

/-- RESULT_WRITEBACK: the oldest result to a register, of a T-slot or C-slot operation, is written (R120, R121). -/
def execResultWriteback (core : CoreId) (slot : SlotId) (reg : RegName) (s : State) : Out :=
  .next (s.modSkein core.toNat slot.toNat fun k => k.writeOldest reg fun e => !e.fromMem)

/-- The data that the oldest result to a register waits for is read, where its load has started: the skein's earlier loads of the same
bytes first (R252, R257). -/
def State.readFor (s : State) (c : Nat) (slot : SlotId) (r : RegName) : State :=
  match (s.skein c slot.toNat).pend.find? fun p => p.dest == r with
  | some p =>
    if !p.fromMem || p.ready then s
    else
      match findIdx (fun e : LoadEnt => e.slot == slot && (match e.regNo r with
        | some k => !(e.due k).isEmpty
        | none => false)) (s.core c).lq with
      | none => s
      | some i =>
        match (s.core c).lq[i]? with
        | none => s
        | some e =>
          let first := sharing (s.core c).lq slot i (e.accs.map fun a => (a.addr, e.size))
          let s := s.each first fun s j => s.performLoad c j none
          s.performLoad c (i - first.length) (e.regNo r)
  | none => s

/-- LOAD_DATA_RETURN: the data of the oldest load or atomic to a register returns and is written; operations that a Stay load, or a
full set of fills, held go on (R120, R121, R224, R257, R260). -/
def execLoadDataReturn (core : CoreId) (slot : SlotId) (reg : RegName) (s : State) : Out :=
  let c := core.toNat
  .next ((((s.readFor c slot reg).modSkein c slot.toNat fun k => k.writeOldest reg fun e => e.fromMem && e.ready).drainMq c).settle)

/-- CORE_LAUNCH: a 64-bit store of a descriptor address (R37, R69). One of a skein is a Stay store: it comes after its queued
operations, and every store of it to this module is visible first (R260, R268). -/
def execCoreLaunch (core : CoreId) (by_ : LaunchWriter) (desc : Dword) (s : State) : Out :=
  let r : LaunchReq := { writer := by_, desc := desc }
  match by_ with
  | .skein wc slot =>
    if (s.core wc.toNat).mq.any fun e => e.slot == slot then .next s
    else .next (((s.modCore wc.toNat fun k => k.closeSb slot.toNat).flushSkein wc.toNat slot.toNat).queueLaunch core.toNat r)
  | _ => .next (s.queueLaunch core.toNat r)

end Sys2Proof.Machine
end

