-- ==== Sys2Proof/Machine/Issue.lean ====
section
/-! DEFINITION. Needle and the issue of an instruction word: which group issues, the checks at decode, the causes that the slots
raise, and the effect of the four slots (R45 to R55, R81 to R92); instruction fetch (R46, R88). -/

namespace Sys2Proof.Machine

/-! ## Groups (R46, R47) -/

/-- The lanes of a list whose bit of a mask is 0. -/
def offMask (l : List Nat) (m : Mask) : List Nat := l.filter fun n => !bit m n

/-- Lanes that may be runnable, their instruction apart: with a thread that has not exited, not at a knot, not in a counter wait
that still holds them, not stalled, not held by an INVAL (R46). -/
def Skein.freeLanes (k : Skein) : List Nat :=
  let waits := k.waits.foldl (fun m w => m ||| w.lanes) (0 : Mask)
  let stalls := k.stall.foldl (fun m w => m ||| w.1) (0 : Mask)
  (offMask (lanesOf (k.lanes &&& ~~~k.exited)) (waits ||| stalls ||| k.invalHold)).filter fun l =>
    !(k.knotWait.any fun w => w.1 == l) && !(k.knotHeld.any fun w => w.1 == l)

/-- The lanes of those at a program counter. -/
def Skein.lanesAt (k : Skein) (pc : Dword) : List Nat := k.freeLanes.filter fun l => tget 0 k.pc l == pc

/-- The instruction decoded for a program counter. -/
def Skein.wordAt (k : Skein) (pc : Dword) : Option IWord := (k.decoded.find? fun d => d.1 == pc).map (·.2)

/-- Whether the H-slot holds an instruction back, with the reason (R163 to R168). -/
def Core.hWaits (k : Core) (slot : Nat) (pc : Dword) (w : IWord) : Option Nat :=
  match k.hAnswer slot pc w.h with
  | .wait code => some code
  | _ => none

/-- Whether an instruction is ready but for its H-slot: no pending source, room for its M-slot (R46). -/
def Core.readyButH (k : Core) (slot : Nat) (w : IWord) : Bool := !sourcePending (k.skein slot) w && k.mRoom slot w.m

/-- Whether an instruction can issue: one that its decode refuses issues to raise its cause (R46, R84). -/
def Core.canIssue (k : Core) (slot : Nat) (pc : Dword) (w : IWord) : Bool :=
  (decodeCause (k.skein slot).units w).isSome || (k.readyButH slot w && (k.hWaits slot pc w).isNone)

/-- Whether a skein may issue at all (R46, R64). -/
def Skein.issues (k : Skein) : Bool := k.st == .running && !k.abortPending

/-- A list of program counters without repeats. -/
def dedup : List Dword → List Dword
  | [] => []
  | a :: r => a :: (dedup r).filter fun b => b != a

/-- The groups of a slot that are runnable: program counter and lanes (R47). -/
def Core.groups (k : Core) (slot : Nat) : List (Dword × List Nat) :=
  let x := k.skein slot
  if !x.issues then []
  else ((dedup (x.freeLanes.map fun l => tget 0 x.pc l)).filter fun pc =>
      match x.wordAt pc with
      | some w => k.canIssue slot pc w
      | none => false).map fun pc => (pc, x.lanesAt pc)

/-! ## Needle (R45, R48 to R50) -/

/-- The slot with the next issue opportunity: round robin over the slots with a runnable group (R45). -/
def Core.nextSlot (k : Core) : Option Nat :=
  ((List.range 64).map fun n => (k.lastSlot.toNat + 1 + n) % 64).find? fun n => !(k.groups n).isEmpty

/-- A group's starvation count, and whether it is in yield back-off (R48, R50). -/
def Skein.groupCount (k : Skein) (g : Dword × List Nat) : Nat := (g.2.map fun l => tget 0 k.starve l).foldl max 0
def Skein.backsOff (k : Skein) (g : Dword × List Nat) : Bool := g.2.all fun l => decide (1 < tget 0 k.backoff l)

/-- The lowest program counter of some groups. -/
def lowestPc (l : List (Dword × List Nat)) : Option Dword := l.foldl (fun m g => match m with
  | none => some g.1
  | some p => some (if g.1 < p then g.1 else p)) none

/-- The group that Needle selects at an issue opportunity (R49). -/
def Skein.select (k : Skein) (l : List (Dword × List Nat)) : Option Dword :=
  let forced := l.filter fun g => decide (32 ≤ k.groupCount g)
  if !forced.isEmpty then
    let top := (forced.map k.groupCount).foldl max 0
    lowestPc (forced.filter fun g => k.groupCount g == top)
  else
    match lowestPc (l.filter fun g => !k.backsOff g) with
    | some p => some p
    | none => lowestPc l

/-- An issue opportunity used: the other runnable threads' starvation counts rise, the issued threads' return to 0, and
back-offs count down (R48, R50). -/
def Skein.opportunity (k : Skein) (groups : List (Dword × List Nat)) (lanes : List Nat) : Skein :=
  let others := (groups.flatMap fun g => g.2).filter fun l => !lanes.contains l
  { k with
    starve := lanes.foldl (fun m l => tset 0 m l 0) (others.foldl (fun m l => tmod 0 m l fun n => n + 1) k.starve)
    backoff := k.backoff.map fun e => (e.1, max 1 (e.2 - 1)) }

/-! ## Instruction fetch (R46, R88, R221, R227, R243) -/

/-- The way of L1I that holds a line as a key reads it. -/
def State.l1iWay (s : State) (c a key : Nat) : Option (Nat × Way) :=
  ((s.core c).l1i.set (l1Set a)).ways.find? fun w => w.2.tag == a / 128 && w.2.key == key

/-- A line leaves a core's L1I. -/
def State.dropL1i (s : State) (c line : Nat) : State :=
  s.modCore c fun k => { k with l1i := k.l1i.modSet (l1Set (line * 128)) fun x => x.drop line }

/-- A fetched word and the cache line that holds it, under the leaf's key: a line of L1I serves a hit; a fill reads 128 bytes, through
L2 from a Normal mapping (R220, R221, R227, R242). One with data that cannot be corrected is not kept (R243). Scratch windows are not
cached (R220). -/
def State.fetchBytes (s : State) (c a key typ : Nat) : State × List Byte :=
  if !(isStack a || isLpd a) then (s, s.bytesAt a 32)
  else
    let line := a / 128
    let i := l1Set a
    match s.l1iWay c a key with
    | some w => (s.modCore c fun k => { k with l1i := k.l1i.modSet i fun x => x.touch 1 w.1 1 }, slice w.2.data (a % 128) 32)
    | none =>
      let data := s.keyBytes key (line * 128) 128
      let s := s.agentRead (typ == 0) (s.partByte c) a 32
      if s.damagedAt (line * 128) 128 then (s, slice data (a % 128) 32)
      else
        let s := s.dropL1i c line
        let r := (s.core c).l1i.fill 1 4 i 1 (fun _ => true) { tag := line, data := data, key := key }
        (s.modCore c fun k => { k with l1i := r.1 }, slice data (a % 128) 32)

/-- Whether L1I holds the line of an address. -/
def State.l1iHit (s : State) (c a key : Nat) : Bool := (isStack a || isLpd a) && (s.l1iWay c a key).isSome

/-- The cause of a fetch: no valid leaf or one without X, an unmapped place or another module, sealed scratch, register space,
data that cannot be corrected (R88, R217, R243, R275). -/
def State.fetchCause (s : State) (c : Nat) (l : Option Leaf) (pc : Nat) : Option Nat :=
  match l with
  | none => some 4
  | some l =>
    let g := l.at_ pc
    let a := locOf g
    if !l.x then some 4
    else if modOf g != s.myId then some 3
    else
      match s.place a with
      | .stack | .lpd => if !s.l1iHit c a l.key && s.damagedAt (a / 32 * 32) 32 then some 9 else none
      | .window _ => if s.damagedAt a 32 then some 9 else none
      | .sealed_ => some 8
      | .reg => some 6
      | .unmapped => some 3

/-- INSTRUCTION_FETCH: the instruction at which threads of a running skein stand is fetched and decoded, or a cause is raised
for them, the fault address being the instruction's (R46, R88). -/
def execInstructionFetch (core : CoreId) (slot : SlotId) (pc : Dword) (s : State) : Out :=
  let c := core.toNat
  let n := slot.toNat
  let k := s.skein c n
  let lanes := k.lanesAt pc
  if !k.issues || lanes.isEmpty || (k.wordAt pc).isSome then .next s
  else
    let part := (s.partOf c).getD 0
    let l := s.coreLeaf c part pc.toNat 0
    match s.fetchCause c l pc.toNat, l with
    | some cause, l =>
      let s := match cause, l with
        | 9, some l => s.ueRead (locOf (l.at_ pc.toNat)) part
        | _, _ => s
      .next (s.bump.raiseExc c n cause (maskOf lanes) pc pc 0).stepSettle
    | none, some l =>
      let s := (s.keepLeaf c pc.toNat l).bump
      let (s, bs) := s.fetchBytes c (locOf (l.at_ pc.toNat)) l.key l.typ
      .next (s.modSkein c n fun x => { x with decoded := x.decoded ++ [(pc, wordOfBytes bs)] })
    | none, none => .next s

/-! ## Causes (R56, R62, R63, R84, R90, R91) -/

/-- A cause of one slot: its code, the lanes that raise it, and the fault address. -/
structure Cause where
  code : Nat
  mask : Mask
  addr : Dword
  extra : Nat := 0
  /-- Local address of data that cannot be corrected. -/
  place : Option Nat := none
  deriving DecidableEq, Repr

/-- The C-slot's causes: TRAP, a knot that the bundle does not hold, and a BRK that the policy forbids (R56, R90, R91). -/
def State.cCauses (s : State) (g : Grp) (c : CSlot) : List Cause :=
  let v := c.cimm.toNat % 16
  let core := s.core g.core
  let b := (core.skein g.slot).bundle.toNat
  let all (code : Nat) : List Cause := [{ code := code, mask := maskOf g.act, addr := 0 }]
  if g.act.isEmpty then []
  else
    match c.cop.toNat with
    | 7 => if (core.knotNamed b v).isNone then all 0x0A else []
    | 8 => if (core.knotNamed b v).isNone then all 0x0A else []
    | 9 => all 0x0E
    | 10 =>
      if s.haltAllowed (s.partOf g.core) || maskOf g.act &&& ~~~(core.skein g.slot).brkPass == 0 then [] else all 0x0F
    | _ => []

/-- The M-slot's: the lowest code, with the lanes that raise it and the lowest lane's address. An access made once for the group
stands for the group's active threads where each forms the same address (LDU). -/
def State.mCause (s : State) (g : Grp) (m : MSlot) : List Cause :=
  if m.mop == 0 || g.act.isEmpty then []
  else
    let (l, extra) := s.mCauses g m
    match lowest (l.map (·.code)) with
    | none => []
    | some code =>
      let mine := l.filter fun x => x.code == code
      match mine with
      | [] => []
      | x :: _ =>
        [{ code := code, mask := if m.mop == 0x03 then maskOf g.act else maskOf (mine.map (·.lane)), addr := x.addr
           extra := if code == 0x0D then extra else 0, place := if code == 9 then some x.place else none }]

/-- The H-slot's: of the active threads, since the operation is the group's. -/
def State.hCause (s : State) (g : Grp) (h : HSlot) : List Cause :=
  if g.act.isEmpty then []
  else
    match (s.core g.core).hAnswer g.slot g.pc h with
    | .raise code addr => [{ code := code, mask := maskOf g.act, addr := addr }]
    | _ => []

/-- The causes with the lowest code of all slots as one: the threads that raised it, and the address of the lowest of them
(R63). -/
def lowestCause (l : List Cause) : Option Cause :=
  match lowest (l.map (·.code)) with
  | none => none
  | some code =>
    let mine := l.filter fun x => x.code == code
    let mask := mine.foldl (fun m x => m ||| x.mask) (0 : Mask)
    (mine.find? fun x => (lanesOf x.mask).head? == (lanesOf mask).head?).map fun x => { x with mask := mask }

/-- A cause raised by an issue: the record of uncorrectable data where a load met it, the counts of a refused descriptor, and
the exception (R62 to R65, R192, R243). -/
def State.raiseCause (s : State) (g : Grp) (w : IWord) (x : Cause) : State :=
  let s := match x.place with
    | some a => s.ueRead a g.part
    | none => s
  let s := if x.code != 0x0D then s
    else
      match (s.mPlan g w.m).accs with
      | a :: _ => (s.shtlAccept g.core g.part (shtlEngine w.m) (shtlQueue w.m) (s.coreBytes g.core a 64)).1
      | [] => s
  (s.raiseExc g.core g.slot x.code x.mask g.pc x.addr x.extra).stepSettle

/-! ## The C-slot (R50, R57, R58, R82, R87, R90, R92) -/

/-- Sign-extended number of words times 32. -/
def wordOffset (w : Nat) (v : Nat) : Dword := BitVec.ofInt 64 (signed w v * 32)

/-- The next program counter of an active thread (R90). -/
def nextPc (k : Skein) (c : CSlot) (pc : Dword) (lane : Nat) : Dword :=
  let v := c.cimm.toNat
  match c.cop.toNat with
  | 1 => pc + wordOffset 18 v
  | 2 => pc + BitVec.ofInt 64 ((k.xr lane (BitVec.ofNat 8 v)).toInt * 32)
  | 3 => k.ur (v % 64) &&& ~~~31#64
  | 4 => pc + wordOffset 10 v
  | 5 => pairAt k true (BitVec.ofNat 8 v) lane &&& ~~~31#64
  | _ => pc + 32

/-- CALL's return address in the pair x[d], x[d + 1] (R90, R121). -/
def callPend (c : CSlot) (pc : Dword) (act : List Nat) : List Pending :=
  let d := BitVec.ofNat 8 (c.cimm.toNat / 1024)
  let half (r : BitVec 8) (v : Dword) : List Pending :=
    if discards (.x r) then [] else [{ dest := .x r, fromMem := false, vals := act.map fun l => (l, v) }]
  if c.cop != 4 || act.isEmpty then []
  else half d ((pc + 32) &&& 0xFFFFFFFF#64) ++ half (d + 1) ((pc + 32) >>> 32)

/-- Every thread of the group advances or branches; a stall hint and a yield hint act on the whole group (R50, R92). -/
def Skein.moveOn (k : Skein) (c : CSlot) (g : Grp) (cycle : Dword) : Skein :=
  let pcs := g.lanes.map fun l => (l, if g.act.contains l then nextPc k c g.pc l else g.pc + 32)
  { k with
    pc := pcs.foldl (fun m e => tset 0 m e.1 e.2) k.pc
    pend := k.pend ++ callPend c g.pc g.act
    stall := if c.stall == 0 then k.stall else k.stall ++ [(maskOf g.lanes, cycle + BitVec.ofNat 64 c.stall.toNat)]
    backoff := if c.yld == 0 then k.backoff else g.lanes.foldl (fun m l => tinsert (terase m l) l 17) k.backoff
    brkPass := if c.cop == 10 then k.brkPass &&& ~~~maskOf g.act else k.brkPass }

/-- Instructions at which no thread stands any longer are dropped. -/
def Skein.prune (k : Skein) : Skein :=
  let live := (lanesOf (k.lanes &&& ~~~k.exited)).map fun l => tget 0 k.pc l
  { k with decoded := k.decoded.filter fun d => live.contains d.1 }

/-- EXIT, KNOT.WAIT and KNOT.ARRIVE of the active threads (R57 to R59, R90). -/
def Core.control (k : Core) (c : CSlot) (g : Grp) (now : Dword) : Core :=
  match c.cop.toNat with
  | 6 => g.act.foldl (fun k l => k.threadExit g.slot l now) k
  | 7 | 8 =>
    match k.knotNamed (k.skein g.slot).bundle.toNat (c.cimm.toNat % 16) with
    | some n => g.act.foldl (fun k l => k.knotArrive g.slot l n (c.cop == 7) g.pc now) k
    | none => k
  | _ => k

/-! ## Issue (R47, R54, R55, R62, R85 to R87, R91) -/

/-- BRK halts the skein before any slot takes effect; the watchdogs of its bundle pause (R61, R91). -/
def State.breakAt (s : State) (g : Grp) : State :=
  s.modCore g.core fun k => (k.modSkein g.slot fun x =>
    { x with st := .debugHalted, brkPass := x.brkPass ||| maskOf g.act }).pauseKnots (k.skein g.slot).bundle.toNat s.time.now

/-- Whether a word's BRK halts: an active thread has not been halted at it yet, and the policy permits halts (R91). -/
def State.breaks (s : State) (g : Grp) (w : IWord) : Bool :=
  w.c.cop == 10 && maskOf g.act &&& ~~~(s.skein g.core g.slot).brkPass != 0 && s.haltAllowed (s.partOf g.core)

/-- The four slots of a group's instruction take effect: T, M and H, then C (R85, R87). -/
def State.fire (s : State) (g : Grp) (w : IWord) : State :=
  let s := s.tSlot g w.t
  let cycle := s.cycles g.core
  let s := s.modSkein g.core g.slot fun x => x.moveOn w.c g cycle
  let s := s.mIssue g w.m
  let s := if g.act.isEmpty then s else s.hIssue g.core g.slot g.pc w.h
  (s.modCore g.core fun c => (c.control w.c g s.time.now).modSkein g.slot Skein.prune).settle

/-- An instruction that its group issues: the checks at decode, BRK, the causes of all slots, else its effect (R62, R63, R84). -/
def State.issueGroup (s : State) (g : Grp) (w : IWord) : State :=
  match decodeCause (s.skein g.core g.slot).units w with
  | some code => (s.raiseExc g.core g.slot code (maskOf g.lanes) g.pc 0 0).stepSettle
  | none =>
    if s.breaks g w then s.breakAt g
    else
      match lowestCause (s.cCauses g w.c ++ s.mCause g w.m ++ s.hCause g w.h) with
      | some x => s.raiseCause g w x
      | none => s.fire g w

/-- The group of an issue. -/
def State.grp (s : State) (i : Issue) : Grp :=
  let c := i.core.toNat
  let k := s.skein c i.slot.toNat
  let lanes := k.lanesAt i.pc
  { core := c, slot := i.slot.toNat, part := (s.partOf c).getD 0, pc := i.pc, lanes := lanes, act := lanes.filter fun l => guard k i.word.c l }

/-- Whether Needle gives this issue the core's next opportunity: its slot comes next, and its group is the one selected there
(R45, R49). -/
def State.selected (s : State) (i : Issue) : Bool :=
  let k := s.core i.core.toNat
  k.nextSlot == some i.slot.toNat && (k.skein i.slot.toNat).select (k.groups i.slot.toNat) == some i.pc

/-- Whether a group is held by its H-slot alone (R168). -/
def State.heldByH (s : State) (i : Issue) : Option Nat :=
  let k := s.core i.core.toNat
  let x := k.skein i.slot.toNat
  if x.issues && !(x.lanesAt i.pc).isEmpty && (decodeCause x.units i.word).isNone && k.readyButH i.slot.toNat i.word then
    k.hWaits i.slot.toNat i.pc i.word
  else none

/-- The issue of a word (R45 to R47): a command that names an instruction not decoded there, or a group that Needle does not
select, changes nothing, but that LAST_WAIT shows what an H-slot waits for (R168; log entry 1). `own` says that the word holds
the row's operation. -/
def State.issueWord (s : State) (i : Issue) (own : Bool) : State :=
  let c := i.core.toNat
  let n := i.slot.toNat
  if !own || (s.skein c n).wordAt i.pc != some i.word then s
  else if s.selected i then
    let g := s.grp i
    let groups := (s.core c).groups n
    let s := s.modCore c fun k => { k.modSkein n fun x => x.opportunity groups g.lanes with lastSlot := i.slot }
    s.issueGroup g i.word
  else
    match s.heldByH i with
    | some code => s.hWaited c i.word.h.hoop.toNat i.word.h.sub.toNat code
    | none => s

end Sys2Proof.Machine
end

