-- ==== Sys2Proof/Machine/OcnControl.lean ====
section
/-! DEFINITION. C-slot operations (R89 to R92). Each row stands for
the issue of a word that holds its operation: all four slots of the word take effect (R81, R87). -/

namespace Sys2Proof.Machine

/-- NOP (R90): no control effect. A word with a reserved COP is issued by this row too, and raises cause 0x01. -/
def execNop (i : Issue) (s : State) : Out := .next (s.issueWord i (i.word.c.cop == 0x00 || 0x0B ≤ i.word.c.cop.toNat))

/-- BRA (R90). -/
def execBra (i : Issue) (s : State) : Out := .next (s.issueWord i (i.word.c.cop == 0x01))

/-- BRX (R90). -/
def execBrx (i : Issue) (s : State) : Out := .next (s.issueWord i (i.word.c.cop == 0x02))

/-- BRU (R90). -/
def execBru (i : Issue) (s : State) : Out := .next (s.issueWord i (i.word.c.cop == 0x03))

/-- CALL (R90). -/
def execCall (i : Issue) (s : State) : Out := .next (s.issueWord i (i.word.c.cop == 0x04))

/-- RET (R90). -/
def execRet (i : Issue) (s : State) : Out := .next (s.issueWord i (i.word.c.cop == 0x05))

/-- EXIT (R59, R90). -/
def execExit (i : Issue) (s : State) : Out := .next (s.issueWord i (i.word.c.cop == 0x06))

/-- KNOT.WAIT (R57, R58). -/
def execKnotWait (i : Issue) (s : State) : Out := .next (s.issueWord i (i.word.c.cop == 0x07))

/-- KNOT.ARRIVE (R57, R58). -/
def execKnotArrive (i : Issue) (s : State) : Out := .next (s.issueWord i (i.word.c.cop == 0x08))

/-- TRAP (R90): cause 0x0E. -/
def execTrap (i : Issue) (s : State) : Out := .next (s.issueWord i (i.word.c.cop == 0x09))

/-- BRK (R91). -/
def execBrk (i : Issue) (s : State) : Out := .next (s.issueWord i (i.word.c.cop == 0x0A))

end Sys2Proof.Machine
end

