-- ==== Sys2Proof/Machine/OcnInt.lean ====
section
/-! DEFINITION. Integer operations of the T-slot (R96, R97). Each row stands for
the issue of a word that holds its operation: all four slots of the word take effect (R81, R87). -/

namespace Sys2Proof.Machine

/-- ADD (R97). -/
def execAdd (i : Issue) (s : State) : Out := .next (s.issueWord i (i.word.t.top == 0x01))

/-- SUB (R97). -/
def execSub (i : Issue) (s : State) : Out := .next (s.issueWord i (i.word.t.top == 0x02))

/-- MUL (R97). -/
def execMul (i : Issue) (s : State) : Out := .next (s.issueWord i (i.word.t.top == 0x03))

/-- MULHI (R97). -/
def execMulhi (i : Issue) (s : State) : Out := .next (s.issueWord i (i.word.t.top == 0x04))

/-- MAD (R97). -/
def execMad (i : Issue) (s : State) : Out := .next (s.issueWord i (i.word.t.top == 0x05))

/-- MIN (R97). -/
def execMin (i : Issue) (s : State) : Out := .next (s.issueWord i (i.word.t.top == 0x06))

/-- MAX (R97). -/
def execMax (i : Issue) (s : State) : Out := .next (s.issueWord i (i.word.t.top == 0x07))

/-- ABS (R97). -/
def execAbs (i : Issue) (s : State) : Out := .next (s.issueWord i (i.word.t.top == 0x08))

/-- AND (R97). -/
def execAnd (i : Issue) (s : State) : Out := .next (s.issueWord i (i.word.t.top == 0x09))

/-- OR (R97). -/
def execOr (i : Issue) (s : State) : Out := .next (s.issueWord i (i.word.t.top == 0x0A))

/-- XOR (R97). -/
def execXor (i : Issue) (s : State) : Out := .next (s.issueWord i (i.word.t.top == 0x0B))

/-- NOT (R97). -/
def execNot (i : Issue) (s : State) : Out := .next (s.issueWord i (i.word.t.top == 0x0C))

/-- SHL (R97). -/
def execShl (i : Issue) (s : State) : Out := .next (s.issueWord i (i.word.t.top == 0x0D))

/-- SHR (R97). -/
def execShr (i : Issue) (s : State) : Out := .next (s.issueWord i (i.word.t.top == 0x0E))

/-- POPC (R97). -/
def execPopc (i : Issue) (s : State) : Out := .next (s.issueWord i (i.word.t.top == 0x0F))

/-- CLZ (R97). -/
def execClz (i : Issue) (s : State) : Out := .next (s.issueWord i (i.word.t.top == 0x10))

/-- BREV (R97). -/
def execBrev (i : Issue) (s : State) : Out := .next (s.issueWord i (i.word.t.top == 0x11))

/-- SEL (R97). -/
def execSel (i : Issue) (s : State) : Out := .next (s.issueWord i (i.word.t.top == 0x12))

/-- MOV (R97). -/
def execMov (i : Issue) (s : State) : Out := .next (s.issueWord i (i.word.t.top == 0x13))

/-- BFE (R97). -/
def execBfe (i : Issue) (s : State) : Out := .next (s.issueWord i (i.word.t.top == 0x14))

end Sys2Proof.Machine
end

