-- ==== Sys2Proof/Machine/OcnFloat.lean ====
section
/-! DEFINITION. Float operations of the T-slot (R98, R99). Each row stands for
the issue of a word that holds its operation: all four slots of the word take effect (R81, R87). -/

namespace Sys2Proof.Machine

/-- FADD (R98, R99). -/
def execFadd (i : Issue) (s : State) : Out := .next (s.issueWord i (i.word.t.top == 0x20))

/-- FSUB (R98, R99). -/
def execFsub (i : Issue) (s : State) : Out := .next (s.issueWord i (i.word.t.top == 0x21))

/-- FMUL (R98, R99). -/
def execFmul (i : Issue) (s : State) : Out := .next (s.issueWord i (i.word.t.top == 0x22))

/-- FFMA (R98, R99). -/
def execFfma (i : Issue) (s : State) : Out := .next (s.issueWord i (i.word.t.top == 0x23))

/-- FMIN (R98, R99). -/
def execFmin (i : Issue) (s : State) : Out := .next (s.issueWord i (i.word.t.top == 0x24))

/-- FMAX (R98, R99). -/
def execFmax (i : Issue) (s : State) : Out := .next (s.issueWord i (i.word.t.top == 0x25))

/-- FABS (R98, R99). -/
def execFabs (i : Issue) (s : State) : Out := .next (s.issueWord i (i.word.t.top == 0x26))

/-- FNEG (R98, R99). -/
def execFneg (i : Issue) (s : State) : Out := .next (s.issueWord i (i.word.t.top == 0x27))

/-- FRCP (R98, R99). -/
def execFrcp (i : Issue) (s : State) : Out := .next (s.issueWord i (i.word.t.top == 0x28))

/-- FRSQ (R98, R99). -/
def execFrsq (i : Issue) (s : State) : Out := .next (s.issueWord i (i.word.t.top == 0x29))

/-- FSQRT (R98, R99). -/
def execFsqrt (i : Issue) (s : State) : Out := .next (s.issueWord i (i.word.t.top == 0x2A))

/-- FEXP2 (R98, R99). -/
def execFexp2 (i : Issue) (s : State) : Out := .next (s.issueWord i (i.word.t.top == 0x2B))

/-- FLOG2 (R98, R99). -/
def execFlog2 (i : Issue) (s : State) : Out := .next (s.issueWord i (i.word.t.top == 0x2C))

/-- FSIN (R98, R99). -/
def execFsin (i : Issue) (s : State) : Out := .next (s.issueWord i (i.word.t.top == 0x2D))

/-- FCOS (R98, R99). -/
def execFcos (i : Issue) (s : State) : Out := .next (s.issueWord i (i.word.t.top == 0x2E))

/-- FTANH (R98, R99). -/
def execFtanh (i : Issue) (s : State) : Out := .next (s.issueWord i (i.word.t.top == 0x2F))

end Sys2Proof.Machine
end

