-- ==== Sys2Proof/Machine/OcnConv.lean ====
section
/-! DEFINITION. Conversions, compares and predicate operations of the T-slot (R101, R102, R127 to R133, R139, R140). Each row stands for
the issue of a word that holds its operation: all four slots of the word take effect (R81, R87). -/

namespace Sys2Proof.Machine

/-- CVT (R101, R140). -/
def execCvt (i : Issue) (s : State) : Out := .next (s.issueWord i (i.word.t.top == 0x40))

/-- QMAX (R101, R127). -/
def execQmax (i : Issue) (s : State) : Out := .next (s.issueWord i (i.word.t.top == 0x41))

/-- QCVT (R101, R130). -/
def execQcvt (i : Issue) (s : State) : Out := .next (s.issueWord i (i.word.t.top == 0x42))

/-- QDEC (R101, R139). -/
def execQdec (i : Issue) (s : State) : Out := .next (s.issueWord i (i.word.t.top == 0x43))

/-- CMPI (R102). -/
def execCmpi (i : Issue) (s : State) : Out := .next (s.issueWord i (i.word.t.top == 0x50))

/-- CMPF (R102). -/
def execCmpf (i : Issue) (s : State) : Out := .next (s.issueWord i (i.word.t.top == 0x51))

/-- PMIX (R102). -/
def execPmix (i : Issue) (s : State) : Out := .next (s.issueWord i (i.word.t.top == 0x52))

/-- PPACK (R102). -/
def execPpack (i : Issue) (s : State) : Out := .next (s.issueWord i (i.word.t.top == 0x53))

/-- PUNPACK (R102). -/
def execPunpack (i : Issue) (s : State) : Out := .next (s.issueWord i (i.word.t.top == 0x54))

end Sys2Proof.Machine
end

