-- ==== Sys2Proof/Machine/OcnGroup.lean ====
section
/-! DEFINITION. Group, sampling, uniform and special operations of the T-slot (R103 to R105, R134 to R138). Each row stands for
the issue of a word that holds its operation: all four slots of the word take effect (R81, R87). -/

namespace Sys2Proof.Machine

/-- LANEX (R103). -/
def execLanex (i : Issue) (s : State) : Out := .next (s.issueWord i (i.word.t.top == 0x60))

/-- POLL (R103). -/
def execPoll (i : Issue) (s : State) : Out := .next (s.issueWord i (i.word.t.top == 0x61))

/-- REDG (R103). -/
def execRedg (i : Issue) (s : State) : Out := .next (s.issueWord i (i.word.t.top == 0x62))

/-- ARGMAXG (R103). -/
def execArgmaxg (i : Issue) (s : State) : Out := .next (s.issueWord i (i.word.t.top == 0x63))

/-- SCANG (R103). -/
def execScang (i : Issue) (s : State) : Out := .next (s.issueWord i (i.word.t.top == 0x64))

/-- RNG (R104, R134, R136). -/
def execRng (i : Issue) (s : State) : Out := .next (s.issueWord i (i.word.t.top == 0x70))

/-- RNGSEED (R104, R135). -/
def execRngseed (i : Issue) (s : State) : Out := .next (s.issueWord i (i.word.t.top == 0x71))

/-- GUMBEL (R104, R138). -/
def execGumbel (i : Issue) (s : State) : Out := .next (s.issueWord i (i.word.t.top == 0x72))

/-- UADD (R104). -/
def execUadd (i : Issue) (s : State) : Out := .next (s.issueWord i (i.word.t.top == 0x80))

/-- USUB (R104). -/
def execUsub (i : Issue) (s : State) : Out := .next (s.issueWord i (i.word.t.top == 0x81))

/-- UMUL (R104). -/
def execUmul (i : Issue) (s : State) : Out := .next (s.issueWord i (i.word.t.top == 0x82))

/-- USHL (R104). -/
def execUshl (i : Issue) (s : State) : Out := .next (s.issueWord i (i.word.t.top == 0x83))

/-- USHR (R104). -/
def execUshr (i : Issue) (s : State) : Out := .next (s.issueWord i (i.word.t.top == 0x84))

/-- UAND (R104). -/
def execUand (i : Issue) (s : State) : Out := .next (s.issueWord i (i.word.t.top == 0x85))

/-- UOR (R104). -/
def execUor (i : Issue) (s : State) : Out := .next (s.issueWord i (i.word.t.top == 0x86))

/-- UXOR (R104). -/
def execUxor (i : Issue) (s : State) : Out := .next (s.issueWord i (i.word.t.top == 0x87))

/-- UMOV (R104). -/
def execUmov (i : Issue) (s : State) : Out := .next (s.issueWord i (i.word.t.top == 0x88))

/-- RDSR (R104, R105). -/
def execRdsr (i : Issue) (s : State) : Out := .next (s.issueWord i (i.word.t.top == 0x90))

end Sys2Proof.Machine
end

