-- ==== Sys2Proof/Machine/OcnMem.lean ====
section
/-! DEFINITION. M-slot operations (R106 to R113). Each row stands for
the issue of a word that holds its operation: all four slots of the word take effect (R81, R87). -/

namespace Sys2Proof.Machine

/-- LD (R108, R109). -/
def execLd (i : Issue) (s : State) : Out := .next (s.issueWord i (i.word.m.mop == 0x01))

/-- ST (R108, R109). -/
def execSt (i : Issue) (s : State) : Out := .next (s.issueWord i (i.word.m.mop == 0x02))

/-- LDU (R109). -/
def execLdu (i : Issue) (s : State) : Out := .next (s.issueWord i (i.word.m.mop == 0x03))

/-- ATOM.ADD (R109, R110). -/
def execAtomAdd (i : Issue) (s : State) : Out := .next (s.issueWord i (i.word.m.mop == 0x04))

/-- ATOM.MIN (R109, R110). -/
def execAtomMin (i : Issue) (s : State) : Out := .next (s.issueWord i (i.word.m.mop == 0x05))

/-- ATOM.MAX (R109, R110). -/
def execAtomMax (i : Issue) (s : State) : Out := .next (s.issueWord i (i.word.m.mop == 0x06))

/-- ATOM.AND (R109, R110). -/
def execAtomAnd (i : Issue) (s : State) : Out := .next (s.issueWord i (i.word.m.mop == 0x07))

/-- ATOM.OR (R109, R110). -/
def execAtomOr (i : Issue) (s : State) : Out := .next (s.issueWord i (i.word.m.mop == 0x08))

/-- ATOM.XOR (R109, R110). -/
def execAtomXor (i : Issue) (s : State) : Out := .next (s.issueWord i (i.word.m.mop == 0x09))

/-- ATOM.EXCH (R109, R110). -/
def execAtomExch (i : Issue) (s : State) : Out := .next (s.issueWord i (i.word.m.mop == 0x0A))

/-- ATOM.CAS (R109, R110). -/
def execAtomCas (i : Issue) (s : State) : Out := .next (s.issueWord i (i.word.m.mop == 0x0B))

/-- ATOM.FADD (R109, R110). -/
def execAtomFadd (i : Issue) (s : State) : Out := .next (s.issueWord i (i.word.m.mop == 0x0C))

/-- ATOM.FMIN (R109, R110). -/
def execAtomFmin (i : Issue) (s : State) : Out := .next (s.issueWord i (i.word.m.mop == 0x0D))

/-- ATOM.FMAX (R109, R110). -/
def execAtomFmax (i : Issue) (s : State) : Out := .next (s.issueWord i (i.word.m.mop == 0x0E))

/-- SHTL (R109, R191, R266). -/
def execShtl (i : Issue) (s : State) : Out := .next (s.issueWord i (i.word.m.mop == 0x10))

/-- SWAIT (R109, R197). -/
def execSwait (i : Issue) (s : State) : Out := .next (s.issueWord i (i.word.m.mop == 0x11))

/-- SCADD (R109). -/
def execScadd (i : Issue) (s : State) : Out := .next (s.issueWord i (i.word.m.mop == 0x12))

/-- FENCE (R109, R113, R264). -/
def execFence (i : Issue) (s : State) : Out := .next (s.issueWord i (i.word.m.mop == 0x18))

/-- PREF (R112, R229). -/
def execPref (i : Issue) (s : State) : Out := .next (s.issueWord i (i.word.m.mop == 0x19))

/-- INVAL (R113, R230). -/
def execInval (i : Issue) (s : State) : Out := .next (s.issueWord i (i.word.m.mop == 0x1A))

end Sys2Proof.Machine
end

