-- ==== Sys2Proof/Machine/OcnHoop.lean ====
section
/-! DEFINITION. H-slot operations (R114 to R119). Each row stands for
the issue of a word that holds its operation: all four slots of the word take effect (R81, R87). -/

namespace Sys2Proof.Machine

/-- HWLD (R115, R157, R162). -/
def execHwld (i : Issue) (s : State) : Out := .next (s.issueWord i (i.word.h.hop == 0x1))

/-- HPASS.G (R115, R155). -/
def execHpassG (i : Issue) (s : State) : Out := .next (s.issueWord i (i.word.h.hop == 0x2))

/-- HPASS.X (R115, R155). -/
def execHpassX (i : Issue) (s : State) : Out := .next (s.issueWord i (i.word.h.hop == 0x3))

/-- HDRAIN (R115, R117, R171). -/
def execHdrain (i : Issue) (s : State) : Out := .next (s.issueWord i (i.word.h.hop == 0x4))

/-- HZERO (R115, R170). -/
def execHzero (i : Issue) (s : State) : Out := .next (s.issueWord i (i.word.h.hop == 0x5))

/-- HSPLIT (R115, R175). -/
def execHsplit (i : Issue) (s : State) : Out := .next (s.issueWord i (i.word.h.hop == 0x6))

/-- HPATCH (R115, R147). -/
def execHpatch (i : Issue) (s : State) : Out := .next (s.issueWord i (i.word.h.hop == 0x7))

end Sys2Proof.Machine
end

