-- ==== Sys2Proof/Machine/Tangle.lean ====
section
/-! DEFINITION. The tangle graph: the wait states that TANGLE latches, its nodes, edges and cycles, and what is written to the
host (R519 to R525). -/

namespace Sys2Proof.Machine

/-- A node's key: KIND, unit ID, and its place within the unit (R521, R524). A group's place is its slot and lowest lane. -/
abbrev TKey := Nat × Nat × Nat

/-- A group as the latch takes it: its key, bundle, program counter, lanes and WAIT, and what it waits on. -/
structure TGroup where
  key : TKey
  core : Nat
  slot : Nat
  bundle : BitVec 6
  pc : Dword
  lanes : List Nat
  wait : Nat
  target : Option TKey
  deriving DecidableEq, Repr

/-! ## Groups (R521) -/

def coreKey (kind c n : Nat) : TKey := (kind, unitId 1 c, n)
def hoopKey (h : Nat) : TKey := (5, unitId 2 h, 0)
def shuttleKey (e q : Nat) : TKey := (4, unitId 3 e, q)
def portKey (p vc : Nat) : TKey := (6, unitId 7 p, vc)
def remoteKey (m : Nat) : TKey := (7, 0, m)

/-- What one thread waits on: WAIT and the node (R521, R522). -/
def Core.laneWait (k : Core) (c slot lane : Nat) : Nat × Option TKey :=
  let x := k.skein slot
  let pc := tget 0 x.pc lane
  if x.st != .running then (5, none)
  else
    match x.knotWait.find? fun w => w.1 == lane with
    | some w => (1, some (coreKey 2 c w.2.1))
    | none =>
      match x.knotHeld.find? fun w => w.1 == lane with
      | some w => (1, some (coreKey 2 c w.2.1))
      | none =>
        match x.waits.find? fun w => bit w.lanes lane && !w.satisfied with
        | some w => (2, some (coreKey 3 c w.counter))
        | none =>
          if bit x.invalHold lane then (4, none)
          else
            match x.wordAt pc with
            | none => (0, none)
            | some w =>
              if sourcePending x w || (decodeCause x.units w).isSome then (0, none)
              else if !k.mRoom slot w.m then (4, none)
              else
                match k.hWaits slot pc w with
                | some _ => (3, some (hoopKey (c * 4 + w.h.hoop.toNat)))
                | none => (0, none)

/-- Threads of a list put into groups of one program counter and one wait. -/
def Core.tGroups (k : Core) (c slot : Nat) : List Nat → List TGroup
  | [] => []
  | l :: r =>
    let x := k.skein slot
    let w := k.laneWait c slot l
    let rest := k.tGroups c slot r
    let pc := tget 0 x.pc l
    let same (g : TGroup) : Bool := g.pc == pc && g.wait == w.1 && g.target == w.2
    let lanes := l :: (rest.filter same).flatMap (·.lanes)
    { key := (1, unitId 1 c, slot * 32 + l), core := c, slot := slot, bundle := x.bundle, pc := pc, lanes := lanes, wait := w.1
      target := w.2 } :: rest.filter fun g => !same g

/-- The groups of the partitions covered; 0 covers all (R519). -/
def State.tangleGroups (s : State) (parts : BitVec 16) : List TGroup :=
  let covered (c : Nat) : Bool := parts == 0 || (match s.partOf c with
    | some p => bit parts p
    | none => false)
  (s.cores.filter fun e => covered e.1).flatMap fun e =>
    (e.2.skeins.filter fun x => x.2.st == .running || x.2.st == .excHalted || x.2.st == .abortHalted || x.2.st == .debugHalted).flatMap
      fun x => e.2.tGroups e.1 x.1 (lanesOf (x.2.lanes &&& ~~~x.2.exited))

/-! ## Edges (R522) -/

/-- The index of a core's unit ID. -/
def keyUnit (k : TKey) : Nat := k.2.1 % 2 ^ 24

/-- The channel or module that a shuttle queue's running descriptor waits on. -/
def State.shuttleWaits (s : State) (e q : Nat) : List TKey :=
  match (((s.core (e / 2)).engine (e % 2)).queue q).entries.find? fun x => x.started && !x.out.isEmpty with
  | none => []
  | some x =>
    let tag := shuttleTag (e / 2) (e % 2) q x.slotNo
    let held := (List.range 12).flatMap fun p =>
      ((s.port p).queue.filter fun k => (k.kind == 1 || k.kind == 2) && k.src == s.wlk.moduleId && k.etag.toNat == tag).map fun k => portKey p k.vc.toNat
    match held with
    | k :: _ => [k]
    | [] => [remoteKey (modOf x.desc.dst.toNat)]

/-- The local raisers that can still add to a counter, and the module of its last remote addition. -/
def State.counterRaisers (s : State) (c n : Nat) : List TKey :=
  let names (core : Nat) (x : ShEntry) : Bool :=
    (x.desc.dmode != 0 && x.desc.cntModule == s.myId && x.desc.cntCore == c && x.desc.cnt == n)
      || (core == c && x.desc.scntEn && x.desc.scnt == n)
  let queues := s.cores.flatMap fun e => ((List.range 8).filter fun i => ((e.2.engine (i / 4)).queue (i % 4)).entries.any (names e.1)).map
    fun i => shuttleKey (e.1 * 2 + i / 4) (i % 4)
  let k := s.core c
  let hoops := ((List.range 4).filter fun h => (k.hoop h).subs.any fun x => x.open_.any fun o =>
    o.kind == .drain && bit o.aux 12 && nbits o.aux.toNat 11 4 == n).map fun h => hoopKey (c * 4 + h)
  let bundles := (k.bundles.filter fun b => b.2.st == .running && (match b.2.desc with
    | some d => d.counterEn && d.counter == n
    | none => false)).map fun b => coreKey 8 c b.1
  let remote := tget 0 k.cntRemote n
  queues ++ hoops ++ bundles ++ (if remote == 0 then [] else [remoteKey (remote - 1)])

/-- What a node other than a group waits on. -/
def State.nodeEdges (s : State) (gs : List TGroup) (k : TKey) : List TKey :=
  let u := keyUnit k
  let n := k.2.2
  match k.1 with
  | 2 =>
    let x := nth {} (s.core u).knots n
    (gs.filter fun g => g.core == u && some g.bundle == x.owner
      && g.lanes.any fun l => !x.arrived.contains (threadKey g.slot l)).map (·.key)
  | 3 => s.counterRaisers u n
  | 4 => s.shuttleWaits u n
  | 6 => [remoteKey (s.port u).peer.toNat]
  | 8 => (gs.filter fun g => g.core == u && g.bundle.toNat == n && ((s.core u).skein g.slot).st == .running).map (·.key)
  | _ => []

/-! ## The graph (R520 to R524) -/

/-- Order of nodes: KIND, unit ID, place. -/
def keyLt (a b : TKey) : Bool :=
  decide (a.1 < b.1) || (a.1 == b.1 && (decide (a.2.1 < b.2.1) || (a.2.1 == b.2.1 && decide (a.2.2 < b.2.2))))

/-- A key inserted in order, once. -/
def keyInsert (k : TKey) : List TKey → List TKey
  | [] => [k]
  | a :: r => if a == k then a :: r else if keyLt k a then k :: a :: r else a :: keyInsert k r

/-- The edges of a list of keys. -/
def State.edgesOf (s : State) (gs : List TGroup) (ks : List TKey) : List (TKey × TKey) :=
  ks.flatMap fun k =>
    match gs.find? fun g => g.key == k with
    | some g => (g.target.toList).map fun t => (k, t)
    | none => (s.nodeEdges gs k).map fun t => (k, t)

/-- Keys reached by edges from some keys, in steps. -/
def State.tangleReach (s : State) (gs : List TGroup) : Nat → List TKey → List TKey
  | 0, ks => ks
  | f + 1, ks => s.tangleReach gs f ((s.edgesOf gs ks).foldl (fun l e => keyInsert e.2 l) ks)

/-- Detail of a node (R521). -/
def State.tangleDetail (s : State) (gs : List TGroup) (k : TKey) : List Byte :=
  let u := keyUnit k
  let n := k.2.2
  let core := s.core u
  match k.1 with
  | 1 =>
    match gs.find? fun g => g.key == k with
    | some g => toBytes 8 g.pc.toNat ++ toBytes 4 (maskOf g.lanes).toNat ++ toBytes 1 g.slot ++ toBytes 1 g.wait ++ toBytes 10 0
    | none => toBytes 24 0
  | 2 =>
    let x := nth {} core.knots n
    toBytes 1 n ++ toBytes 1 (b2n x.phase) ++ toBytes 2 x.arrived.length ++ toBytes 2 x.exited ++ toBytes 2 x.participants
      ++ toBytes 1 ((x.owner.map (·.toNat)).getD 0) ++ toBytes 15 0
  | 3 =>
    let targets := core.skeins.flatMap fun e => (e.2.waits.filter fun w => w.counter == n && !w.satisfied).map fun w => w.target.toNat
    toBytes 1 n ++ toBytes 1 (b2n (bit core.cntFault n)) ++ toBytes 6 0 ++ toBytes 8 (core.cntVal n).toNat
      ++ toBytes 8 ((lowest targets).getD 0)
  | 4 =>
    let q := (((s.core (u / 2)).engine (u % 2)).queue n).entries
    toBytes 1 n ++ toBytes 1 q.length ++ toBytes 2 ((q.head?.map (·.desc.tag.toNat)).getD 0) ++ toBytes 4 0
      ++ toBytes 8 ((q.head?.map (·.desc.dcnt.toNat)).getD 0) ++ toBytes 8 0
  | 5 =>
    let h := (s.core (u / 4)).hoop (u % 4)
    toBytes 1 (h.subs.map fun x => x.open_.length).sum ++ toBytes 1 (h.subAt 0).lastWait.toNat ++ toBytes 22 0
  | 6 =>
    let p := s.port u
    toBytes 1 n ++ toBytes 1 0 ++ toBytes 2 (nth 0 p.credits n) ++ toBytes 4 p.peer.toNat ++ toBytes 16 0
  | 7 => toBytes 4 n ++ toBytes 1 (b2n (s.wlk.dead.contains n)) ++ toBytes 19 0
  | _ =>
    let b := core.bundle n
    toBytes 1 n ++ toBytes 1 b.st.code ++ toBytes 1 ((b.desc.map (·.counter)).getD 0) ++ toBytes 1 0
      ++ toBytes 4 ((b.desc.map (·.add.toNat)).getD 0) ++ toBytes 16 0

/-- A pair of indices inserted in order. -/
def pairInsert (p : Nat × Nat) : List (Nat × Nat) → List (Nat × Nat)
  | [] => [p]
  | a :: r => if a == p then a :: r else if p.1 < a.1 || (p.1 == a.1 && p.2 < a.2) then p :: a :: r else a :: pairInsert p r

/-- The graph: the groups of the snapshot and every node that an edge leads to, from 1 to at most 6 edges away (a counter leads
to a queue, it to a channel, it to a module). -/
def State.tangleGraph (s : State) (parts : BitVec 16) : List TNode × List (Nat × Nat) :=
  let gs := s.tangleGroups parts
  let ks := s.tangleReach gs 6 (gs.foldl (fun l g => keyInsert g.key l) [])
  let idx (k : TKey) : Nat := (findIdx (fun a => a == k) ks).getD 0
  (ks.map fun k => { kind := k.1, unit := k.2.1, detail := s.tangleDetail gs k },
   (s.edgesOf gs ks).foldl (fun l e => pairInsert (idx e.1, idx e.2) l) [])

/-- Nodes that edges lead to from some nodes, in at most a number of steps. -/
def stepsFrom (edges : List (Nat × Nat)) : Nat → List Nat → List Nat
  | 0, l => l
  | f + 1, l =>
    let more := ((edges.filter fun e => l.contains e.1).map (·.2)).filter fun n => !l.contains n
    if more.isEmpty then l else stepsFrom edges f (l ++ more)

/-- Nodes that a node reaches by one edge or more. -/
def reached (edges : List (Nat × Nat)) (n i : Nat) : List Nat := stepsFrom edges n ((edges.filter fun e => e.1 == i).map (·.2))

/-- Cycle numbers of nodes 0 to n − 1: each strongly connected component with an edge within it, in the order of its lowest
index (R523); with the number of cycles. -/
def cycleNumbers (edges : List (Nat × Nat)) (n : Nat) : List Nat × Nat :=
  let r := (List.range n).map (reached edges n)
  (List.range n).foldl (fun (a : List Nat × Nat) i =>
    if !(nth [] r i).contains i then (a.1 ++ [0], a.2)
    else
      match (List.range i).find? fun j => (nth [] r i).contains j && (nth [] r j).contains i with
      | some j => (a.1 ++ [nth 0 a.1 j], a.2)
      | none => (a.1 ++ [a.2 + 1], a.2 + 1)) ([], 0)

/-- A node's 32 bytes (R521). -/
def TNode.bytes (n : TNode) (cycle : Nat) : List Byte := toBytes 1 n.kind ++ toBytes 1 0 ++ toBytes 2 cycle ++ toBytes 4 n.unit ++ n.detail

/-- The header (R524). -/
def tangleHeader (t : Dword) (n e cycles flags needed module : Nat) : List Byte :=
  toBytes 8 t.toNat ++ toBytes 4 n ++ toBytes 4 e ++ toBytes 2 cycles ++ toBytes 1 flags ++ toBytes 1 0 ++ toBytes 4 needed
    ++ toBytes 4 module ++ List.replicate 36 0

/-! ## The command (R519, R520) -/

/-- The codes of a TANGLE's parameters. -/
def tangleCodes (s : State) (e : InEntry) : List Nat :=
  s.cmdCodes e (e.fn == 0) [(38, 26)] ++ dstCodes e ++ (if s.snapOk (leAt e.bytes 16 8) then [] else [4])

/-- TANGLE: accepted unless another runs. -/
def execTangle (fn : Nat) (s : State) : Out :=
  .next (s.takeCmd fn 0x14 tangleCodes fun s e =>
    let b := e.bytes
    let s := s.acceptCmd e .tangle
    if s.msr.tangle.isSome then s.cmdEnd fn e.tag 7 0xC
    else
      let j : TangleJob :=
        { fn := fn, tag := e.tag, t := s.snapTime (leAt b 16 8), dst := BitVec.ofNat 64 (leAt b 24 8), cap := leAt b 32 4
          parts := BitVec.ofNat 16 (leAt b 36 2) }
      (s.modMsr fun m => { m with tangle := some j }).cmdState fn e.tag 3)

/-- TANGLE_LATCH: at T the wait states are taken as one snapshot (R520). -/
def execTangleLatch (t : Dword) (s : State) : Out :=
  let s := s.at_ t
  match s.msr.tangle with
  | some j =>
    if j.graph.isNone && j.t.toNat ≤ s.now then
      .next (s.modMsr fun m => { m with tangle := some { j with graph := some (s.tangleGraph j.parts) } })
    else .next s
  | none => .next s

/-- TANGLE_GRAPH_WRITTEN: nodes and edges, then the header; or the header alone where the graph does not fit (R523, R524). -/
def execTangleGraphWritten (s : State) : Out :=
  match s.msr.tangle with
  | none => .next s
  | some j =>
    match j.graph with
    | none => .next s
    | some (nodes, edges) =>
      let n := nodes.length
      let (cyc, count) := cycleNumbers edges n
      let needed := 64 + 32 * n + 8 * edges.length
      let s := s.modMsr fun m => { m with
        tangle := none, tglCycles := BitVec.ofNat 16 (min count 0xFFFF), tglNodes := BitVec.ofNat 32 n }
      let header (flags : Nat) : List Byte := tangleHeader j.t n edges.length count flags needed s.myId
      if j.cap < needed then .next ((s.hostWrite j.fn j.dst (header 2)).cmdEnd j.fn j.tag 7 4)
      else
        let body := ((nodes.zip cyc).flatMap fun x => x.1.bytes x.2) ++ edges.flatMap fun e => toBytes 4 e.1 ++ toBytes 4 e.2
        let s := (s.hostWrite j.fn (j.dst + 64) body).hostWrite j.fn j.dst (header 1)
        .next ((s.cmdCountTo j.fn j.tag (ceilDiv needed 1024)).cmdEnd j.fn j.tag 5 0)

end Sys2Proof.Machine
end

