-- ==== Sys2Proof/Machine/Refresh.lean ====
section
/-! DEFINITION. The refresh of live status words (R373, R374, R376). -/

namespace Sys2Proof.Machine

/-- COUNT of a running TANGLE: some number of KiB of the graph from what it was on, once the graph is latched and fits (R373; free,
log entry 3). -/
def State.tangleProgress (s : State) (j : TangleJob) : State :=
  match j.graph, s.liveCmd j.fn j.tag with
  | some g, some c =>
    let needed := 64 + 32 * g.1.length + 8 * g.2.length
    if j.cap < needed then s
    else s.bump.cmdCountTo j.fn j.tag (c.count.toNat + s.pick (ceilDiv needed 1024 - c.count.toNat + 1))
  | _, _ => s

/-- The progress that a live command has made since its last status word, where no command of the table tells it. -/
def State.progressOf (s : State) (c : LiveCmd) : State :=
  match c.kind, s.ob.load, s.msr.tangle with
  | .loadImage, some l, _ => if l.fn == c.fn && l.tag == c.tag && s.ob.phase == .staging then s.stageProgress l else s
  | .tangle, _, some j => if j.fn == c.fn && j.tag == c.tag then s.tangleProgress j else s
  | _, _, _ => s

/-- STATUS_WORD_REFRESH: a live status word is written again (R376). -/
def execStatusWordRefresh (live : Live) (t : Dword) (s : State) : Out :=
  let s := s.at_ t
  match live with
  | .request q => if (s.entry q).live then .next (s.entryStatus q) else .next s
  | .command fn tag =>
    match s.liveCmd fn tag with
    | none => .next s
    | some c =>
      let s := (s.progressOf c).modCmd fn tag fun c => { c with statusAt := s.time.now }
      match s.liveCmd fn tag with
      | some c => .next (s.writeCmdStatus c)
      | none => .next s

end Sys2Proof.Machine
end

