-- ==== Sys2Proof/Machine/Dispatch.lean ====
section
/-! DEFINITION. What each command does to everything but the queue: one arm per constructor, each a call of its meaning. -/

namespace Sys2Proof.Machine

def exec (i : Instr) (s : State) : Host.Outcome State Fault Refusal :=
  match i with
  | .registerWrite w => Sys2Proof.Machine.execRegisterWrite w s
  | .msixHoldoffExpiry fn vector t => Sys2Proof.Machine.execMsixHoldoffExpiry fn vector t s
  | .loadImage fn => Sys2Proof.Machine.execLoadImage fn s
  | .imageStagingComplete staged => Sys2Proof.Machine.execImageStagingComplete staged s
  | .imageDrainComplete => Sys2Proof.Machine.execImageDrainComplete s
  | .imageDrainLimitExpiry t => Sys2Proof.Machine.execImageDrainLimitExpiry t s
  | .imageSwitchComplete => Sys2Proof.Machine.execImageSwitchComplete s
  | .coreLaunch core by_ desc => Sys2Proof.Machine.execCoreLaunch core by_ desc s
  | .launchDescriptorRead core => Sys2Proof.Machine.execLaunchDescriptorRead core s
  | .bundleAdmission core => Sys2Proof.Machine.execBundleAdmission core s
  | .bundleLoadingComplete core bundle => Sys2Proof.Machine.execBundleLoadingComplete core bundle s
  | .skeinStoresDrained core slot => Sys2Proof.Machine.execSkeinStoresDrained core slot s
  | .bundleEnd core bundle => Sys2Proof.Machine.execBundleEnd core bundle s
  | .yieldBackoffEnd core slot => Sys2Proof.Machine.execYieldBackoffEnd core slot s
  | .stallHintEnd core slot => Sys2Proof.Machine.execStallHintEnd core slot s
  | .knotWatchdogExpiry core knot t => Sys2Proof.Machine.execKnotWatchdogExpiry core knot t s
  | .skeinAbortStop core slot => Sys2Proof.Machine.execSkeinAbortStop core slot s
  | .coreBundleRelease core op => Sys2Proof.Machine.execCoreBundleRelease core op s
  | .sknHalt core slot op => Sys2Proof.Machine.execSknHalt core slot op s
  | .sknResume core slot op => Sys2Proof.Machine.execSknResume core slot op s
  | .coreReset core => Sys2Proof.Machine.execCoreReset core s
  | .coreResetDrainExpiry core t => Sys2Proof.Machine.execCoreResetDrainExpiry core t s
  | .instructionFetch core slot pc => Sys2Proof.Machine.execInstructionFetch core slot pc s
  | .resultWriteback core slot reg => Sys2Proof.Machine.execResultWriteback core slot reg s
  | .nop w => Sys2Proof.Machine.execNop w s
  | .bra w => Sys2Proof.Machine.execBra w s
  | .brx w => Sys2Proof.Machine.execBrx w s
  | .bru w => Sys2Proof.Machine.execBru w s
  | .call w => Sys2Proof.Machine.execCall w s
  | .ret w => Sys2Proof.Machine.execRet w s
  | .exit w => Sys2Proof.Machine.execExit w s
  | .knotWait w => Sys2Proof.Machine.execKnotWait w s
  | .knotArrive w => Sys2Proof.Machine.execKnotArrive w s
  | .trap w => Sys2Proof.Machine.execTrap w s
  | .brk w => Sys2Proof.Machine.execBrk w s
  | .add w => Sys2Proof.Machine.execAdd w s
  | .sub w => Sys2Proof.Machine.execSub w s
  | .mul w => Sys2Proof.Machine.execMul w s
  | .mulhi w => Sys2Proof.Machine.execMulhi w s
  | .mad w => Sys2Proof.Machine.execMad w s
  | .min w => Sys2Proof.Machine.execMin w s
  | .max w => Sys2Proof.Machine.execMax w s
  | .abs w => Sys2Proof.Machine.execAbs w s
  | .and w => Sys2Proof.Machine.execAnd w s
  | .or w => Sys2Proof.Machine.execOr w s
  | .xor w => Sys2Proof.Machine.execXor w s
  | .not w => Sys2Proof.Machine.execNot w s
  | .shl w => Sys2Proof.Machine.execShl w s
  | .shr w => Sys2Proof.Machine.execShr w s
  | .popc w => Sys2Proof.Machine.execPopc w s
  | .clz w => Sys2Proof.Machine.execClz w s
  | .brev w => Sys2Proof.Machine.execBrev w s
  | .sel w => Sys2Proof.Machine.execSel w s
  | .mov w => Sys2Proof.Machine.execMov w s
  | .bfe w => Sys2Proof.Machine.execBfe w s
  | .fadd w => Sys2Proof.Machine.execFadd w s
  | .fsub w => Sys2Proof.Machine.execFsub w s
  | .fmul w => Sys2Proof.Machine.execFmul w s
  | .ffma w => Sys2Proof.Machine.execFfma w s
  | .fmin w => Sys2Proof.Machine.execFmin w s
  | .fmax w => Sys2Proof.Machine.execFmax w s
  | .fabs w => Sys2Proof.Machine.execFabs w s
  | .fneg w => Sys2Proof.Machine.execFneg w s
  | .frcp w => Sys2Proof.Machine.execFrcp w s
  | .frsq w => Sys2Proof.Machine.execFrsq w s
  | .fsqrt w => Sys2Proof.Machine.execFsqrt w s
  | .fexp2 w => Sys2Proof.Machine.execFexp2 w s
  | .flog2 w => Sys2Proof.Machine.execFlog2 w s
  | .fsin w => Sys2Proof.Machine.execFsin w s
  | .fcos w => Sys2Proof.Machine.execFcos w s
  | .ftanh w => Sys2Proof.Machine.execFtanh w s
  | .cvt w => Sys2Proof.Machine.execCvt w s
  | .qmax w => Sys2Proof.Machine.execQmax w s
  | .qcvt w => Sys2Proof.Machine.execQcvt w s
  | .qdec w => Sys2Proof.Machine.execQdec w s
  | .cmpi w => Sys2Proof.Machine.execCmpi w s
  | .cmpf w => Sys2Proof.Machine.execCmpf w s
  | .pmix w => Sys2Proof.Machine.execPmix w s
  | .ppack w => Sys2Proof.Machine.execPpack w s
  | .punpack w => Sys2Proof.Machine.execPunpack w s
  | .lanex w => Sys2Proof.Machine.execLanex w s
  | .poll w => Sys2Proof.Machine.execPoll w s
  | .redg w => Sys2Proof.Machine.execRedg w s
  | .argmaxg w => Sys2Proof.Machine.execArgmaxg w s
  | .scang w => Sys2Proof.Machine.execScang w s
  | .rng w => Sys2Proof.Machine.execRng w s
  | .rngseed w => Sys2Proof.Machine.execRngseed w s
  | .gumbel w => Sys2Proof.Machine.execGumbel w s
  | .uadd w => Sys2Proof.Machine.execUadd w s
  | .usub w => Sys2Proof.Machine.execUsub w s
  | .umul w => Sys2Proof.Machine.execUmul w s
  | .ushl w => Sys2Proof.Machine.execUshl w s
  | .ushr w => Sys2Proof.Machine.execUshr w s
  | .uand w => Sys2Proof.Machine.execUand w s
  | .uor w => Sys2Proof.Machine.execUor w s
  | .uxor w => Sys2Proof.Machine.execUxor w s
  | .umov w => Sys2Proof.Machine.execUmov w s
  | .rdsr w => Sys2Proof.Machine.execRdsr w s
  | .ld w => Sys2Proof.Machine.execLd w s
  | .loadDataReturn core slot reg => Sys2Proof.Machine.execLoadDataReturn core slot reg s
  | .st w => Sys2Proof.Machine.execSt w s
  | .ldu w => Sys2Proof.Machine.execLdu w s
  | .atomAdd w => Sys2Proof.Machine.execAtomAdd w s
  | .atomMin w => Sys2Proof.Machine.execAtomMin w s
  | .atomMax w => Sys2Proof.Machine.execAtomMax w s
  | .atomAnd w => Sys2Proof.Machine.execAtomAnd w s
  | .atomOr w => Sys2Proof.Machine.execAtomOr w s
  | .atomXor w => Sys2Proof.Machine.execAtomXor w s
  | .atomExch w => Sys2Proof.Machine.execAtomExch w s
  | .atomCas w => Sys2Proof.Machine.execAtomCas w s
  | .atomFadd w => Sys2Proof.Machine.execAtomFadd w s
  | .atomFmin w => Sys2Proof.Machine.execAtomFmin w s
  | .atomFmax w => Sys2Proof.Machine.execAtomFmax w s
  | .shtl w => Sys2Proof.Machine.execShtl w s
  | .swait w => Sys2Proof.Machine.execSwait w s
  | .swaitSatisfied core slot => Sys2Proof.Machine.execSwaitSatisfied core slot s
  | .scadd w => Sys2Proof.Machine.execScadd w s
  | .fence w => Sys2Proof.Machine.execFence w s
  | .fenceComplete core slot => Sys2Proof.Machine.execFenceComplete core slot s
  | .pref w => Sys2Proof.Machine.execPref w s
  | .inval w => Sys2Proof.Machine.execInval w s
  | .invalL2Complete core slot => Sys2Proof.Machine.execInvalL2Complete core slot s
  | .hwld w => Sys2Proof.Machine.execHwld w s
  | .hpassG w => Sys2Proof.Machine.execHpassG w s
  | .hpassX w => Sys2Proof.Machine.execHpassX w s
  | .hdrain w => Sys2Proof.Machine.execHdrain w s
  | .hzero w => Sys2Proof.Machine.execHzero w s
  | .hsplit w => Sys2Proof.Machine.execHsplit w s
  | .hpatch w => Sys2Proof.Machine.execHpatch w s
  | .hoopFeederFill core slot pc => Sys2Proof.Machine.execHoopFeederFill core slot pc s
  | .hoopOpStart core hoop sub index => Sys2Proof.Machine.execHoopOpStart core hoop sub index s
  | .hwldComplete core hoop sub parityFault => Sys2Proof.Machine.execHwldComplete core hoop sub parityFault s
  | .hpatchComplete core hoop sub parityFault => Sys2Proof.Machine.execHpatchComplete core hoop sub parityFault s
  | .hpassComplete core hoop sub parityFault => Sys2Proof.Machine.execHpassComplete core hoop sub parityFault s
  | .hdrainComplete core hoop sub => Sys2Proof.Machine.execHdrainComplete core hoop sub s
  | .hoopExpBaseWrite core op => Sys2Proof.Machine.execHoopExpBaseWrite core op s
  | .shuttleDescriptorStart core engine queue => Sys2Proof.Machine.execShuttleDescriptorStart core engine queue s
  | .shuttleWriteLand core engine queue granule => Sys2Proof.Machine.execShuttleWriteLand core engine queue granule s
  | .shuttleDescriptorDone core engine queue => Sys2Proof.Machine.execShuttleDescriptorDone core engine queue s
  | .shuttleSourceComplete core engine queue => Sys2Proof.Machine.execShuttleSourceComplete core engine queue s
  | .shuttleFault core engine queue => Sys2Proof.Machine.execShuttleFault core engine queue s
  | .shtCntWrite core n op => Sys2Proof.Machine.execShtCntWrite core n op s
  | .storeBufferEntryTimeout core index => Sys2Proof.Machine.execStoreBufferEntryTimeout core index s
  | .storeBufferWriteback core => Sys2Proof.Machine.execStoreBufferWriteback core s
  | .ptnXlatInval part agent => Sys2Proof.Machine.execPtnXlatInval part agent s
  | .xlatInvalComplete part => Sys2Proof.Machine.execXlatInvalComplete part s
  | .ptnScratchModeWrite part op => Sys2Proof.Machine.execPtnScratchModeWrite part op s
  | .strIlvWrite die op => Sys2Proof.Machine.execStrIlvWrite die op s
  | .strArbWrite die op => Sys2Proof.Machine.execStrArbWrite die op s
  | .strandReadCrcFailure addr outcome => Sys2Proof.Machine.execStrandReadCrcFailure addr outcome s
  | .strandRecalibration strand cause => Sys2Proof.Machine.execStrandRecalibration strand cause s
  | .patrolScrubRead addr find => Sys2Proof.Machine.execPatrolScrubRead addr find s
  | .lpddr6PowerDown channel => Sys2Proof.Machine.execLpddr6PowerDown channel s
  | .request fn input params => Sys2Proof.Machine.execRequest fn input params s
  | .tokenisationComplete seq => Sys2Proof.Machine.execTokenisationComplete seq s
  | .sideAreaAllocated seq => Sys2Proof.Machine.execSideAreaAllocated seq s
  | .cuttingListPublish part t => Sys2Proof.Machine.execCuttingListPublish part t s
  | .obStepDone part op t => Sys2Proof.Machine.execObStepDone part op t s
  | .stepLimitExpiry part t => Sys2Proof.Machine.execStepLimitExpiry part t s
  | .statusWordRefresh live t => Sys2Proof.Machine.execStatusWordRefresh live t s
  | .obPeekSelWrite op => Sys2Proof.Machine.execObPeekSelWrite op s
  | .obPtnCfgWrite part op => Sys2Proof.Machine.execObPtnCfgWrite part op s
  | .demotionPageCopy seq => Sys2Proof.Machine.execDemotionPageCopy seq s
  | .resumeStart seq => Sys2Proof.Machine.execResumeStart seq s
  | .promotionPageCopy seq => Sys2Proof.Machine.execPromotionPageCopy seq s
  | .dlmAcctSelWrite op => Sys2Proof.Machine.execDlmAcctSelWrite op s
  | .acctClearAll agent => Sys2Proof.Machine.execAcctClearAll agent s
  | .acctClearClient agent client => Sys2Proof.Machine.execAcctClearClient agent client s
  | .dlmPtnCfgWrite part op => Sys2Proof.Machine.execDlmPtnCfgWrite part op s
  | .predictionClear part agent => Sys2Proof.Machine.execPredictionClear part agent s
  | .cancel fn => Sys2Proof.Machine.execCancel fn s
  | .preempt fn => Sys2Proof.Machine.execPreempt fn s
  | .resume fn => Sys2Proof.Machine.execResume fn s
  | .reduce fn => Sys2Proof.Machine.execReduce fn s
  | .fit fn => Sys2Proof.Machine.execFit fn s
  | .calibrate fn => Sys2Proof.Machine.execCalibrate fn s
  | .calibrateUnitComplete => Sys2Proof.Machine.execCalibrateUnitComplete s
  | .measure fn => Sys2Proof.Machine.execMeasure fn s
  | .tangle fn => Sys2Proof.Machine.execTangle fn s
  | .fwActivate fn read => Sys2Proof.Machine.execFwActivate fn read s
  | .fwActivateStartTimeout t => Sys2Proof.Machine.execFwActivateStartTimeout t s
  | .ringTailWrite fn ring op => Sys2Proof.Machine.execRingTailWrite fn ring op s
  | .ringEntryRead fn ring read => Sys2Proof.Machine.execRingEntryRead fn ring read s
  | .hifRingBaseWrite fn ring op => Sys2Proof.Machine.execHifRingBaseWrite fn ring op s
  | .hifRingCfgWrite fn ring op => Sys2Proof.Machine.execHifRingCfgWrite fn ring op s
  | .hifBar2BaseWrite op => Sys2Proof.Machine.execHifBar2BaseWrite op s
  | .bar2Read fn offset len tlp => Sys2Proof.Machine.execBar2Read fn offset len tlp s
  | .bar2Write fn offset bytes tlp => Sys2Proof.Machine.execBar2Write fn offset bytes tlp s
  | .configRequest req => Sys2Proof.Machine.execConfigRequest req s
  | .vfFlr vf => Sys2Proof.Machine.execVfFlr vf s
  | .pf0Flr => Sys2Proof.Machine.execPf0Flr s
  | .d3hotEntry fn => Sys2Proof.Machine.execD3hotEntry fn s
  | .claimOwner r key => Sys2Proof.Machine.execClaimOwner r key s
  | .setOwner r key => Sys2Proof.Machine.execSetOwner r key s
  | .setPolicy r policy => Sys2Proof.Machine.execSetPolicy r policy s
  | .setOperator r key => Sys2Proof.Machine.execSetOperator r key s
  | .advanceDebug r policy => Sys2Proof.Machine.execAdvanceDebug r policy s
  | .raiseSvn r target => Sys2Proof.Machine.execRaiseSvn r target s
  | .persistGeometry r => Sys2Proof.Machine.execPersistGeometry r s
  | .persistAlterations r => Sys2Proof.Machine.execPersistAlterations r s
  | .form r masks sealed_ drainMs t => Sys2Proof.Machine.execForm r masks sealed_ drainMs t s
  | .formDrainComplete => Sys2Proof.Machine.execFormDrainComplete s
  | .formDrainLimitExpiry t => Sys2Proof.Machine.execFormDrainLimitExpiry t s
  | .formScrubComplete => Sys2Proof.Machine.execFormScrubComplete s
  | .bind r part key => Sys2Proof.Machine.execBind r part key s
  | .unbind r part t => Sys2Proof.Machine.execUnbind r part t s
  | .unbindDrainComplete part => Sys2Proof.Machine.execUnbindDrainComplete part s
  | .unbindStepLimitExpiry part t => Sys2Proof.Machine.execUnbindStepLimitExpiry part t s
  | .unbindComplete part => Sys2Proof.Machine.execUnbindComplete part s
  | .grantClient r client part demotePages => Sys2Proof.Machine.execGrantClient r client part demotePages s
  | .revokeClient r client => Sys2Proof.Machine.execRevokeClient r client s
  | .importKey r client key => Sys2Proof.Machine.execImportKey r client key s
  | .setRemote r part sendEn admission => Sys2Proof.Machine.execSetRemote r part sendEn admission s
  | .debugOptin r permit => Sys2Proof.Machine.execDebugOptin r permit s
  | .readLedger r seq count => Sys2Proof.Machine.execReadLedger r seq count s
  | .writePattern r pattern lock => Sys2Proof.Machine.execWritePattern r pattern lock s
  | .getVersion m => Sys2Proof.Machine.execGetVersion m s
  | .getCapabilities m => Sys2Proof.Machine.execGetCapabilities m s
  | .negotiateAlgorithms m supported => Sys2Proof.Machine.execNegotiateAlgorithms m supported s
  | .getDigests m => Sys2Proof.Machine.execGetDigests m s
  | .getCertificate m certSlot offset len => Sys2Proof.Machine.execGetCertificate m certSlot offset len s
  | .challenge m certSlot nonce => Sys2Proof.Machine.execChallenge m certSlot nonce s
  | .getMeasurements m index => Sys2Proof.Machine.execGetMeasurements m index s
  | .keyExchange m certSlot mutualAuth key => Sys2Proof.Machine.execKeyExchange m certSlot mutualAuth key s
  | .finish m session hmacOk sigOk => Sys2Proof.Machine.execFinish m session hmacOk sigOk s
  | .heartbeat m session => Sys2Proof.Machine.execHeartbeat m session s
  | .keyUpdate m session => Sys2Proof.Machine.execKeyUpdate m session s
  | .endSession m session => Sys2Proof.Machine.execEndSession m session s
  | .spdmSessionTimeout session t => Sys2Proof.Machine.execSpdmSessionTimeout session t s
  | .linkDataBlockReceive port b => Sys2Proof.Machine.execLinkDataBlockReceive port b s
  | .linkIdleBlockReceive port b => Sys2Proof.Machine.execLinkIdleBlockReceive port b s
  | .ident port b => Sys2Proof.Machine.execIdent port b s
  | .lanes port b => Sys2Proof.Machine.execLanes port b s
  | .time port b t => Sys2Proof.Machine.execTime port b t s
  | .down x => Sys2Proof.Machine.execDown x s
  | .linkProgressTimeout port t => Sys2Proof.Machine.execLinkProgressTimeout port t s
  | .linkFecThreshold port uncorrectable => Sys2Proof.Machine.execLinkFecThreshold port uncorrectable s
  | .linkRetrainComplete port ownLanes => Sys2Proof.Machine.execLinkRetrainComplete port ownLanes s
  | .linkRetrainTimeout port t => Sys2Proof.Machine.execLinkRetrainTimeout port t s
  | .write port p => Sys2Proof.Machine.execWrite port p s
  | .count port p => Sys2Proof.Machine.execCount port p s
  | .ack port p => Sys2Proof.Machine.execAck port p s
  | .refuse port p => Sys2Proof.Machine.execRefuse port p s
  | .barrier port p => Sys2Proof.Machine.execBarrier port p s
  | .dead port p => Sys2Proof.Machine.execDead port p s
  | .probe port p => Sys2Proof.Machine.execProbe port p s
  | .probeReply port p => Sys2Proof.Machine.execProbeReply port p s
  | .probeTimer port t => Sys2Proof.Machine.execProbeTimer port t s
  | .peerDeadTimeout port t => Sys2Proof.Machine.execPeerDeadTimeout port t s
  | .unackedWriteTimeout etag dst t => Sys2Proof.Machine.execUnackedWriteTimeout etag dst t s
  | .wlkSysWrite op => Sys2Proof.Machine.execWlkSysWrite op s
  | .groupForm op t => Sys2Proof.Machine.execGroupForm op t s
  | .groupFormationCheck members greatest t => Sys2Proof.Machine.execGroupFormationCheck members greatest t s
  | .groupLeave leaver => Sys2Proof.Machine.execGroupLeave leaver s
  | .anchorTakeover t => Sys2Proof.Machine.execAnchorTakeover t s
  | .portEnable port op => Sys2Proof.Machine.execPortEnable port op s
  | .portDisable port op => Sys2Proof.Machine.execPortDisable port op s
  | .timeExchange t => Sys2Proof.Machine.execTimeExchange t s
  | .timeHoldExpiry t => Sys2Proof.Machine.execTimeHoldExpiry t s
  | .seamPost part op => Sys2Proof.Machine.execSeamPost part op s
  | .seamPostReadComplete part => Sys2Proof.Machine.execSeamPostReadComplete part s
  | .seamQueueHoldExpiry port t => Sys2Proof.Machine.execSeamQueueHoldExpiry port t s
  | .seamAdd port p t => Sys2Proof.Machine.execSeamAdd port p t s
  | .seamWrite port p t => Sys2Proof.Machine.execSeamWrite port p t s
  | .seamParam port p => Sys2Proof.Machine.execSeamParam port p s
  | .seamShareDeadline part bucket step t => Sys2Proof.Machine.execSeamShareDeadline part bucket step t s
  | .seamPublish part op => Sys2Proof.Machine.execSeamPublish part op s
  | .seamHeldResend part t => Sys2Proof.Machine.execSeamHeldResend part t s
  | .seamBoundary part op => Sys2Proof.Machine.execSeamBoundary part op s
  | .seamCommit part => Sys2Proof.Machine.execSeamCommit part s
  | .droopDetect island t => Sys2Proof.Machine.execDroopDetect island t s
  | .droopLimitLower island t => Sys2Proof.Machine.execDroopLimitLower island t s
  | .droopLimitRaise island t => Sys2Proof.Machine.execDroopLimitRaise island t s
  | .islandClockStop island t => Sys2Proof.Machine.execIslandClockStop island t s
  | .islandClockRestart island => Sys2Proof.Machine.execIslandClockRestart island s
  | .islandGate island => Sys2Proof.Machine.execIslandGate island s
  | .islandUngate island => Sys2Proof.Machine.execIslandUngate island s
  | .powerSample p => Sys2Proof.Machine.execPowerSample p s
  | .vfLimitStep avg1ms t => Sys2Proof.Machine.execVfLimitStep avg1ms t s
  | .vfPointChangeComplete island => Sys2Proof.Machine.execVfPointChangeComplete island s
  | .thermalSensorRead t junction stack heldUs => Sys2Proof.Machine.execThermalSensorRead t junction stack heldUs s
  | .clkTimeAdjWrite op => Sys2Proof.Machine.execClkTimeAdjWrite op s
  | .calAltSelWrite op => Sys2Proof.Machine.execCalAltSelWrite op s
  | .calAltValueWrite op => Sys2Proof.Machine.execCalAltValueWrite op s
  | .pwrModuleCapWrite op => Sys2Proof.Machine.execPwrModuleCapWrite op s
  | .pwrIdleWrite op => Sys2Proof.Machine.execPwrIdleWrite op s
  | .pwrPtnWrite part op => Sys2Proof.Machine.execPwrPtnWrite part op s
  | .measureLatch fn tag t => Sys2Proof.Machine.execMeasureLatch fn tag t s
  | .measureImageWritten fn tag => Sys2Proof.Machine.execMeasureImageWritten fn tag s
  | .msrResetWrite op => Sys2Proof.Machine.execMsrResetWrite op s
  | .tangleLatch t => Sys2Proof.Machine.execTangleLatch t s
  | .tangleGraphWritten => Sys2Proof.Machine.execTangleGraphWritten s
  | .powerBlockUpdate mw mv ma j tmax tdie tstack t => Sys2Proof.Machine.execPowerBlockUpdate mw mv ma j tmax tdie tstack t s
  | .quarantineCoreReset core t => Sys2Proof.Machine.execQuarantineCoreReset core t s
  | .fitUnitHold t => Sys2Proof.Machine.execFitUnitHold t s
  | .fitHoldTimeout t => Sys2Proof.Machine.execFitHoldTimeout t s
  | .fitTestComplete passed failedStep lanes => Sys2Proof.Machine.execFitTestComplete passed failedStep lanes s
  | .powerInputOn bankOk => Sys2Proof.Machine.execPowerInputOn bankOk s
  | .powerLoss => Sys2Proof.Machine.execPowerLoss s
  | .perstAssert forNs => Sys2Proof.Machine.execPerstAssert forNs s
  | .perstDeassert => Sys2Proof.Machine.execPerstDeassert s
  | .bootPhaseComplete bridgesOk strandsFailed lpddrRate t => Sys2Proof.Machine.execBootPhaseComplete bridgesOk strandsFailed lpddrRate t s
  | .bootPhaseTimeout t => Sys2Proof.Machine.execBootPhaseTimeout t s
  | .thmResetArm op t => Sys2Proof.Machine.execThmResetArm op t s
  | .thmResetGo op t => Sys2Proof.Machine.execThmResetGo op t s
  | .thmResetArmExpiry t => Sys2Proof.Machine.execThmResetArmExpiry t s
  | .thimbleWatchdogExpiry sinceUs => Sys2Proof.Machine.execThimbleWatchdogExpiry sinceUs s
  | .setEndpointId fault eid => Sys2Proof.Machine.execSetEndpointId fault eid s
  | .getEndpointId fault => Sys2Proof.Machine.execGetEndpointId fault s
  | .getMctpVersionSupport fault => Sys2Proof.Machine.execGetMctpVersionSupport fault s
  | .getMessageTypeSupport fault => Sys2Proof.Machine.execGetMessageTypeSupport fault s
  | .getTid fault => Sys2Proof.Machine.execGetTid fault s
  | .getPldmVersion fault pldmType => Sys2Proof.Machine.execGetPldmVersion fault pldmType s
  | .getPldmTypes fault => Sys2Proof.Machine.execGetPldmTypes fault s
  | .getPldmCommands fault pldmType => Sys2Proof.Machine.execGetPldmCommands fault pldmType s
  | .getSensorReading fault sensor => Sys2Proof.Machine.execGetSensorReading fault sensor s
  | .getStateSensorReadings fault sensor => Sys2Proof.Machine.execGetStateSensorReadings fault sensor s
  | .setStateEffecterStates fault effecter state => Sys2Proof.Machine.execSetStateEffecterStates fault effecter state s
  | .getPdr fault handle => Sys2Proof.Machine.execGetPdr fault handle s
  | .setEventReceiver fault receiver enable => Sys2Proof.Machine.execSetEventReceiver fault receiver enable s
  | .pldmFirmwareUpdate fault cmd => Sys2Proof.Machine.execPldmFirmwareUpdate fault cmd s
  | .bypass => Sys2Proof.Machine.execBypass s
  | .idcode => Sys2Proof.Machine.execIdcode s
  | .samplePreload pins => Sys2Proof.Machine.execSamplePreload pins s
  | .extest => Sys2Proof.Machine.execExtest s
  | .clamp => Sys2Proof.Machine.execClamp s
  | .highz => Sys2Proof.Machine.execHighz s
  | .regulatorOvertemp regulator heldUs => Sys2Proof.Machine.execRegulatorOvertemp regulator heldUs s
  | .regulatorOvervoltage regulator heldUs => Sys2Proof.Machine.execRegulatorOvervoltage regulator heldUs s
  | .fwActivationComplete t => Sys2Proof.Machine.execFwActivationComplete t s
  | .completionTimeout fn ring seq => Sys2Proof.Machine.execCompletionTimeout fn ring seq s
  | .ideKm session m => Sys2Proof.Machine.execIdeKm session m s
  | .setdasa static dynamic => Sys2Proof.Machine.execSetdasa static dynamic s
  | .entdaa dynamic => Sys2Proof.Machine.execEntdaa dynamic s
  | .tapReset => Sys2Proof.Machine.execTapReset s
  | .droopEnd island t => Sys2Proof.Machine.execDroopEnd island t s
  | .revokeClientComplete client => Sys2Proof.Machine.execRevokeClientComplete client s

end Sys2Proof.Machine
end

