-- ==== Sys2Proof/Machine/Ambient.lean ====
section
/-! DEFINITION. Faults of memory arrays that come of themselves, which the table gives no row: corrected and uncorrectable data in
every tier, parity of L1 and L2, writes dropped at a stack, parity of hoop planes and banks (R183, R211, R222, R226, R233, R234, R238,
R243). An idle step takes them from a free value (log entry 1). -/

namespace Sys2Proof.Machine

/-- A corrected event of a unit that is no part of memory's own tiers: its count and record (R222, R226, R238). -/
def State.correctedIn (s : State) (rec_ unit a : Nat) : State :=
  (s.aonAdd rec_ 1 1).record .corrected .module unit 0x05 1 noPart (toBytes 8 a)

/-- A parity error of L1D, or L1I: the line is invalid, and the core counts a corrected event (R222). -/
def State.l1dParity (s : State) (c line : Nat) : State :=
  if (s.l1dWay c line).isSome then (s.dropL1d c line).correctedIn (recCore c) (unitId 1 c) (line * 128) else s
def State.l1iParity (s : State) (c line : Nat) : State :=
  if ((s.core c).l1i.set (l1Set (line * 128))).ways.any fun w => w.2.tag == line then
    (s.dropL1i c line).correctedIn (recCore c) (unitId 1 c) (line * 128)
  else s

/-- What memory holds under a dirty line that is lost: its earlier data (R243). -/
def State.restoreLine (s : State) (w : Way) : State :=
  let s := s.setBytes (w.tag * 128) w.mem
  if isLpd (w.tag * 128) then s.modMem fun m => { m with lineKey := tset 0 m.lineKey w.tag w.memKey } else s

/-- A line of L2 that cannot be used any more leaves it, after the L1D copies; of a dirty one memory keeps its earlier data, and a
partition-class record names it, module-class under owner tag 16 (R226, R243). `tag` says that the tag's parity told. -/
def State.l2Lost (s : State) (line : Nat) (tag : Bool) : State :=
  match s.lineAt line with
  | none => s
  | some w =>
    let x := s.sliceOf (line * 128)
    let s := ((s.unshare w).dropLine line).aonAdd (recSlice x) 2 1
    let detail := toBytes 8 (line * 128) ++ [BitVec.ofNat 8 w.owner]
    let part := if w.owner < 16 then w.owner else noPart
    if w.dirty then
      ((s.restoreLine w).aonAdd (recSlice x) 3 1).record (if w.owner < 16 then .partition else .module) .module (unitId 4 x) 0x05 3 part detail
    else s.record .corrected .module (unitId 4 x) 0x05 (if tag then 6 else 2) part detail

/-- A write to a stack whose resends all failed: dropped, so that the block keeps what it held, with a partition-class record (R234). Only
the latest write of a block that L2 does not hold is under way. -/
def State.writeDropped (s : State) (i : Nat) : State :=
  match s.mem.writes[i]? with
  | none => s
  | some (a, old, owner) =>
    if (s.lineAt (a / 128)).isSome || (s.mem.writes.take i).any (fun w => w.1 == a) then s
    else
      let s := (s.setBytes a old).modMem fun m => { m with writes := m.writes.filter fun w => w.1 != a }
      s.record (if owner < 16 then .partition else .module) .module (s.tierUnit a) 0x05 4 (if owner < 16 then owner else noPart)
        (toBytes 8 a ++ [BitVec.ofNat 8 owner])

/-- Whether memory below the caches is what a read of an address would reach. -/
def State.inMemory (s : State) (a : Nat) : Bool := (isStack a || s.lpdHere a || isScratch a) && (s.lineAt (a / 128)).isNone

/-- One fault, by number, at a place that two numbers give; none for any other number. -/
def State.ambientFault (s : State) (kind a b : Nat) : State :=
  match kind with
  | 1 => if s.inMemory a then s.correctedAt a else s
  | 2 => if s.inMemory a then s.damageBlock a else s
  | 3 => s.l1dParity (a % 1024) b
  | 4 => s.l1iParity (a % 1024) b
  | 5 =>
    if (s.lineAt a).isSome then s.correctedIn (recSlice (s.sliceOf (a * 128))) (unitId 4 (s.sliceOf (a * 128))) (a * 128) else s
  | 6 => s.l2Lost a false
  | 7 => s.l2Lost a true
  | 8 => s.writeDropped a
  | 9 => s.planeParity (a % 1024) (b % 4) (b / 4 % 4) (b / 16 % 2)
  | 10 => s.bankParity (a % 1024) (b % 4) (b / 4 % 4) (b / 16 % 2) 0
  | _ => s

end Sys2Proof.Machine
end

