-- ==== Sys2Proof/Machine/Stalls.lean ====
section
/-! DEFINITION. What a counted slot of an engine counts as: busy, idle, or stalled under the lowest code of what then holds it back
(R503 to R506). The model counts the slots of its idle steps; over a time that a command's operand skips, the counts are free (log entry
24). -/

namespace Sys2Proof.Machine

/-- What a slot counts as (R504). -/
inductive SlotUse where
  | busy
  | idle
  | stalled (code : Nat)
  deriving DecidableEq, Repr

/-- The counter that a slot raises: 0 busy, 1 idle, 2 to 9 reasons 1 to 8. -/
def SlotUse.counter : SlotUse → Nat
  | .busy => 0
  | .idle => 1
  | .stalled code => code + 1

/-! ## The thread pipeline (R505, R506) -/

/-- What holds a thread of a running skein back, by its code; none where its group can issue. -/
def Core.laneCode (k : Core) (slot lane : Nat) : Option Nat :=
  let x := k.skein slot
  let pc := tget 0 x.pc lane
  if (x.knotWait.any fun w => w.1 == lane) || (x.knotHeld.any fun w => w.1 == lane) then some 6
  else if x.waits.any fun w => bit w.lanes lane && !w.satisfied then some 5
  else if x.stall.any (fun w => bit w.1 lane) || decide (1 < tget 0 x.backoff lane) then some 7
  else if bit x.invalHold lane then some 3
  else
    match x.wordAt pc with
    | none => some 1
    | some w =>
      if (decodeCause x.units w).isSome then none
      else if sourcePending x w then some 2
      else if !k.mRoom slot w.m then some (if w.m.mop == 0x10 && decide (k.mq.length < 64) then 7 else 3)
      else (k.hWaits slot pc w).map fun _ => 4

/-- The code of a skein: the lowest of those that hold its groups back; none where one of them can issue. -/
def Core.skeinCode (k : Core) (slot : Nat) : Option Nat :=
  let x := k.skein slot
  let codes := (lanesOf (x.lanes &&& ~~~x.exited)).map (k.laneCode slot)
  if codes.any (·.isNone) then none else lowest (codes.filterMap id)

/-- The slots of a core in STATE 2. -/
def Core.runningSlots (k : Core) : List Nat := (k.skeins.filter fun e => e.2.st == .running).map (·.1)

/-- A core's slot: idle without a skein in STATE 2, busy where a group can issue, else stalled under the lowest code among the skeins. -/
def Core.pipeSlot (k : Core) : SlotUse :=
  match k.runningSlots with
  | [] => .idle
  | l =>
    let codes := l.map k.skeinCode
    if codes.any (·.isNone) then .busy else .stalled ((lowest (codes.filterMap id)).getD 1)

/-! ## The other engines (R503, R505) -/

/-- The lowest of the codes that hold, or, where the model holds none of the conditions, a free one of n. -/
def stalledBy (codes : List Nat) (r n : Nat) (t : Dword) : SlotUse :=
  .stalled ((lowest codes).getD (Config.freeChoice (r * 2 ^ 64 + t.toNat) n % n + 1))

/-- The H-slot codes of the groups that wait on a hoop (R168). -/
def Core.hoopWaits (k : Core) (h : Nat) : List Nat :=
  k.runningSlots.flatMap fun slot =>
    let x := k.skein slot
    x.freeLanes.filterMap fun l =>
      let pc := tget 0 x.pc l
      (x.wordAt pc).bind fun w => if w.h.hop != 0 && w.h.hoop.toNat == h && k.readyButH slot w then k.hWaits slot pc w else none

/-- A hoop's slot: busy while a pass runs. -/
def Core.hoopSlot (k : Core) (h r : Nat) (t : Dword) : SlotUse :=
  let subs := (k.hoop h).subs
  let waits := k.hoopWaits h
  let queued := subs.any fun x => x.queue.any fun o => o.kind.isPass
  let loading := subs.any fun x => x.queue.any fun o => o.kind.isPass && x.loading o.plane.toNat
  if subs.any fun x => x.running.any fun o => o.kind.isPass then .busy
  else if !queued && waits.isEmpty then .idle
  else stalledBy (waits ++ if loading then [2] else []) r 6 t

/-- Whether a WRITE or COUNT of a descriptor waits at a port. -/
def State.waitsAtPort (s : State) (tag : Nat) : Bool :=
  s.wlk.ports.any fun p => p.queue.any fun k => (k.kind == 1 || k.kind == 2) && k.src == s.wlk.moduleId && k.etag.toNat == tag

/-- A shuttle engine's slot: busy while granules are to be issued, or to land here. -/
def State.shuttleSlot (s : State) (c e r : Nat) (t : Dword) : SlotUse :=
  let started := (List.range 4).flatMap fun q => (((((s.core c).engine e).queue q).entries).filter fun x => x.started).map fun x => (q, x)
  if started.isEmpty then .idle
  else if started.any fun x => (x.2.fault.isNone && decide (x.2.issued < x.2.desc.grans)) || !x.2.flight.isEmpty then .busy
  else
    let out := started.filter fun x => !x.2.out.isEmpty
    stalledBy ((if out.any fun x => s.waitsAtPort (shuttleTag c e x.1 x.2.slotNo) then [4] else [])
      ++ (if out.any fun x => x.2.desc.scntEn then [5] else [])) r 5 t

/-- A strand's slot: the one request that the model queues there is a block's re-read after a CRC failure. -/
def Strand.slot (x : Strand) : SlotUse := if x.retry.isNone then .idle else .stalled 5

/-- A port's slot: what waits is sent as soon as nothing holds it back. -/
def Port.slot (p : Port) (r : Nat) (t : Dword) : SlotUse :=
  let waits := !p.queue.isEmpty
  if !waits && p.seamQ.isEmpty then .idle
  else stalledBy ((if waits && p.st == .up && decide (p.retry.length < 512) then [1] else [])
    ++ (if waits && decide (512 ≤ p.retry.length) then [2] else [])
    ++ (if p.st == .retraining || p.st == .down then [4] else []) ++ (if !p.seamQ.isEmpty then [5] else [])) r 6 t

/-- The use of the present slot of a record's engine. -/
def State.slotUse (s : State) (r : Nat) : SlotUse :=
  let (cls, i, _) := recUnit r
  let t := s.time.now
  match cls with
  | 1 => (s.core i).pipeSlot
  | 2 => (s.core (i / 4)).hoopSlot (i % 4) r t
  | 3 => s.shuttleSlot (i / 2) (i % 2) r t
  | 5 => (tget ({} : Strand) s.mem.strands i).slot
  | 7 => (s.port i).slot r t
  | _ => .idle

/-! ## Counting -/

/-- The counted slots of a record from a time to now: island cycles, or burst and block slots, whose number is free. -/
def State.slotsSince (s : State) (r : Nat) (from_ : Dword) : Nat :=
  match recIsland r with
  | some i =>
    if !(s.island i).st.clocked then 0
    else if (recUnit r).2.2.any (3 ≤ ·) then Config.burstSlots r s.time.now - Config.burstSlots r from_
    else Config.edges i s.time.now - Config.edges i from_
  | none => 0

/-- A class's counters after a time in which its slots were counted: the free spans leave that time out. -/
def ClassRun.counted (c : ClassRun) (from_ to_ : Dword) (adds : List (Nat × Nat)) : ClassRun :=
  match c.since with
  | none => c
  | some a =>
    { c with
      runs := if a < from_ then c.runs ++ [(a, from_)] else c.runs
      since := some to_
      counts := adds.foldl (fun m e => tmod 0 m e.1 fun x => x + BitVec.ofNat 48 e.2) c.counts }

/-- What the cores of partition p add to its record: their pipelines' slots, and the busy slots of their hoops (R508). -/
def State.ptnSlots (s : State) (from_ : Dword) (p : Nat) : List (Nat × Nat) :=
  (coresOf (s.part p).quads).flatMap fun c =>
    let n := s.slotsSince (recCore c) from_
    let place := match s.slotUse (recCore c) with
      | .busy => 0
      | .idle => 1
      | .stalled _ => 10
    let hoops := (List.range 4).filter fun h => s.slotUse (recHoop (c * 4 + h)) == .busy
    ((11549 + p) * 16 + place, n) :: hoops.map fun _ => ((11549 + p) * 16 + 11, n)

/-- The slots since a time counted for every enabled class, and for the partitions (R504, R506 to R508). -/
def State.countSlots (s : State) (from_ : Dword) : State :=
  if from_ == s.time.now then s
  else
    s.modMsr fun m => { m with
      ptnRun := m.ptnRun.counted from_ s.time.now ((List.range 16).flatMap fun p => s.ptnSlots from_ p)
      classes := ((List.range 5).zip m.classes).map fun c =>
        let recs := (List.range recCount).filter fun r => (recUnit r).2.2 == some c.1
        { c.2 with cur := c.2.cur.counted from_ s.time.now (recs.map fun r => (r * 16 + (s.slotUse r).counter, s.slotsSince r from_)) } }

end Sys2Proof.Machine
end

