-- ==== Sys2Proof/Machine/Idle.lean ====
section
/-! DEFINITION. What the block does while no command waits: a nanosecond of global time passes, M-slot operations that may start do
so, the engines' slots are counted, prefetches fill, the Order Book engine finishes the updates of its steps, and arrays may fault (log entry 1). -/

namespace Sys2Proof.Machine

/-- One idle step: global time advances by 1 ns while it runs, and the slots in it are counted (R482, R504); each core's oldest
prefetch fills (R229), and its M-slot queue starts what may start (R113); steps in PHASE 3 take their updates (R330, log entry 90);
and an array faults or does not. -/
def State.idle (s : State) : State :=
  let s := s.tick.countSlots s.time.now
  let e := Config.ambient s.time.free
  let s := s.each (s.cores.map (·.1)) fun s c => (s.prefDone c).drainMq c
  let s := s.each (List.range 16) State.stepUpdate
  (s.bump.ambientFault e.1 e.2.1 e.2.2).settle

end Sys2Proof.Machine
end

