-- ==== Sys2Proof/Machine/Terms.lean ====
section
/-! DEFINITION. Words in which the statements about the block are made: conditions on a state, and results as the rules give
them. -/

namespace Sys2Proof.Machine

/-! ## Management bus (R555, R565) -/

/-- A message is handed on: the bus answers, and the message is among the first 1,000 of its second of global time. -/
def State.TakesMsg (s : State) : Prop :=
  s.mgmtUp = true ∧ (s.mgmt.second = s.now / 1000000000 → s.mgmt.count < 1000)

/-- The state with one more message counted in the present second. -/
def State.msgCounted (s : State) : State :=
  { s with mgmt := { s.mgmt with
      second := s.now / 1000000000
      count := if s.mgmt.second = s.now / 1000000000 then s.mgmt.count + 1 else 1 } }

/-- The answer to an MCTP control message sent, and to a PLDM command with its completion code. -/
def State.mctpAnswer (s : State) (cmd : Byte) (bytes : List Byte) : State :=
  { s with mgmt := { s.mgmt with out := .mctp cmd bytes :: s.mgmt.out } }
def State.pldmAnswer (s : State) (type cmd code : Byte) (bytes : List Byte) : State :=
  { s with mgmt := { s.mgmt with out := .pldm type cmd code bytes :: s.mgmt.out } }

/-! ## Module reset (R551, R552) -/

/-- What a module reset with a cause leaves of a state: volatile state at its reset values, global time stopped at 0, a new module
key; lifetime storage, the flash but for what the Thimble ROM itself writes, and the test access port as they were. -/
def State.ResetTo (s t : State) (cause : BitVec 4) : Prop :=
  t.boot.cause = cause ∧ t.boot.phase = 0 ∧ t.boot.hold = false ∧ t.time.running = false ∧ t.time.now = 0 ∧
  t.pending = s.pending ∧ t.tap = s.tap ∧
  t.cores = [] ∧ t.mem = {} ∧ t.ob = {} ∧ t.wlk = {} ∧ t.seam = {} ∧ t.islands = [] ∧ t.cal = {} ∧
  t.thm.otp = s.thm.otp ∧ t.thm.flash.ledger = s.thm.flash.ledger ∧ t.thm.flash.policy = s.thm.flash.policy ∧
  t.thm.flash.alters = s.thm.flash.alters ∧ t.thm.flash.geom = s.thm.flash.geom ∧
  t.thm.flash.quarCores = s.thm.flash.quarCores ∧ t.thm.flash.banks = s.thm.flash.banks ∧
  t.thm.sessions = [] ∧ t.thm.clients = [] ∧ t.thm.operatorKey = none ∧ t.thm.moduleKey = s.thm.moduleKey + 1

/-- What the Thimble ROM's check of the banks finds, written into them (R560). -/
def State.checkedBanks (s : State) (ok : List Bool) : State :=
  { s with thm := { s.thm with flash := { s.thm.flash with
      banks := (List.range 2).map fun n =>
        { nth {} s.thm.flash.banks n with thimbleOk := (nth {} s.thm.flash.banks n).thimbleOk && nth true ok n } } } }

/-- What the writing of a record can change: the logs, the always-on counters, the partitions' counts of records, and what is sent
to the host and to the management bus. -/
def State.RecordOnly (s t : State) : Prop :=
  t = { s with
    err := t.err, msr := { s.msr with aon := t.msr.aon }, ptn := t.ptn
    hif := { s.hif with out := t.hif.out, msix := t.hif.msix }, mgmt := { s.mgmt with out := t.mgmt.out } }

/-- One event with a record of a class: written into the module log, or beyond the limit of its second counted as suppressed (R531). -/
def State.RecordIn (s t : State) (cls : RecCls) : Prop :=
  (t.err.written = s.err.written + 1 ∧ ∃ e ∈ t.err.log, e.2.cls = cls.code ∧ e.2.time = s.time.now) ∨
    (t.err.written = s.err.written ∧ t.err.suppressed = satAdd s.err.suppressed 1)

/-- Nothing happened but that one event of class absorbed was recorded. -/
def State.Absorbs (s t : State) : Prop := s.RecordOnly t ∧ s.RecordIn t .absorbed

/-- No core changed, but for lines that left its L1D because they were written (R223). -/
def State.SameCores (s t : State) : Prop := ∀ c, t.core c = { s.core c with l1d := (t.core c).l1d }

/-! ## Islands (R477 to R490) -/

/-- Only an island changed, and it is now `k`. -/
def State.IslandTo (s t : State) (i : Nat) (k : Island) : Prop :=
  t = { s with islands := t.islands } ∧ t.island i = k ∧ ∀ j, j ≠ i → t.island j = s.island j

/-- An island put into a state at this moment, its cycle counter settled. -/
def State.islandIn (s : State) (i : Nat) (st : CSt) : Island :=
  { s.island i with st := st, cyc := s.cycles i, cycFrom := s.time.now }

/-! ## Ring entries (R369 to R378) -/

/-- The oldest command entry of a function is `e`; it carries the opcode and passes the checks of its fields. -/
def State.Takes (s : State) (fn op : Nat) (codes : State → InEntry → List Nat) (e : InEntry) : Prop :=
  s.front fn 1 = some e ∧ leAt e.bytes 0 1 = op ∧ codes (s.dropFront fn 1) e = []

/-- The status word of an entry as it goes to the host: STATE, CODE, no flag, COUNT 0. -/
def InEntry.word (e : InEntry) (state code : Nat) : HostOut :=
  .write e.fn e.statusAddr (toBytes 8 (statusWord state 0 code e.tag 0).toNat)

/-- Status words of an entry, in the order in which they were written, stand among what has gone to the host since. -/
def State.Wrote (s t : State) (e : InEntry) (words : List (Nat × Nat)) : Prop :=
  ∃ l, t.hif.out = l ++ s.hif.out ∧ (words.map fun w => e.word w.1 w.2).reverse.Sublist l

/-! ## Requests to the Thimble (R395 to R399, R417) -/

/-- A request comes in an established session whose requester holds a role that may make it; its opcode is no reserved one, its
reserved bytes are zero. -/
def State.Asked (s : State) (r : ThimbleReq) (allowed : Role → Bool) (role : Role) : Prop :=
  r.reservedOp = none ∧ r.reservedZero = true ∧ ∃ x, s.session r.session = some x ∧ (s.roles x).find? allowed = some role

/-- The response of a request with its result; and what of the Thimble a request that is not ledgered leaves as it was. -/
def State.Responds (s t : State) (r : ThimbleReq) (op code : Nat) : Prop :=
  t.thm.out = .result (BitVec.ofNat 8 op) r.reqId (BitVec.ofNat 8 code) [] :: s.thm.out

/-- One entry joined the ledger: its number, the time, the opcode, the result. -/
def State.Ledgers (s t : State) (op result : Nat) : Prop :=
  ∃ e, t.thm.flash.ledger = e :: s.thm.flash.ledger ∧ e.seq = s.thm.flash.ledger.length ∧ e.time = s.time.now ∧
    e.opcode = BitVec.ofNat 8 op ∧ e.result = BitVec.ofNat 8 result

/-! ## Links (R421 to R437) -/

/-- Every port but some takes packets, so no module of the shape is out of reach. -/
def State.Connected (s : State) (but : Option Nat) : Prop := ∀ q < 12, some q ≠ but → s.usable q = true

/-- A packet of a kind stands at a port of this module, for this module, and passes the checks that every receiver makes. -/
def State.Arrives (s : State) (port : Nat) (p : Packet) (kind : Nat) : Prop :=
  port < 12 ∧ p.kind.toNat = kind ∧ p.dst = s.wlk.moduleId ∧ s.checkPacket port p = (s, true)

/-- A good block whose header asks for nothing: no acknowledgement, no NAK, no credit; and one that carries no packet either. -/
def quietBlock (b : Block) : Prop := blockOk b = true ∧ b.ackv = false ∧ b.nak = false ∧ b.credits = 0
def bareBlock (b : Block) : Prop := quietBlock b ∧ b.packets = []

/-- What the anchor asks of the member with a local ID: its FORM within 1 s of the anchor's, the same table, shape and image, and a route
to the anchor through members only (R438). -/
def State.Agrees (s : State) (members : List (Option MemberForm)) (i : Nat) : Prop :=
  ∃ a m, nth none members 0 = some a ∧ nth none members i = some m ∧ m.at_.toNat ≤ a.at_.toNat + 1000000000 ∧
    a.at_.toNat ≤ m.at_.toNat + 1000000000 ∧ m.table = s.members ∧ m.shape = s.wlk.shape ∧ m.image = s.ob.image.map (·.id) ∧
    ∀ id ∈ s.wlk.wayTo 400 (s.member i) (s.member 0), id ∈ s.members

/-- A module on its own: outside any group, without a reduction, and with no core that holds anything. -/
def State.Alone (s : State) : Prop :=
  s.grouped = false ∧ (∀ p, (s.seamPart p).reduce = none) ∧ s.cores = [] ∧ s.wlk.deadPending = []

/-- The entries of a shuttle queue. -/
def State.entriesOf (s : State) (c e q : Nat) : List ShEntry := (((s.core c).engine e).queue q).entries

/-! ## Instruction words (R45 to R50, R81 to R87) -/

/-- A word that Needle selects, decoded where its group stands, with no cause at decode. -/
def State.Issues (s : State) (i : Issue) : Prop :=
  s.selected i = true ∧ (s.skein i.core.toNat i.slot.toNat).wordAt i.pc = some i.word ∧
    decodeCause (s.skein i.core.toNat i.slot.toNat).units i.word = none ∧ s.wlk.deadPending = []

/-- The group of an issue has gone on: its active threads to their next instruction, the others past this one; no register is
written at issue. -/
def State.Moved (s u : State) (i : Issue) (next : Nat → Dword) : Prop :=
  let k := s.skein i.core.toNat i.slot.toNat
  let k' := u.skein i.core.toNat i.slot.toNat
  (u.core i.core.toNat).lastSlot = i.slot ∧ k'.x = k.x ∧ k'.u = k.u ∧ k'.p = k.p ∧
    (∀ l ∈ (s.grp i).lanes, tget 0 k'.pc l = if l ∈ (s.grp i).act then next l else i.pc + 32) ∧
    ∀ l, l ∉ (s.grp i).lanes → tget 0 k'.pc l = tget 0 k.pc l

/-- Nothing changed but one skein slot, its core's slot selected last, and the always-on counters. -/
def State.OnlySkein (s u : State) (c n : Nat) : Prop :=
  u = { s with cores := u.cores, msr := { s.msr with aon := u.msr.aon } } ∧ (∀ m, m ≠ n → u.skein c m = s.skein c m) ∧
    (∀ d, d ≠ c → u.core d = s.core d) ∧
    u.core c = { s.core c with skeins := (u.core c).skeins, lastSlot := (u.core c).lastSlot }

end Sys2Proof.Machine
end

