-- ==== Sys2Proof/Certificates/Slice0/Obligations.lean ====
section
/-! DEFINITION. The statements for the provers: what each family of commands does to each kind of state, what a step does, and what
every step keeps. The words they are made in are in Machine/Terms.lean. -/

open Sys2Proof Sys2Proof.Machine

/-- R562: a target that has no dynamic address takes one from SETDASA that names its static address, or from ENTDAA; one that has
an address, or is named by another static address, keeps what it has.
R562, R565: each MCTP control command, received whole while the bus answers, counts in its second and gets its answer; SET
ENDPOINT ID sets any EID but 0 and 0xFF. The bytes of an answer beyond those R562 numbers are PRESUMED (log entry 12).
R562, R563: each PLDM command of types 0 and 2, received whole while the bus answers, gets its answer: the types 0, 2 and 5,
the readings of sensors 1 to 8, PHASE and MODULE_FAULT as sensors 9 and 10, the event receiver; effecter 1 set to state 2 resets
the module with cause 2. Bytes that the manual does not number are free or PRESUMED (log entry 12). -/
def Obligations.ManagementCommandsAnswered : Prop :=
  (((∀ (static dynamic : BitVec 7) (s : State), s.mgmtUp = true → s.mgmt.dynAddr = none →
    static = 0x50#7 + s.mgmt.strap.setWidth 7 →
    exec (.setdasa static dynamic) s = .next { s with mgmt := { s.mgmt with dynAddr := some dynamic } }) ∧
  (∀ (dynamic : BitVec 7) (s : State), s.mgmtUp = true → s.mgmt.dynAddr = none →
    exec (.entdaa dynamic) s = .next { s with mgmt := { s.mgmt with dynAddr := some dynamic } }) ∧
  (∀ (static dynamic : BitVec 7) (s : State),
    s.mgmtUp = false ∨ s.mgmt.dynAddr.isSome = true ∨ static ≠ 0x50#7 + s.mgmt.strap.setWidth 7 →
    exec (.setdasa static dynamic) s = .next s) ∧
  (∀ (dynamic : BitVec 7) (s : State), s.mgmtUp = false ∨ s.mgmt.dynAddr.isSome = true →
    exec (.entdaa dynamic) s = .next s)) ∧
  (∀ s : State, s.TakesMsg →
    (∀ eid : Byte, eid ≠ 0 → eid ≠ 0xFF →
      exec (.setEndpointId .none eid) s =
        .next (State.mctpAnswer { s.msgCounted with mgmt := { s.msgCounted.mgmt with eid := eid } } 1 [0, 0, eid, 0])) ∧
    (∀ eid : Byte, eid = 0 ∨ eid = 0xFF → exec (.setEndpointId .none eid) s = .next (s.msgCounted.mctpAnswer 1 [2])) ∧
    exec (.getEndpointId .none) s = .next (s.msgCounted.mctpAnswer 2 [0, s.mgmt.eid, 0, 0]) ∧
    exec (.getMctpVersionSupport .none) s = .next (s.msgCounted.mctpAnswer 4 [0, 1, 0xF1, 0xF3, 0xFF, 0]) ∧
    exec (.getMessageTypeSupport .none) s = .next (s.msgCounted.mctpAnswer 5 [0, 2, 1, 5]))) ∧
  (∀ s : State, s.TakesMsg →
    exec (.getTid .none) s = .next (s.msgCounted.pldmAnswer 0 2 0 (Config.mgmtBytes 0)) ∧
    (∀ type : Nat, exec (.getPldmVersion .none type) s = .next
      (if type = 0 ∨ type = 2 ∨ type = 5 then s.msgCounted.pldmAnswer 0 3 0 (Config.mgmtBytes (16 + type))
       else s.msgCounted.pldmAnswer 0 3 2 [])) ∧
    exec (.getPldmTypes .none) s = .next (s.msgCounted.pldmAnswer 0 4 0 [0x25, 0, 0, 0, 0, 0, 0, 0]) ∧
    (∀ type : Nat, exec (.getPldmCommands .none type) s = .next
      (if type = 0 ∨ type = 2 ∨ type = 5 then s.msgCounted.pldmAnswer 0 5 0 (Config.mgmtBytes (32 + type))
       else s.msgCounted.pldmAnswer 0 5 2 [])) ∧
    (∀ sensor : Nat, 1 ≤ sensor → sensor ≤ 8 → exec (.getSensorReading .none sensor) s = .next
      (s.msgCounted.pldmAnswer 2 0x11 0 (toBytes 4 (BitVec.ofInt 32 (tget 0 s.mgmt.readings sensor)).toNat))) ∧
    exec (.getStateSensorReadings .none 9) s = .next (s.msgCounted.pldmAnswer 2 0x21 0 (toBytes 1 s.boot.phase)) ∧
    exec (.getStateSensorReadings .none 10) s = .next (s.msgCounted.pldmAnswer 2 0x21 0 (toBytes 1 (if s.err.moduleFault then 1 else 0))) ∧
    exec (.setStateEffecterStates .none 1 2) s = .next ((s.msgCounted.pldmAnswer 2 0x39 0 []).moduleReset .request) ∧
    (∀ handle : Nat, exec (.getPdr .none handle) s = .next (s.msgCounted.pldmAnswer 2 0x51 0 (Config.pdr handle))) ∧
    (∀ (receiver : Nat) (enable : Bool), exec (.setEventReceiver .none receiver enable) s = .next
      (State.pldmAnswer { s.msgCounted with mgmt := { s.msgCounted.mgmt with receiver := if enable then some receiver else none } } 2 4 0 [])))

/-- R564: a PLDM firmware update runs from the request through the transfer, the check and the writing of a component; a command out
of that order is answered with COMMAND_NOT_EXPECTED, and CANCEL ends the update. What a check finds good is written to the bank that
does not boot. -/
def Obligations.FirmwareUpdateRuns : Prop :=
  ∀ s : State, s.TakesMsg →
    (s.mgmt.update.active = false → s.boot.act = none →
      exec (.pldmFirmwareUpdate .none .requestUpdate) s = .next
        (State.pldmAnswer { s.msgCounted with mgmt := { s.msgCounted.mgmt with update := { active := true } } } 5 0x10 0 [])) ∧
    (∀ target bytes : Nat, s.mgmt.update.active = true → s.mgmt.update.component = some target → s.mgmt.update.verified = none →
      exec (.pldmFirmwareUpdate .none (.transferData target bytes)) s = .next
        (State.pldmAnswer { s.msgCounted with mgmt := { s.msgCounted.mgmt with
          update := { s.mgmt.update with received := s.mgmt.update.received + bytes } } } 5 0x15 0 [])) ∧
    (∀ (target : Nat) (c : FwCheck), s.mgmt.update.active = true → s.mgmt.update.component = some target →
      s.mgmt.update.verified = some c →
      exec (.pldmFirmwareUpdate .none (.applyComponent target)) s = .next
        (State.pldmAnswer { s.msgCounted with
          thm := { s.thm with flash := { s.thm.flash with
            banks := upd s.thm.flash.banks (1 - s.thm.flash.bootBank) fun b => b.setImage target c.svn c.digest true } }
          mgmt := { s.msgCounted.mgmt with update := { s.mgmt.update with
            component := none, verified := none
            applied := (target, c) :: s.mgmt.update.applied.filter fun x => x.1 != target } } } 5 0x18 0 [])) ∧
    (s.mgmt.update.active = true →
      exec (.pldmFirmwareUpdate .none .cancelUpdate) s = .next
        (State.pldmAnswer { s.msgCounted with mgmt := { s.msgCounted.mgmt with update := {} } } 5 0x1D 0 [])) ∧
    (∀ cmd : FwUpdate, s.mgmt.update.active = false → cmd ≠ .requestUpdate → cmd ≠ .unsupported →
      ∃ t, exec (.pldmFirmwareUpdate .none cmd) s = .next t ∧
        t.mgmt.out.head? = some (.pldm 5 (updateCode cmd) 0x88 []) ∧ t.mgmt.update = s.mgmt.update ∧ t.thm = s.thm)

/-- R565: no management message acts while the bus does not answer; a message with a frame error is answered with NACK, one of a bad
MCTP header or type is dropped, and one past 1,000 in a second is dropped; each of these writes an absorbed record or counts as
suppressed, and none changes the endpoint ID, the event receiver or the update. -/
def Obligations.FaultyMessagesRefused : Prop :=
  ∀ (s : State) (fault : BusFault) (eid : Byte),
    (s.mgmtUp = false → exec (.setEndpointId fault eid) s = .next s) ∧
    (fault ≠ .none → ∃ t, exec (.setEndpointId fault eid) s = .next t ∧
      t.mgmt.eid = s.mgmt.eid ∧ t.mgmt.receiver = s.mgmt.receiver ∧ t.mgmt.update = s.mgmt.update ∧
      (s.TakesMsg → s.mgmt.receiver = none →
        t.mgmt.out = (if fault = .frame then [.nack] else if fault = .reservedField then [.mctp 1 [2]] else []) ++ s.mgmt.out) ∧
      (s.TakesMsg → t.err.written + t.err.suppressed.setWidth 32 ≠ s.err.written + s.err.suppressed.setWidth 32
        ∨ s.err.suppressed = 0xFFFF))

/-- R415, R566, R567: BYPASS, IDCODE and SAMPLE select their registers and drive no pin, and an internal scan instruction is BYPASS but
under the open debug policy; EXTEST, CLAMP and HIGHZ drive the pins while
PERST# holds reset, and loaded later act as BYPASS with an absorbed record; while one drives, the release of PERST# leaves the module
in reset until the port leaves that instruction; a reset of the port selects IDCODE and lets go of the pins. -/
def Obligations.TestPortInstructions : Prop :=
  (∀ s : State, s.boot.perst = true →
    ((s.tap.scanCode = true → s.thm.otp.debug ≠ 0) →
      exec .bypass s = .next { s with tap := { s.tap with ir := .bypass, driving := false, holds := false, tdo := 0 } }) ∧
    (s.thm.otp.debug = 0 → s.tap.scanCode = true → ∃ t, exec .bypass s = .next t ∧
      t = { s with tap := { s.tap with ir := .internalScan, driving := false, holds := false, tdo := t.tap.tdo }, time := t.time }) ∧
    exec .idcode s = .next { s with tap := { s.tap with ir := .idcode, driving := false, holds := false, tdo := 0x1B0B0A3D } } ∧
    (∀ pins : BitVec 64, exec (.samplePreload pins) s =
      .next { s with tap := { s.tap with ir := .sample, boundary := pins, driving := false, holds := false, tdo := pins.setWidth 32 } }) ∧
    exec .tapReset s = .next { s with tap := { s.tap with ir := .idcode, driving := false, holds := false } } ∧
    exec .extest s = .next { s with tap := { s.tap with ir := .extest, driving := true } } ∧
    exec .clamp s = .next { s with tap := { s.tap with ir := .clamp, driving := true } } ∧
    exec .highz s = .next { s with tap := { s.tap with ir := .highz, driving := true } }) ∧
  (∀ s : State, s.boot.perst = false → s.boot.phase ≠ 0 → ∀ c ∈ [Instr.extest, .clamp, .highz], ∃ t, exec c s = .next t ∧
    t.tap = { s.tap with ir := .bypass, driving := false, holds := false, tdo := 0 } ∧ s.RecordIn t .absorbed) ∧
  (∀ s : State, s.boot.perst = true → s.tap.driving = true → ∃ t, exec .perstDeassert s = .next t ∧
    t.boot = { s.boot with perst := false } ∧ t.tap = { s.tap with holds := true } ∧ t.time = s.time ∧ t.cores = s.cores ∧ t.mem = s.mem) ∧
  (∀ s : State, s.tap.holds = true → s.boot.perst = false → s.boot.phase = 0 → s.boot.hold = true → s.boot.recovery = false →
    ∀ c ∈ [Instr.bypass, .idcode, .tapReset], ∃ t, exec c s = .next t ∧ t.tap.holds = false ∧ t.time.running = true ∧ t.time.now = 0 ∧
      t.boot.phase = 1)

/-- R551, R552, R553, R554: what a module reset with a cause leaves: the state of reset, but for lifetime storage and flash. -/
def Obligations.ModuleResetRequests : Prop :=
  (∀ (op : RegOp) (t : Dword) (s : State), isWide op.agent = true → op.part = .full → bit op.value 8 = false →
    exec (.thmResetArm op t) s = .next ((s.at_ t).modBoot fun b =>
      { b with armedAt := if op.value.toNat % 256 = 0xA5 then some (s.at_ t).time.now else none })) ∧
  (∀ (op : RegOp) (t a : Dword) (s : State), isWide op.agent = true → op.part = .full → bit op.value 8 = true →
    s.boot.armedAt = some a → (s.at_ t).now ≤ a.toNat + 1000000 →
    ∃ u, exec (.thmResetGo op t) s = .next u ∧ s.ResetTo u 2) ∧
  (∀ (op : RegOp) (t : Dword) (s : State), isWide op.agent = true → op.part = .full → bit op.value 8 = true →
    (∀ a, s.boot.armedAt = some a → a.toNat + 1000000 < (s.at_ t).now) →
    ∃ u, exec (.thmResetGo op t) s = .next u ∧ (s.at_ t).Absorbs u) ∧
  (∀ (t a : Dword) (s : State), s.boot.armedAt = some a → a.toNat + 1000000 ≤ (s.at_ t).now →
    exec (.thmResetArmExpiry t) s = .next ((s.at_ t).modBoot fun b => { b with armedAt := none })) ∧
  (∀ (since : Nat) (s : State), s.boot.powered = true → 2000000 ≤ since →
    ∃ u x l, exec (.thimbleWatchdogExpiry since) s = .next u ∧ s.ResetTo u 3 ∧
      u.thm.flash.records = l ++ x :: s.thm.flash.records ∧ x.1 = RecCls.module.code ∧ x.2.2.2 = unitId 0x0D 0)

/-- R286, R551, R555, R578: the input at 44 V starts PHASE 0 from the Thimble ROM; a loss of power keeps nothing but lifetime
storage and flash; PERST# held for 100 µs resets the module, and under 1 µs does nothing; its release starts global time and
PHASE 1. -/
def Obligations.PowerAndPerst : Prop :=
  (∀ (ok : List Bool) (s : State), s.pwr.inputOk = false → ∃ t, exec (.powerInputOn ok) s = .next t ∧
    t.pwr.inputOk = true ∧ t.boot.powered = true ∧ t.boot.phase = 0 ∧ t.boot.hold = false ∧
    ((s.checkedBanks ok).bankOk s.thm.flash.bootBank = true →
      t.boot.recovery = s.boot.recovery ∧ t.thm.flash.bootBank = s.thm.flash.bootBank) ∧
    ((s.checkedBanks ok).bankOk s.thm.flash.bootBank = false → (s.checkedBanks ok).bankOk (1 - s.thm.flash.bootBank) = true →
      t.boot.recovery = s.boot.recovery ∧ t.thm.flash.bootBank = 1 - s.thm.flash.bootBank) ∧
    ((s.checkedBanks ok).bankOk s.thm.flash.bootBank = false → (s.checkedBanks ok).bankOk (1 - s.thm.flash.bootBank) = false →
      t.boot.recovery = true ∧ t.boot.lastCode = 1)) ∧
  (∀ s : State, s.boot.powered = true → ∃ t, exec .powerLoss s = .next t ∧
    t.boot.powered = false ∧ t.pwr.inputOk = false ∧ t.cores = [] ∧ t.mem = {} ∧ t.time.running = false ∧ t.tap = {} ∧
    t.thm.otp = s.thm.otp ∧ t.thm.flash = s.thm.flash) ∧
  (∀ (ns : Nat) (s : State), 100000 ≤ ns → ∃ t, exec (.perstAssert ns) s = .next t ∧ t.boot.perst = true ∧ s.ResetTo t 1) ∧
  (∀ (ns : Nat) (s : State), ns < 1000 → exec (.perstAssert ns) s = .next s) ∧
  (∀ s : State, s.boot.perst = true → s.boot.phase = 0 → s.boot.hold = true → s.boot.recovery = false →
    s.tap.holds = false → s.tap.driving = false →
    ∃ t, exec .perstDeassert s = .next t ∧ t.boot.perst = false ∧ t.time.running = true ∧ t.time.now = 0 ∧ t.boot.phase = 1)

/-- R555, R557, R559: each bring-up phase, done, starts the next: PHASE 0 waits for PERST#; PHASE 1 makes PF0's configuration space
ready, or fails with code 2 where a bridge did not train; PHASE 2 sets the interleave map, unless it is set, and marks the strands that failed; PHASE 3
zeroes stacked memory; PHASE 4 trains LPDDR6 or leaves it out; PHASE 5 forms the persisted geometry and ends in PHASE 6. A phase
that exceeds its limit leaves the module in PHASE 7 with its code. -/
def Obligations.BringUpPhases : Prop :=
  (∀ (b : Bool) (l : List (BitVec 12)) (r : Nat) (t : Dword) (s : State), s.boot.phase = 0 → s.boot.powered = true → s.boot.hold = false →
    s.boot.recovery = false → s.pwr.low = false → s.boot.perst = true →
    ∃ u, exec (.bootPhaseComplete b l r t) s = .next u ∧ u.boot.phase = 0 ∧ u.boot.hold = true) ∧
  (∀ (b : Bool) (l : List (BitVec 12)) (r : Nat) (t : Dword) (s : State), s.boot.phase = 1 →
    ∃ u, exec (.bootPhaseComplete b l r t) s = .next u ∧ u.hif.configReady = true ∧
      (b = true → u.boot.phase = 2) ∧ (b = false → u.boot.phase = 7 ∧ u.boot.lastCode = 2)) ∧
  (∀ (b : Bool) (l : List (BitVec 12)) (r : Nat) (t : Dword) (s : State), s.boot.phase = 2 →
    ∃ u, exec (.bootPhaseComplete b l r t) s = .next u ∧ u.boot.phase = 3 ∧ u.mem.ilvSet = true ∧
      u.mem.ilv = (if s.mem.ilvSet = true then s.mem.ilv else 0xFFFF000000000000) ∧
      ∀ n ∈ l, (tget {} u.mem.strands n.toNat).failed = true) ∧
  (∀ (b : Bool) (l : List (BitVec 12)) (r : Nat) (t : Dword) (s : State), s.boot.phase = 3 →
    ∃ u, exec (.bootPhaseComplete b l r t) s = .next u ∧ u.boot.phase = (if Config.lpddrGiB = 0 then 5 else 4) ∧
      (∀ a < stackTop, tget unlisted u.mem.bytes a = 0) ∧ (∀ a, stackTop ≤ a → tget unlisted u.mem.bytes a = tget unlisted s.mem.bytes a)) ∧
  (∀ (b : Bool) (l : List (BitVec 12)) (r : Nat) (t : Dword) (s : State), s.boot.phase = 4 →
    ∃ u, exec (.bootPhaseComplete b l r t) s = .next u ∧ u.boot.phase = 5 ∧
      (r = 1 ∨ r = 2 → u.mem.lpd.all (fun c => c.ready && c.rate == BitVec.ofNat 2 r) = true ∧ u.mem.lpdOff = s.mem.lpdOff) ∧
      (¬ (r = 1 ∨ r = 2) → u.mem.lpdOff = true)) ∧
  (∀ (b : Bool) (l : List (BitVec 12)) (r : Nat) (t : Dword) (s : State), s.boot.phase = 5 →
    ∃ u, exec (.bootPhaseComplete b l r t) s = .next u ∧ u.boot.phase = 6 ∧ u.thm = s.thm) ∧
  (∀ (t : Dword) (s : State), s.boot.phase < 6 → s.boot.powered = true → s.boot.recovery = false →
    (s.boot.phase = 0 → s.boot.hold = false ∧ s.pwr.low = false) →
    s.boot.phaseAt.toNat + (phaseLimit s.boot.phase).1 ≤ (s.at_ t).now →
    ∃ u, exec (.bootPhaseTimeout t) s = .next u ∧ u.boot.phase = 7 ∧
      u.boot.lastCode = BitVec.ofNat 7 ([7, 8, 3, 4, 5, 6].getD s.boot.phase 0))

/-- R478: a droop stretches a running island's clock until it ends; each 100 µs of unbroken stretching lowers the droop limit one
point, not below 0, and each 10 ms without stretching raises it one point, not above 15. No other island changes.
R485, R486: a time adjustment steps global time forward by STEP in a module outside any group, leaves every island's cycle
counter as it reads, and moves the deadlines of live entries with it; in a group it is refused with a record and global time
stands.
R479, R480, R490: a core island that has been idle for IDLE_US stops its clock and a request starts it again, with its cycle counter standing in
between; an island that may be gated and has drained loses its supply, a core's state and scratch with it, and is ungated when the
case ends; an island runs at the lowest of its limits. -/
def Obligations.IslandsStretchStopGateAndRun : Prop :=
  ((∀ (i : Nat) (t : Dword) (s : State), i < 1264 →
    ((s.island i).st = .running → ∃ u, exec (.droopDetect i t) s = .next u ∧
      (s.at_ t).IslandTo u i { (s.at_ t).islandIn i .stretching with stretchAt := some (s.at_ t).time.now }) ∧
    ((s.island i).st = .stretching → ∃ u, exec (.droopEnd i t) s = .next u ∧
      (s.at_ t).IslandTo u i { (s.at_ t).islandIn i .running with stretchAt := none, calmAt := (s.at_ t).time.now }) ∧
    (∀ a, (s.island i).stretchAt = some a → a.toNat + 100000 ≤ (s.at_ t).now → ∃ u, exec (.droopLimitLower i t) s = .next u ∧
      (s.at_ t).IslandTo u i { s.island i with
        stretchAt := some (a + 100000), dlimit := if (s.island i).dlimit = 0 then 0 else (s.island i).dlimit - 1 }) ∧
    ((s.island i).stretchAt = none → (s.island i).dlimit ≠ 15 → (s.island i).calmAt.toNat + 10000000 ≤ (s.at_ t).now →
      ∃ u, exec (.droopLimitRaise i t) s = .next u ∧
        (s.at_ t).IslandTo u i { s.island i with calmAt := (s.island i).calmAt + 10000000, dlimit := (s.island i).dlimit + 1 }) ∧
    ((s.island i).dlimit = 15 → exec (.droopLimitRaise i t) s = .next (s.at_ t))) ∧
  (∀ (op : RegOp) (s : State), isWide op.agent = true → op.part = .full →
    (s.grouped = false → ∃ u, exec (.clkTimeAdjWrite op) s = .next u ∧
      u.time.now = s.time.now + BitVec.ofNat 64 (op.value.toNat % 2 ^ 40) ∧
      (∀ i < 1264, u.cycles i = s.cycles i) ∧ u.mem.bytes = s.mem.bytes ∧ u.thm.otp = s.thm.otp ∧
      (∀ q, (s.entry q).st ≠ .free →
        (u.entry q).lastTime = (s.entry q).lastTime + BitVec.ofNat 64 (op.value.toNat % 2 ^ 40) ∧
        (u.entry q).firstDl = if (s.entry q).firstDl = 0 then 0 else (s.entry q).firstDl + BitVec.ofNat 64 (op.value.toNat % 2 ^ 40))) ∧
    (s.grouped = true → ∃ u, exec (.clkTimeAdjWrite op) s = .next u ∧ s.Absorbs u))) ∧
  ((∀ (i : Nat) (t : Dword) (s : State), i < 1024 → (s.island i).st = .running → s.pwr.idleUs ≠ 0 →
    ((s.at_ t).idleLong i = true → ∃ u, exec (.islandClockStop i t) s = .next u ∧ (s.at_ t).IslandTo u i ((s.at_ t).islandIn i .stopped)) ∧
    ((s.at_ t).idleLong i = false → exec (.islandClockStop i t) s = .next (s.at_ t))) ∧
  (∀ (i : Nat) (s : State), (s.island i).st = .stopped → ∃ u, exec (.islandClockRestart i) s = .next u ∧
    s.IslandTo u i (s.islandIn i .running) ∧ u.cycles i = s.cycles i) ∧
  (∀ (i : Nat) (s : State), 1024 ≤ i → i < 1264 → s.mayGate i = true → s.drained i = true → (s.island i).st ≠ .gated →
    ∃ u, exec (.islandGate i) s = .next u ∧
      s.IslandTo u i { s.islandIn i .gated with stretchAt := none, calmAt := s.time.now }) ∧
  (∀ (i : Nat) (s : State), i < 1024 → s.mayGate i = true → s.drained i = true → (s.island i).st ≠ .gated →
    ∃ u, exec (.islandGate i) s = .next u ∧ (u.island i).st = .gated ∧ (u.core i).uninit = true ∧
      (u.core i).skeins = [] ∧ (u.core i).cnt = [] ∧ (u.core i).cb = [] ∧ (u.core i).lostScratch = some s.time.free ∧
      (u.core i).quar = (s.core i).quar ∧ (∀ c, c ≠ i → u.core c = s.core c) ∧ (∀ j, j ≠ i → u.island j = s.island j)) ∧
  (∀ (i : Nat) (s : State), (s.island i).st = .gated → s.mayGate i = false → ∃ u, exec (.islandUngate i) s = .next u ∧
    s.IslandTo u i (s.islandIn i .running)) ∧
  (∀ (i : Nat) (s : State), i < 1264 → s.cal.job = none → ∃ u p, exec (.vfPointChangeComplete i) s = .next u ∧
    s.IslandTo u i { s.island i with point := BitVec.ofNat 4 p, freq := BitVec.ofNat 11 (vfFreq i p) } ∧
    p = min (min (s.island i).tlimit.toNat (s.island i).dlimit.toNat)
      (match if i < 1024 then s.partOf i else none with
        | some q => min (nth 15 s.pwr.ptnLimit q).toNat (nth 15 s.pwr.modLimit q).toNat
        | none => 15)))

/-- R487, R574: an input out of range powers the module down with cause 4; in the emergency band the cap that applies is at most
1,600 W; in the normal band the readings stand in their registers. A regulator above 110 °C for 1 ms, or 15 % high for 10 µs, trips
the module with cause 5.
R488, R489, R491, R501, R545: the caps' registers take values in range and refuse others; the cap controller lowers the limit of a
throttled partition one point where the power is above 97 % of the cap and raises every one where it is below 90 %; a reading above
110 °C for 1 ms trips the module with cause 5, and one below every threshold keeps it running. While a Thimble activation holds the limits
they stand. -/
def Obligations.PowerInputCapsAndLimits : Prop :=
  ((∀ (p : PowerSample) (s : State), 60000 < p.mv ∨ p.mv < 40000 ∧ 100 ≤ p.heldUs →
    ∃ u, exec (.powerSample p) s = .next u ∧ u.boot.powered = false ∧ u.boot.cause = 4 ∧ u.pwr.inputOk = false ∧ u.cores = [] ∧ u.mem = {}) ∧
  (∀ (p : PowerSample) (s : State), 40000 ≤ p.mv → p.mv < 44000 → 1000 ≤ p.heldUs →
    ∃ u, exec (.powerSample p) s = .next u ∧ u.pwr.emerg = true ∧ u.pwr.activeCap ≤ 1600 ∧ u.pwr.band = 1 ∧ u.cores = s.cores ∧ u.mem = s.mem) ∧
  (∀ (p : PowerSample) (s : State), 44000 ≤ p.mv → p.mv ≤ 56000 →
    ∃ u, exec (.powerSample p) s = .next u ∧ u.pwr.volt = BitVec.ofNat 16 p.mv ∧ u.pwr.power = BitVec.ofNat 16 p.power1ms ∧ u.pwr.band = 0 ∧
      (u.pwr.emerg = true ↔ s.pwr.emerg = true ∧ p.heldUs < 10000) ∧ u.cores = s.cores ∧ u.mem = s.mem) ∧
  (∀ (r held : Nat) (s : State), r < 290 → 1000 ≤ held → ∃ u, exec (.regulatorOvertemp r held) s = .next u ∧
    u.boot.powered = false ∧ u.boot.cause = 5 ∧ u.thm.otp = s.thm.otp ∧ u.thm.flash.records = (4, 9, 4, 0x0F * 2 ^ 24 + r) :: s.thm.flash.records) ∧
  (∀ (r held : Nat) (s : State), r < 290 → 10 ≤ held → ∃ u, exec (.regulatorOvervoltage r held) s = .next u ∧
    u.boot.powered = false ∧ u.boot.cause = 5 ∧ u.thm.otp = s.thm.otp ∧ u.thm.flash.records = (4, 9, 4, 0x0F * 2 ^ 24 + r) :: s.thm.flash.records)) ∧
  ((∀ (op : RegOp) (s : State), isWide op.agent = true → op.part = .full → 1200 ≤ op.value.toNat % 4096 → op.value.toNat % 4096 ≤ 2600 →
    exec (.pwrModuleCapWrite op) s = .next { s with pwr := { s.pwr with cap := BitVec.ofNat 12 (op.value.toNat % 4096) } }) ∧
  (∀ (op : RegOp) (s : State), isWide op.agent = true → op.part = .full → (op.value.toNat % 4096 < 1200 ∨ 2600 < op.value.toNat % 4096) →
    ∃ u, exec (.pwrModuleCapWrite op) s = .next u ∧ s.Absorbs u) ∧
  (∀ (op : RegOp) (s : State), isWide op.agent = true → op.part = .full →
    exec (.pwrIdleWrite op) s = .next { s with pwr := { s.pwr with
      gateUnassigned := op.value.getLsbD 16, idleUs := op.value.extractLsb' 0 16 } }) ∧
  (∀ (p : Nat) (op : RegOp) (s : State), isWide op.agent = true → op.part = .full →
    (op.value.toNat / 2 ^ 52 = 0 ∨
      30 * popc (s.part p).quads ≤ op.value.toNat / 2 ^ 52 ∧ op.value.toNat / 2 ^ 52 ≤ 200 * popc (s.part p).quads) →
    exec (.pwrPtnWrite p op) s = .next { s with pwr := { s.pwr with
      ptnCap := upd s.pwr.ptnCap p fun _ => BitVec.ofNat 12 (op.value.toNat / 2 ^ 52) } }) ∧
  (∀ (avg t p : Nat) (s : State), p < 16 → p < s.pwr.modLimit.length → p < s.pwr.modStep.length →
    ∃ u, exec (.vfLimitStep avg t) s = .next u ∧
      (s.limitsHeld = true → u = s.at_ (BitVec.ofNat 64 t)) ∧
      (s.limitsHeld = false → 97 * s.pwr.activeCap < 100 * avg → p ∈ s.throttled → nth 15 s.pwr.modLimit p ≠ 0 →
        (nth 0 s.pwr.modStep p).toNat + 100000 ≤ (s.at_ (BitVec.ofNat 64 t)).now →
        nth 15 u.pwr.modLimit p = nth 15 s.pwr.modLimit p - 1) ∧
      (s.limitsHeld = false → 100 * avg < 90 * s.pwr.activeCap → nth 15 s.pwr.modLimit p ≠ 15 →
        (nth 0 s.pwr.modStep p).toNat + 1000000 ≤ (s.at_ (BitVec.ofNat 64 t)).now →
        nth 15 u.pwr.modLimit p = nth 15 s.pwr.modLimit p + 1)) ∧
  (∀ (t : Dword) (junction stack : List (Nat × Int)) (held : Nat) (s : State), (∃ e ∈ junction ++ stack, 440 ≤ e.2) → 1000 ≤ held →
    ∃ u, exec (.thermalSensorRead t junction stack held) s = .next u ∧ u.boot.powered = false ∧ u.boot.cause = 5 ∧ u.thm.otp = s.thm.otp) ∧
  (∀ (t : Dword) (junction stack : List (Nat × Int)) (held : Nat) (s : State),
    (∀ e ∈ junction ++ stack, e.2 < 440) ∨ held < 1000 → (junction.map (·.1)).Nodup →
    ∃ u, exec (.thermalSensorRead t junction stack held) s = .next u ∧ u.boot = s.boot ∧ u.cores = s.cores ∧ u.mem.bytes = s.mem.bytes ∧
      ∀ e ∈ junction, e.1 < 1264 → (u.island e.1).temp = BitVec.ofInt 10 e.2 ∧
        (s.limitsHeld = true → (u.island e.1).tlimit = (s.island e.1).tlimit) ∧
        (s.limitsHeld = false → 380 ≤ e.2 → (u.island e.1).tlimit.toNat = (s.island e.1).tlimit.toNat - 1 ∨ (u.island e.1).tlimit = 0) ∧
        (s.limitsHeld = false → s.pwr.junctionBand = [] → s.pwr.stackBand = [] → (∀ f ∈ junction ++ stack, f.2 < 340) → (s.island e.1).tlimit ≠ 15 →
          (s.island e.1).thermAt.toNat + 1000000 ≤ (s.at_ t).now → (u.island e.1).tlimit = (s.island e.1).tlimit + 1)))

/-- R373, R378, R497, R516, R519, R540, R545: an accepted MEASURE, TANGLE, CALIBRATE, FIT or FW_ACTIVATE writes STATE 1 and then
STATE 3, and is the running command of its kind; while one runs already (four MEASUREs), it ends in STATE 7 with code 0x00C. -/
def Obligations.LongCommandsStart : Prop :=
  ∀ (fn : Nat) (e : InEntry) (s : State), s.wlk.deadPending = [] →
    (s.Takes fn 0x13 measureCodes e → s.msr.jobs.length < 4 → ∃ t, exec (.measure fn) s = .next t ∧
      s.Wrote t e [(1, 0), (3, 0)] ∧ t.cores = s.cores ∧ t.mem = s.mem ∧
      t.msr.jobs = s.msr.jobs ++ [{
        fn := fn, tag := e.tag, t := if leAt e.bytes 16 8 = 0 then s.time.now + 50000 else BitVec.ofNat 64 (leAt e.bytes 16 8)
        dst := BitVec.ofNat 64 (leAt e.bytes 24 8), reset := leAt e.bytes 36 1 == 1, repeat_ := max 1 (leAt e.bytes 37 1)
        periodUs := leAt e.bytes 38 2 }]) ∧
    (s.Takes fn 0x13 measureCodes e → 4 ≤ s.msr.jobs.length → ∃ t, exec (.measure fn) s = .next t ∧
      s.Wrote t e [(1, 0), (7, 0xC)] ∧ t.msr = s.msr) ∧
    (s.Takes fn 0x14 tangleCodes e → s.msr.tangle = none → ∃ t, exec (.tangle fn) s = .next t ∧
      s.Wrote t e [(1, 0), (3, 0)] ∧ t.cores = s.cores ∧ t.mem = s.mem ∧
      t.msr.tangle = some {
        fn := fn, tag := e.tag, t := if leAt e.bytes 16 8 = 0 then s.time.now + 50000 else BitVec.ofNat 64 (leAt e.bytes 16 8)
        dst := BitVec.ofNat 64 (leAt e.bytes 24 8), cap := leAt e.bytes 32 4, parts := BitVec.ofNat 16 (leAt e.bytes 36 2) }) ∧
    (s.Takes fn 0x14 tangleCodes e → s.msr.tangle.isSome = true → ∃ t, exec (.tangle fn) s = .next t ∧
      s.Wrote t e [(1, 0), (7, 0xC)] ∧ t.msr = s.msr) ∧
    (s.Takes fn 0x12 calCodes e → s.cal.job = none →
      s.calSkips (leAt e.bytes 16 4 / 2 ^ 24) (leAt e.bytes 16 4 % 2 ^ 24) = false → leAt e.bytes 16 4 / 2 ^ 24 ≠ 7 →
      ∃ t, exec (.calibrate fn) s = .next t ∧ s.Wrote t e [(1, 0), (3, 0)] ∧
        t.cal = { s.cal with job := some (fn, e.tag, leAt e.bytes 16 4, leAt e.bytes 20 4), jobNext := leAt e.bytes 16 4 % 2 ^ 24 }) ∧
    (s.Takes fn 0x12 calCodes e → s.cal.job.isSome = true → ∃ t, exec (.calibrate fn) s = .next t ∧
      s.Wrote t e [(1, 0), (7, 0xC)] ∧ t.cal = s.cal) ∧
    (s.Takes fn 0x11 fitCodes e → s.err.fit = none → ∃ t, exec (.fit fn) s = .next t ∧ s.Wrote t e [(1, 0), (3, 0)] ∧
      (leAt e.bytes 16 4 / 2 ^ 24 = 5 → t.err.fit = some {
        fn := fn, tag := e.tag, cls := 5, next := leAt e.bytes 16 4 % 2 ^ 24
        last := leAt e.bytes 16 4 % 2 ^ 24 + leAt e.bytes 20 4 - 1
        release := (BitVec.ofNat 8 (leAt e.bytes 24 1)).getLsbD 0, quarantine := false })) ∧
    (s.Takes fn 0x11 fitCodes e → s.err.fit.isSome = true → ∃ t, exec (.fit fn) s = .next t ∧
      s.Wrote t e [(1, 0), (7, 0xC)] ∧ t.err = s.err) ∧
    (∀ c : FwCheck, s.Takes fn 0x15 fwCodes e → s.boot.act = none → s.err.fit = none → s.thm.form = none → s.ob.load = none →
      s.mgmt.update.active = false → s.fwCode c = none → ∃ t, exec (.fwActivate fn (some c)) s = .next t ∧
        s.Wrote t e [(1, 0), (3, 0)] ∧ t.ob.hold = true ∧
        t.boot.act = some { fn := some fn, tag := e.tag, images := [(leAt e.bytes 28 1, c)], since := s.time.now }) ∧
    (s.Takes fn 0x15 fwCodes e → s.boot.act.isSome = true → ∀ r, ∃ t, exec (.fwActivate fn r) s = .next t ∧
      s.Wrote t e [(1, 0), (7, 0xC)] ∧ t.boot = s.boot ∧ t.thm = s.thm)

/-- R369, R370, R378, R384: an entry whose fields do not pass is answered with STATE 7 and the lowest code that applies, and is a
violation of the function; nothing of the machine but records and what goes to the host changes. -/
def Obligations.CommandEntriesRefused : Prop :=
  ∀ (fn code : Nat) (e : InEntry) (s : State), s.wlk.deadPending = [] → s.front fn 1 = some e →
    ∀ x ∈ [(Instr.measure fn, 0x13, measureCodes), (.tangle fn, 0x14, tangleCodes), (.fit fn, 0x11, fitCodes),
           (.calibrate fn, 0x12, calCodes), (.loadImage fn, 0x10, loadCodes), (.fwActivate fn none, 0x15, fwCodes),
           (.cancel fn, 1, seqCmdCodes), (.preempt fn, 2, seqCmdCodes), (.resume fn, 3, seqCmdCodes), (.reduce fn, 4, reduceCodes)],
      leAt e.bytes 0 1 = x.2.1 → lowest (x.2.2 (s.dropFront fn 1) e) = some code →
      ∃ t, exec x.1 s = .next t ∧ s.Wrote t e [(7, code)] ∧
        ((s.fn e.fn).violations.toNat < 65535 → e.fn < s.hif.fns.length →
          (t.fn e.fn).violations.toNat = (s.fn e.fn).violations.toNat + 1) ∧
        t.cores = s.cores ∧ t.mem = s.mem ∧ t.ob = s.ob ∧ t.thm = s.thm ∧ t.cal = s.cal ∧ t.boot = s.boot ∧ t.hif.cmds = s.hif.cmds

/-- R23, R25, R26, R29, R374, R439: a LOAD_IMAGE whose image fits stages it; staged and checked it drains; drained it switches; placed, it
is the active image, and the command ends in STATE 5. An image that fails its checks leaves the old one active. In a group the switch waits
until every other live member holds the same staged image, and the failure of one ends the load with code 0x013. -/
def Obligations.ImageLoadRuns : Prop :=
  (∀ (fn : Nat) (e : InEntry) (s : State), s.Takes fn 0x10 loadCodes e → s.ob.load = none → s.thm.form = none → s.boot.act = none →
    s.ob.image.map (·.id) ≠ some (BitVec.ofNat 32 (leAt e.bytes 32 4)) → leAt e.bytes 24 8 ≤ s.stageSpace.2 →
    leAt e.bytes 24 8 ≤ s.stageSpace.1 →
    ∃ t, exec (.loadImage fn) s = .next t ∧ s.Wrote t e [(1, 0), (3, 0)] ∧ t.ob.phase = .staging ∧ t.ob.image = s.ob.image ∧
      t.ob.load = some { fn := fn, tag := e.tag, src := BitVec.ofNat 64 (leAt e.bytes 16 8), length := leAt e.bytes 24 8
                         id := BitVec.ofNat 32 (leAt e.bytes 32 4), drainMs := leAt e.bytes 36 2, drainFirst := false }) ∧
  (∀ (l : Load) (i : ModelImage) (s : State), s.ob.load = some l → s.ob.phase = .staging → s.imageCode l i = none →
    ∃ t, exec (.imageStagingComplete (.here (some i))) s = .next t ∧ t.ob.image = s.ob.image ∧
      t.ob.phase = (if l.drainFirst && !s.grouped then .switching else .draining) ∧ (t.ob.load.bind (·.staged)) = some i) ∧
  (∀ (l : Load) (i : ModelImage) (code : Nat) (s : State), s.ob.load = some l → s.ob.phase = .staging → s.imageCode l i = some code →
    ∃ t, exec (.imageStagingComplete (.here (some i))) s = .next t ∧ t.ob.image = s.ob.image ∧ t.ob.load = none ∧
      t.ob.lastCode = BitVec.ofNat 12 code ∧ t.ob.phase = (if s.ob.image.isSome then .active else .failed)) ∧
  (∀ (l : Load) (s : State), s.ob.load = some l → s.ob.phase = .staging →
    ∃ t, exec (.imageStagingComplete (.here none)) s = .next t ∧ t.ob.image = s.ob.image ∧ t.ob.load = none ∧ t.ob.lastCode = 8) ∧
  (∀ (l : Load) (s : State), s.ob.load = some l → s.ob.phase = .draining → s.draining = [] →
    (∀ i, l.staged = some i → ∀ m ∈ s.otherLoads s.ob.memberLoads, m.2 = .staged i.id) →
    ∃ t, exec .imageDrainComplete s = .next t ∧ t.ob.phase = (if l.staged.isSome then .switching else .staging) ∧
      t.ob.load = some { l with drainAt := none }) ∧
  (∀ (l : Load) (i : ModelImage) (s : State), s.ob.load = some l → s.ob.phase = .draining → l.staged = some i →
    (∃ m ∈ s.otherLoads s.ob.memberLoads, m.2 ≠ .staged i.id) → exec .imageDrainComplete s = .next s) ∧
  (∀ (ms : List MemberLoad) (s : State), (∀ m ∈ s.otherLoads ms, m.2 ≠ .failed) →
    ∃ t, exec (.imageStagingComplete (.members ms)) s = .next t ∧ t = { s with ob := { s.ob with memberLoads := t.ob.memberLoads } } ∧
      ∀ (i : Nat) (id : BitVec 32), nth .busy t.ob.memberLoads i = .staged id ↔ nth .busy ms i = .staged id) ∧
  (∀ (l : Load) (ms : List MemberLoad) (s : State), s.ob.load = some l → s.ob.phase = .staging ∨ s.ob.phase = .draining →
    (∃ m ∈ s.otherLoads ms, m.2 = .failed) →
    ∃ t, exec (.imageStagingComplete (.members ms)) s = .next t ∧ t.ob.load = none ∧ t.ob.lastCode = 0x013 ∧ t.ob.image = s.ob.image ∧
      t.ob.phase = (if s.ob.image.isSome then .active else .failed)) ∧
  (∀ (l : Load) (a t : Dword) (s : State), s.ob.load = some l → s.ob.phase = .draining → l.drainAt = some a → l.drainMs ≠ 0 →
    a.toNat + l.drainMs * 1000000 ≤ (s.at_ t).now →
    exec (.imageDrainLimitExpiry t) s = .next ((s.at_ t).draining.foldl (fun x e => x.cancelSeq e.1 0x108) (s.at_ t))) ∧
  (∀ (l : Load) (i : ModelImage) (s : State), s.ob.load = some l → s.ob.phase = .switching → l.staged = some i →
    ∃ t, exec .imageSwitchComplete s = .next t ∧ t.ob.image = some i ∧ t.ob.imageLen = l.length ∧ t.ob.load = none ∧
      t.ob.phase = .active ∧ ∀ c < 1024, (t.core c).expBase = i.expBase)

/-- R493, R494, R497: a selection that names an item is taken and another is refused; an alteration within the bounds of its kind is
kept for the selected item; a calibrated unit's hold ends and COUNT rises by one. -/
def Obligations.CalibrationAlterations : Prop :=
  (∀ (op : RegOp) (s : State), isWide op.agent = true → op.part = .full → op.value.toNat < 2 ^ 32 →
    altOk (op.value.toNat / 2 ^ 28) (op.value.toNat / 2 ^ 24 % 16) (op.value.toNat % 2 ^ 24) = true →
    exec (.calAltSelWrite op) s = .next { s with cal := { s.cal with
      kind := BitVec.ofNat 4 (op.value.toNat / 2 ^ 28), field := BitVec.ofNat 4 (op.value.toNat / 2 ^ 24 % 16)
      index := BitVec.ofNat 24 (op.value.toNat % 2 ^ 24) } }) ∧
  (∀ (op : RegOp) (s : State), isWide op.agent = true → op.part = .full →
    (2 ^ 32 ≤ op.value.toNat ∨ altOk (op.value.toNat / 2 ^ 28) (op.value.toNat / 2 ^ 24 % 16) (op.value.toNat % 2 ^ 24) = false) →
    ∃ u, exec (.calAltSelWrite op) s = .next u ∧ s.Absorbs u) ∧
  (∀ (op : RegOp) (s : State), isWide op.agent = true → op.part = .full →
    -altBound s.cal.kind.toNat ≤ (op.value.setWidth 16).toInt → (op.value.setWidth 16).toInt ≤ altBound s.cal.kind.toNat →
    ∃ u, exec (.calAltValueWrite op) s = .next u ∧ u = { s with cal := { s.cal with alters := u.cal.alters } } ∧
      u.altOffset = (op.value.setWidth 16).toInt ∧ ∀ k, k ≠ s.cal.sel → tget 0 u.cal.alters k = tget 0 s.cal.alters k) ∧
  (∀ (fn : Nat) (tag : Word) (unit count : Nat) (s : State), s.wlk.deadPending = [] → s.cal.job = some (fn, tag, unit, count) →
    unit / 2 ^ 24 = 5 → s.calWaits 5 s.cal.jobNext = false → s.cal.jobNext + 1 ≤ unit % 2 ^ 24 + count - 1 → 0 < count →
    ∃ u, exec .calibrateUnitComplete s = .next u ∧ u.cal.jobNext = s.cal.jobNext + 1 ∧ u.cal.job = s.cal.job ∧
      (tget {} u.mem.strands s.cal.jobNext).held = false ∧
      ∀ c, s.liveCmd fn tag = some c → c.count.toNat < 2 ^ 32 - 1 → (u.liveCmd fn tag).map (·.count) = some (c.count + 1))

/-- R509, R510, R511, R515, R517: a reset sets the enabled-or-not classes it names to 0 with a new epoch; a latch that is due takes
every island's counters at its own time, resets the enabled classes where RESET asks it, and raises the command's count; the oldest
image goes to the host, records before the header, and the command ends with its last one.
R518, R563: an update puts all readings into the power and temperature block at once, in mW, mV, mA, J and 1/256 °C, and the
whole-unit readings into the sensors. -/
def Obligations.MeasuresAndPowerReadings : Prop :=
  ((∀ (op : RegOp) (s : State), isWide op.agent = true → op.part = .full →
    ∃ u, exec (.msrResetWrite op) s = .next u ∧ u = { s with msr := { s.msr with classes := u.msr.classes } } ∧
      ∀ k < 5, ((nth {} s.msr.classes k).before.map (·.1) ≠ some s.time.now → op.value.getLsbD k = true →
          (nth {} u.msr.classes k).cur.runs = [] ∧ (nth {} u.msr.classes k).cur.epoch = (nth {} s.msr.classes k).cur.epoch + 1 ∧
          (nth {} u.msr.classes k).before = some (s.time.now, (nth {} s.msr.classes k).cur)) ∧
        (op.value.getLsbD k = false → nth {} u.msr.classes k = nth {} s.msr.classes k)) ∧
  (∀ (fn : Nat) (tag : Word) (t due : Dword) (j : MeasureJob) (s : State), s.job fn tag = some j → j.latched < j.repeat_ →
    due = j.t + BitVec.ofNat 64 (j.latched * j.periodUs * 1000) → due.toNat ≤ (s.at_ t).now →
    ∃ u l, exec (.measureLatch fn tag t) s = .next u ∧ u.msr.latches = s.msr.latches ++ [l] ∧
      l.fn = j.fn ∧ l.tag = j.tag ∧ l.index = j.latched ∧ l.t = due ∧ l.aon = s.msr.aon ∧ l.classes = s.msr.classes.map (·.at_ due) ∧
      (∀ i < 1264, nth 0 l.cycles i = (s.at_ t).cyclesAt i due ∧ (l.stopped.contains i = !(s.island i).st.clocked)) ∧
      u.job fn tag = some { j with latched := j.latched + 1 } ∧ u.cores = s.cores ∧ u.mem = s.mem ∧ u.islands = s.islands ∧
      (j.reset = false → u.msr.classes = s.msr.classes)) ∧
  (∀ (fn : Nat) (tag : Word) (j : MeasureJob) (l : Latch) (rest : List Latch) (s : State), s.job fn tag = some j →
    s.msr.latches = l :: rest → l.fn = fn → l.tag = tag →
    ∃ u out, exec (.measureImageWritten fn tag) s = .next u ∧ u.msr.latches = rest ∧ u.msr.images = s.msr.images + 1 ∧
      u.hif.out = out ++ .write fn (j.dst + BitVec.ofNat 64 (l.index * 1482752)) (l.header s.myId) ::
        .write fn (j.dst + BitVec.ofNat 64 (l.index * 1482752) + 128) ((List.range 11565).flatMap l.record) :: s.hif.out ∧
      (j.written + 1 ≠ j.repeat_ → out = [] ∧ u.job fn tag = some { j with written := j.written + 1 }) ∧
      (j.written + 1 = j.repeat_ → u.job fn tag = none ∧ u.liveCmd fn tag = none ∧
        ∀ c, s.liveCmd fn tag = some c → out = [.write c.fn c.statusAddr (toBytes 8 (statusWord 5 0 0 c.tag c.count.toNat).toNat)]))) ∧
  (∀ (mw mv ma j : Nat) (tmax : Int) (tdie : List Int) (tstack : Int) (t : Dword) (s : State),
    ∃ u, exec (.powerBlockUpdate mw mv ma j tmax tdie tstack t) s = .next u ∧
      (∀ x ∈ [(1, BitVec.ofNat 32 mw), (2, BitVec.ofNat 32 mv), (3, BitVec.ofNat 32 ma), (4, BitVec.ofNat 32 j), (5, alkenTemp tmax),
          (6, alkenTemp (nth 0 tdie 0)), (7, alkenTemp (nth 0 tdie 1)), (8, alkenTemp (nth 0 tdie 2)), (9, alkenTemp (nth 0 tdie 3)),
          (10, alkenTemp tstack), (12, BitVec.ofNat 32 s.pwr.activeCap)], tget 0 u.msr.alken x.1 = x.2) ∧
      tget 0 u.mgmt.readings 1 = (mv : Int) ∧ tget 0 u.mgmt.readings 2 = ((mw / 1000 : Nat) : Int) ∧ tget 0 u.mgmt.readings 3 = tmax / 256 ∧
      tget 0 u.mgmt.readings 8 = tstack / 256 ∧ u.cores = s.cores ∧ u.mem = s.mem ∧ u.hif = s.hif ∧ u.pwr = s.pwr ∧ u.islands = s.islands)

/-- R520, R523, R524: at its time the wait states are taken as one snapshot; a graph that fits is written, nodes and edges before
the header, and the command ends in STATE 5; of one that does not only the header goes out, and the command ends in STATE 7 with
code 4. -/
def Obligations.TangleGraphWritten : Prop :=
  (∀ (t : Dword) (j : TangleJob) (s : State), s.msr.tangle = some j → j.graph = none → j.t.toNat ≤ (s.at_ t).now →
    ∃ u, exec (.tangleLatch t) s = .next u ∧ u.msr.tangle = some { j with graph := some ((s.at_ t).tangleGraph j.parts) } ∧
      u.cores = s.cores ∧ u.hif = s.hif ∧ u.mem = s.mem) ∧
  (∀ (j : TangleJob) (nodes : List TNode) (edges : List (Nat × Nat)) (c : LiveCmd) (s : State), s.msr.tangle = some j →
    j.graph = some (nodes, edges) → s.liveCmd j.fn j.tag = some c →
    ∃ u, exec .tangleGraphWritten s = .next u ∧ u.msr.tangle = none ∧ u.msr.tglNodes = BitVec.ofNat 32 nodes.length ∧
      u.msr.tglCycles = BitVec.ofNat 16 (min (cycleNumbers edges nodes.length).2 0xFFFF) ∧ u.liveCmd j.fn j.tag = none ∧
      u.cores = s.cores ∧ u.mem = s.mem ∧
      (64 + 32 * nodes.length + 8 * edges.length ≤ j.cap → u.hif.out =
        .write c.fn c.statusAddr (toBytes 8 (statusWord 5 0 0 c.tag
            (BitVec.ofNat 32 (sat32 (ceilDiv (64 + 32 * nodes.length + 8 * edges.length) 1024))).toNat).toNat) ::
        .write j.fn j.dst (tangleHeader j.t nodes.length edges.length (cycleNumbers edges nodes.length).2 1
          (64 + 32 * nodes.length + 8 * edges.length) s.myId) ::
        .write j.fn (j.dst + 64) (((nodes.zip (cycleNumbers edges nodes.length).1).flatMap fun x => x.1.bytes x.2) ++
          edges.flatMap fun e => toBytes 4 e.1 ++ toBytes 4 e.2) :: s.hif.out) ∧
      (j.cap < 64 + 32 * nodes.length + 8 * edges.length → u.hif.out =
        .write c.fn c.statusAddr (toBytes 8 (statusWord 7 0 4 c.tag c.count.toNat).toNat) ::
        .write j.fn j.dst (tangleHeader j.t nodes.length edges.length (cycleNumbers edges nodes.length).2 2
          (64 + 32 * nodes.length + 8 * edges.length) s.myId) :: s.hif.out))

/-- R537, R541, R542, R544, R548: the next core of a FIT is held; one on which a bundle still runs 1 s later is passed over with
code 2; one that passes its test is returned, the count rises and PF0 hears of it; one that fails is quarantined and stays
held; a quarantined core is reset when it is idle or 100 ms have passed. -/
def Obligations.FittingHoldsTestsAndReturns : Prop :=
  (∀ (t : Dword) (j : FitJob) (s : State), s.err.fit = some j → j.held = none → j.cls = 1 →
    ∃ u q, exec (.fitUnitHold t) s = .next u ∧ (u.core j.next).held = true ∧ (u.island j.next).st = .held ∧
      u.err.fit = some { j with held := some (j.next, (s.at_ t).time.now, q), holds := 1 } ∧
      (∀ c, c ≠ j.next → u.core c = s.core c) ∧ u.mem = s.mem ∧ u.hif = s.hif) ∧
  (∀ (t since : Dword) (j : FitJob) (s : State), s.err.fit = some j → j.held = some (j.next, since, false) → j.cls = 1 → j.last = j.next →
    (s.core j.next).quar = false → since.toNat + 1000000000 ≤ (s.at_ t).now →
    ∃ u, exec (.fitHoldTimeout t) s = .next u ∧ (u.core j.next).held = false ∧ u.err.fit = none ∧ (∀ c, c ≠ j.next → u.core c = s.core c) ∧
      ∃ k, (k, ({ time := (s.at_ t).time.now, unit := unitId 1 j.next, cls := 2, source := 0x0A, code := 2
                  part := s.partByte j.next, detail := toBytes 4 0 } : ErrRec)) ∈ u.err.log) ∧
  (∀ (step : Nat) (lanes : BitVec 8) (since : Dword) (j : FitJob) (s : State), s.err.fit = some j → j.held = some (j.next, since, true) →
    0 < j.holds → j.cls = 1 → j.last = j.next → (s.core j.next).quar = false → s.mem.l2Test = none → s.wlk.deadPending = [] →
    (∃ u, exec (.fitTestComplete true step lanes) s = .next u ∧ (u.core j.next).held = false ∧ (u.core j.next).quar = false ∧
      u.err.fit = none ∧ u.thm.flash.quarCores = s.thm.flash.quarCores ∧ (∀ c, c ≠ j.next → u.core c = s.core c) ∧
      ∀ c, s.liveCmd j.fn j.tag = some c → c.count.toNat < 2 ^ 32 - 1 →
        .write c.fn c.statusAddr (toBytes 8 (statusWord 5 0 0 c.tag (c.count.toNat + 1)).toNat) ∈ u.hif.out) ∧
    (∃ u, exec (.fitTestComplete false step lanes) s = .next u ∧ (u.core j.next).held = true ∧ (u.core j.next).quar = true ∧
      u.err.fit = none ∧ u.thm.flash.quarCores = j.next :: s.thm.flash.quarCores ∧ ∀ c, c ≠ j.next → u.core c = s.core c)) ∧
  (∀ (core : CoreId) (t since : Dword) (s : State), (s.core core.toNat).quar = true → (s.core core.toNat).quarAt = some since →
    ((s.core core.toNat).busy = false ∨ since.toNat + 100000000 ≤ (s.at_ t).now) →
    ∃ u, exec (.quarantineCoreReset core t) s = .next u ∧ (u.core core.toNat).quar = true ∧ (u.core core.toNat).held = false ∧
      (u.core core.toNat).quarAt = none ∧ (u.core core.toNat).busy = false ∧ ∀ c, c ≠ core.toNat → u.core c = s.core c)

/-- R409, R545: an activation that completes makes its image the running one, with the secrets derived from it (log entry 9), flips the boot bank and ends in STATE 5; one that has
not started within 2 ms is reverted, and the old image keeps running, with code 0x013. Both end the hold on new lists. -/
def Obligations.FirmwareActivates : Prop :=
  (∀ (a : FwAct) (c : FwCheck) (t : Dword) (s : State), s.boot.act = some a → (s.at_ t).now < a.since.toNat + 2000000 → a.images = [(0, c)] → a.fn = none →
    ∃ u, exec (.fwActivationComplete t) s = .next u ∧ u.boot.act = none ∧ u.ob.hold = false ∧ u.boot.hub = (c.svn, c.digest) ∧
      u.boot.thimble = s.boot.thimble ∧ u.thm.cdi2 = Config.nextSecret u.thm.cdi1 c.digest ∧ u.thm.flash.bootBank = 1 - s.thm.flash.bootBank ∧ u.thm.sessions = s.thm.sessions ∧
      u.cores = s.cores ∧ u.mem = s.mem) ∧
  (∀ (a : FwAct) (c : FwCheck) (t : Dword) (s : State), s.boot.act = some a → (s.at_ t).now < a.since.toNat + 2000000 → a.images = [(1, c)] → a.fn = none →
    ∃ u, exec (.fwActivationComplete t) s = .next u ∧ u.boot.act = none ∧ u.ob.hold = false ∧ u.boot.thimble = (c.svn, c.digest) ∧
      u.boot.hub = s.boot.hub ∧ u.thm.flash.bootBank = 1 - s.thm.flash.bootBank ∧ u.thm.sessions = [] ∧
      u.thm.cdi1 = Config.nextSecret Config.uds c.digest ∧ u.cores = s.cores ∧ u.mem = s.mem) ∧
  (∀ (a : FwAct) (t : Dword) (fn : Nat) (c : LiveCmd) (s : State), s.boot.act = some a → a.since.toNat + 2000000 ≤ (s.at_ t).now →
    a.fn = some fn → s.liveCmd fn a.tag = some c →
    ∃ u, exec (.fwActivateStartTimeout t) s = .next u ∧ u.boot.act = none ∧ u.ob.hold = false ∧ u.boot.hub = s.boot.hub ∧
      u.boot.thimble = s.boot.thimble ∧ u.thm = s.thm ∧ u.cores = s.cores ∧ u.mem = s.mem ∧ u.liveCmd fn a.tag = none ∧
      .write c.fn c.statusAddr (toBytes 8 (statusWord 7 0 0x13 c.tag c.count.toNat).toNat) ∈ u.hif.out)

/-- R381, R382, R383: a function-level reset of a VF turns its rings off, drops what they held, ends its commands and frees its
sequences, and writes no status word; one of PF0 does so for every function and ends loads before PHASE 4, fittings,
calibrations, measures and the graph; D3hot acts as the reset of its function, which then answers configuration requests only. -/
def Obligations.FunctionLevelResets : Prop :=
  (∀ (vf : Nat) (s : State), 1 ≤ vf → vf ≤ 16 → vf < s.hif.fns.length → (s.seamPart (vf - 1)).reduce = none → s.wlk.deadPending = [] →
    ∃ u, exec (.vfFlr vf) s = .next u ∧ (u.fn vf).req.enable = false ∧ (u.fn vf).cmd.enable = false ∧
      (∀ e ∈ u.hif.inbox, e.fn ≠ vf) ∧ (∀ c ∈ u.hif.cmds, c.fn ≠ vf) ∧ (∀ q, (u.entry q).live = true → (u.entry q).part.toNat ≠ vf - 1) ∧
      u.hif.out = s.hif.out ∧ (∀ f, f ≠ vf → u.fn f = s.fn f) ∧ u.cores = s.cores ∧ u.thm = s.thm) ∧
  (∀ s : State, (∀ p, (s.seamPart p).reduce = none) → s.wlk.deadPending = [] →
    ∃ u, exec .pf0Flr s = .next u ∧ u.hif.inbox.all (fun e => 16 < e.fn) = true ∧ u.hif.cmds.all (fun c => 16 < c.fn) = true ∧
      u.cal.job = none ∧ u.msr.jobs = [] ∧ u.msr.latches = [] ∧ u.msr.tangle = none ∧ u.err.fit = none ∧
      (s.ob.phase ≠ .switching → u.ob.load = none ∧ u.ob.image = s.ob.image) ∧ u.thm.otp = s.thm.otp) ∧
  (∀ (fn : Nat) (s : State), (∀ p, (s.seamPart p).reduce = none) → s.wlk.deadPending = [] →
    ∃ u, exec (if fn = 0 then .pf0Flr else .vfFlr fn) s = .next u ∧ exec (.d3hotEntry fn) s = .next (u.modFn fn fun f => { f with d3hot := true }) ∧
      (1 ≤ fn → fn ≤ 16 → ∀ e ∈ u.hif.inbox, e.fn ≠ fn))

/-- R322, R343, R345, R348, R373: CANCEL, PREEMPT and RESUME write STATE 1 and then their outcome. CANCEL ends a sequence outside a
running list at once with STATE 6 and code 0x107, and one in it after it; PREEMPT takes a sequence in PREFILL or DECODE, after the running step
where it is listed in one; RESUME asks for
a pre-empted one; an unknown tag ends in code 9 and a sequence in another state in code 0xA, with nothing changed. -/
def Obligations.SequenceCommandsAct : Prop :=
  ∀ (fn op q : Nat) (e : InEntry) (s : State), op ∈ [1, 2, 3] → s.Takes fn op seqCmdCodes e →
    (∀ c, c = (if op = 1 then Instr.cancel fn else if op = 2 then .preempt fn else .resume fn) →
      s.seqTagged (if fn = 0 then leAt e.bytes 20 1 else fn) (BitVec.ofNat 32 (leAt e.bytes 16 4)) = none →
      ∃ u, exec c s = .next u ∧ s.Wrote u e [(1, 0), (7, 9)] ∧ u.ob = s.ob) ∧
    (s.seqTagged (if fn = 0 then leAt e.bytes 20 1 else fn) (BitVec.ofNat 32 (leAt e.bytes 16 4)) = some q →
      (op = 1 → (s.entry q).live = true → s.inStep q = false → ∃ u, exec (.cancel fn) s = .next u ∧ (u.entry q).st = .free ∧
        s.Wrote u e [(1, 0), (5, 0)] ∧ u.cores = s.cores ∧ ∀ x, x ≠ q → u.entry x = s.entry x) ∧
      (op = 1 → (s.entry q).live = true → s.inStep q = true → ∃ u, exec (.cancel fn) s = .next u ∧ s.Wrote u e [(1, 0), (5, 0)] ∧
        u.entry q = { s.entry q with cancelPending := true, endCode := 0x107 } ∧ ∀ x, x ≠ q → u.entry x = s.entry x) ∧
      (op = 2 → (s.entry q).st = .prefill ∨ (s.entry q).st = .decode → s.inRunningStep q = false → ∃ u, exec (.preempt fn) s = .next u ∧
        s.Wrote u e [(1, 0), (5, 0)] ∧ (u.entry q).st = .preempted ∧ (u.entry q).wasPreempted = true ∧ (u.entry q).treeN = 0 ∧
        (u.entry q).trigger = some .host ∧ (u.entry q).position = (s.entry q).position ∧ (u.entry q).copy = .demoting ∧
        ∀ x, x ≠ q → u.entry x = s.entry x) ∧
      (op = 2 → (s.entry q).st = .prefill ∨ (s.entry q).st = .decode → s.inRunningStep q = true → ∃ u, exec (.preempt fn) s = .next u ∧
        s.Wrote u e [(1, 0), (5, 0)] ∧ u.entry q = { s.entry q with preemptPending := true } ∧ ∀ x, x ≠ q → u.entry x = s.entry x) ∧
      (op = 2 → (s.entry q).st ≠ .prefill → (s.entry q).st ≠ .decode → ∃ u, exec (.preempt fn) s = .next u ∧
        s.Wrote u e [(1, 0), (7, 0xA)] ∧ u.ob = s.ob) ∧
      (op = 3 → (s.entry q).st = .preempted → ∃ u, exec (.resume fn) s = .next u ∧ s.Wrote u e [(1, 0), (5, 0)] ∧
        u.entry q = { s.entry q with resumeAsked := true } ∧ ∀ x, x ≠ q → u.entry x = s.entry x) ∧
      (op = 3 → (s.entry q).st ≠ .preempted → ∃ u, exec (.resume fn) s = .next u ∧ s.Wrote u e [(1, 0), (7, 0xA)] ∧ u.ob = s.ob))

/-- R288, R289, R294, R369, R370, R378: a request whose fields, input and parameters pass becomes an entry in ADMIT with what the
entry of the ring said, and STATE 1 goes to the host; one that fails a check of its fields ends in STATE 7 with the lowest code and
one whose input cannot be read with code 8; a tokenised request with room for its side area is QUEUED. -/
def Obligations.RequestsAreTaken : Prop :=
  (∀ (fn q : Nat) (inp prm : List Byte) (ids : List Nat) (i : ModelImage) (e : InEntry) (s : State), s.front fn 0 = some e →
    (s.dropFront fn 0).requestCodes e = [] → leAt e.bytes 0 1 % 2 = 0 → leAt e.bytes 56 8 ≠ 0 → zeroAt prm 852 172 = true →
    samplerOk (slice prm 0 1024) = true → s.ob.image = some i → s.ob.load = none →
    admitCodes i false (slice inp 0 (4 * leAt e.bytes 24 4)) (slice prm 0 1024) (BitVec.ofNat 16 (leAt (slice prm 0 1024) 850 2)) = ([], ids) →
    s.freeSeq = some q →
    ∃ u, exec (.request fn (.ok inp) (.ok prm)) s = .next u ∧ (u.entry q).st = .admission ∧ (u.entry q).prompt = ids ∧
      (u.entry q).tag = e.tag ∧ (u.entry q).fn = e.fn ∧ (u.entry q).client = BitVec.ofNat 12 (leAt e.bytes 2 2) ∧
      (u.entry q).priority = BitVec.ofNat 4 (leAt e.bytes 1 1) ∧ (u.entry q).maxTokens = leAt e.bytes 28 4 ∧
      (u.entry q).outTokCap = leAt e.bytes 40 4 ∧ (u.entry q).admitTime = s.time.now ∧
      (∀ x, x ≠ q → u.entry x = s.entry x) ∧ u.cores = s.cores ∧ u.mem = s.mem ∧
      u.hif.out = .write e.fn e.statusAddr (toBytes 8 (statusWord 1 0 0x100 e.tag 0).toNat) :: s.hif.out) ∧
  (∀ (fn code : Nat) (inp prm : HostRead) (e : InEntry) (s : State), s.front fn 0 = some e →
    lowest ((s.dropFront fn 0).requestCodes e) = some code →
    ∃ u, exec (.request fn inp prm) s = .next u ∧ s.Wrote u e [(7, code)] ∧ u.ob = s.ob ∧ u.cores = s.cores ∧ u.mem = s.mem) ∧
  (∀ (fn : Nat) (prm : HostRead) (e : InEntry) (s : State), s.front fn 0 = some e → (s.dropFront fn 0).requestCodes e = [] →
    ∃ u, exec (.request fn .failed prm) s = .next u ∧ s.Wrote u e [(7, 8)] ∧ u.ob = s.ob ∧ u.cores = s.cores ∧ u.mem = s.mem) ∧
  (∀ (q o : Nat) (s : State), (s.entry q).st = .admission → (s.entry q).promptLen = 0 → o < s.ob.sideSize.toNat →
    s.sideFits o (sideNeed (s.entry q).prompt.length) = true →
    ∃ u, exec (.tokenisationComplete q) s = .next u ∧ (u.entry q).st = .queued ∧ (u.entry q).promptLen = (s.entry q).prompt.length ∧
      (u.entry q).sideKib = sideNeed (s.entry q).prompt.length ∧ s.SameCores u ∧ ∀ x, x ≠ q → u.entry x = s.entry x) ∧
  (∀ (q o : Nat) (s : State), (s.entry q).st = .admission ∨ (s.entry q).st = .queued → (s.entry q).promptLen ≠ 0 → (s.entry q).sideKib = 0 →
    o < s.ob.sideSize.toNat → s.sideFits o (sideNeed (s.entry q).promptLen) = true →
    ∃ u, exec (.sideAreaAllocated q) s = .next u ∧ (u.entry q).st = .queued ∧ (u.entry q).sideKib = sideNeed (s.entry q).promptLen ∧
      s.SameCores u ∧ ∀ x, x ≠ q → u.entry x = s.entry x) ∧
  (∀ (q : Nat) (s : State), (∀ o < s.ob.sideSize.toNat, s.sideFits o (sideNeed (s.entry q).promptLen) = false) →
    exec (.sideAreaAllocated q) s = .next s)

/-- R300, R307, R330, R441: updates that are due are made first (log entry 90); a main list that waited for the barrier follows its draft list as the barrier opens;
while a list may not be published nothing happens; else the partition's lists are built from its
candidates, the draft list goes first when it has a row and the main list otherwise, STEP rises by one, and the list stands in the
partition's list buffer; without a row the partition idles. -/
def Obligations.ListsAreBuiltAndPublished : Prop :=
  (∀ (p : Nat) (t : Dword) (s : State), (s.obPart p).phase ≠ .updating → (s.at_ t).mayPublish p = false →
    exec (.cuttingListPublish p t) s = .next (s.at_ t)) ∧
  (∀ (p : Nat) (t : Dword) (s : State), (s.obPart p).phase = .updating → (s.obPart p).running = none →
    exec (.cuttingListPublish p t) s = .next (if s.barrierOpen p then (s.at_ t).publishMain p else s.at_ t)) ∧
  (∀ (p : Nat) (t : Dword) (l : CutList) (s v : State), (s.obPart p).phase = .updating → (s.obPart p).running = some l →
    v = (if s.takesLists p then (s.at_ t).stepEnd p else if l.lkind = 1 then (s.at_ t).afterDraft p l else (s.at_ t).afterMain p l) →
    exec (.cuttingListPublish p t) s = .next
      (if (v.obPart p).between then (if v.barrierOpen p then v.publishMain p else v) else v.nextList p)) ∧
  (∀ (p : Nat) (t : Dword) (s b : State) (draft main : List Row), p < s.ob.ptn.length → (s.at_ t).mayPublish p = true →
    s.takesLists p = false → ((s.at_ t).evaluate p).build p = (b, draft, main) →
    (draft ≠ [] → ∃ u, exec (.cuttingListPublish p t) s = .next u ∧ (u.obPart p).phase = .draft ∧
      (u.obPart p).step = (s.obPart p).step + 1 ∧ (u.obPart p).toggle = !(s.obPart p).toggle ∧
      (u.obPart p).running = some { result := (s.obPart p).resultAt, lkind := 1, rows := draft, publishAt := (s.at_ t).time.now } ∧
      (u.obPart p).mainNext = main ∧ u.mem = (b.hubWrite (s.obPart p).listAt
        ((s.at_ t).listBytes ((s.obPart p).step + 1) 1 (s.obPart p).resultAt draft)).mem) ∧
    (draft = [] → main ≠ [] → ∃ u, exec (.cuttingListPublish p t) s = .next u ∧ (u.obPart p).phase = .main ∧
      (u.obPart p).step = (s.obPart p).step + 1 ∧ (u.obPart p).toggle = !(s.obPart p).toggle ∧
      (u.obPart p).running = some { result := (s.obPart p).resultAt, lkind := 2, rows := main, publishAt := (s.at_ t).time.now } ∧
      u.mem = (b.hubWrite (s.obPart p).listAt
        ((s.at_ t).listBytes ((s.obPart p).step + 1) 2 (s.obPart p).resultAt main)).mem) ∧
    (draft = [] → main = [] → exec (.cuttingListPublish p t) s = .next b))

/-- R321, R328, R330, R331: a write of OB_STEP_DONE that names no running list only leaves a record; one that names it puts the step into PHASE 3,
or, with ABORT, ends it; that, and a step that outlasts the limit its list was built with, ends the step with one abort counted, no list running
and no result taken, every core of the partition reset in the second case; a VF's write is a violation. -/
def Obligations.StepsEnd : Prop :=
  (∀ (p : Nat) (op : RegOp) (t : Dword) (s : State), isWide op.agent = true → (s.obPart p).running = none →
    ∃ u, exec (.obStepDone p op t) s = .next u ∧ (s.at_ t).Absorbs u) ∧
  (∀ (p : Nat) (op : RegOp) (t : Dword) (l : CutList) (s : State), isWide op.agent = true → (s.obPart p).running = some l →
    ((s.obPart p).phase = .updating ∨ op.part ≠ .full ∨ op.value.extractLsb' 32 32 ≠ (s.obPart p).step ∨ op.value.toNat % 256 ≠ l.lkind) →
    ∃ u, exec (.obStepDone p op t) s = .next u ∧ (s.at_ t).Absorbs u) ∧
  (∀ (p : Nat) (op : RegOp) (t : Dword) (l : CutList) (s : State), p < s.ob.ptn.length → isWide op.agent = true →
    (s.obPart p).running = some l → (s.obPart p).phase = .draft ∨ (s.obPart p).phase = .main →
    op.part = .full → op.value.extractLsb' 32 32 = (s.obPart p).step → op.value.toNat % 256 = l.lkind →
    (op.value.getLsbD 8 = true → exec (.obStepDone p op t) s = .next ((s.at_ t).stepAbort p false)) ∧
    (op.value.getLsbD 8 = true → s.ob.entries = [] → (s.obPart p).listed = [] → (s.obPart p).backup = [] → s.grouped = false →
      ∃ u, exec (.obStepDone p op t) s = .next u ∧ (u.obPart p).running = none ∧ (u.obPart p).phase = .idle ∧
        (u.obPart p).waitBundles = true ∧ (u.obPart p).aborts = satAdd (s.obPart p).aborts 1 ∧ u.cores = s.cores ∧ u.mem = s.mem ∧
        ∃ k, (k, ({ time := (s.at_ t).time.now, unit := unitId 0x10 p, cls := 2, source := 0x0D, code := 1, part := p
                    detail := toBytes 4 16383 ++ toBytes 4 (s.obPart p).step.toNat } : ErrRec)) ∈ u.err.log) ∧
    (op.value.getLsbD 8 = false →
      exec (.obStepDone p op t) s = .next ((s.at_ t).modObPart p fun o => { o with phase := .updating }))) ∧
  (∀ (p n : Nat) (op : RegOp) (t : Dword) (s : State), op.agent = .vf n → ∃ u, exec (.obStepDone p op t) s = .next u ∧
    u.obPart p = s.obPart p ∧ u.ob = s.ob ∧ u.cores = s.cores ∧ u.mem = s.mem) ∧
  (∀ (p : Nat) (t : Dword) (l : CutList) (s : State), (s.obPart p).running = some l → (s.obPart p).phase = .draft ∨ (s.obPart p).phase = .main →
    l.publishAt.toNat + (s.obPart p).listLimit * 1000000 ≤ (s.at_ t).now →
    exec (.stepLimitExpiry p t) s = .next (((coresOf (s.part p).quads).foldl (fun x c => x.coreReset c) (s.at_ t)).stepAbort p false)) ∧
  (∀ (p : Nat) (t : Dword) (l : CutList) (s : State), p < s.ob.ptn.length → (s.obPart p).running = some l →
    (s.obPart p).phase = .draft ∨ (s.obPart p).phase = .main →
    l.publishAt.toNat + (s.obPart p).listLimit * 1000000 ≤ (s.at_ t).now → s.ob.entries = [] → (s.obPart p).backup = [] → s.grouped = false →
    ∃ u, exec (.stepLimitExpiry p t) s = .next u ∧ (u.obPart p).running = none ∧ (u.obPart p).phase = .idle ∧
      (u.obPart p).aborts = satAdd (s.obPart p).aborts 1 ∧ ∀ c < 1024, (s.part p).quads.getLsbD (quadOf c) = true → (u.core c).skeins = [])

/-- R312, R318, R319, R320: tokens that end no limit are delivered: the token IDs and the status word go to the host in this order,
the count rises by their number, and the last time of delivery is now; a stop token, and MAX_TOKENS, end the sequence in STATE 5
with codes 0x102 and 0x103. -/
def Obligations.TokensAreDelivered : Prop :=
  (∀ (q tok pos : Nat) (i : ModelImage) (s : State), s.ob.image = some i → (s.entry q).live = true → (s.entry q).outTxtCap = 0 →
    (s.entry q).stops = [] → pos < 1048575 →
    ((s.entry q).stopTokens.contains tok = false → (s.entry q).accTokens + 1 < (s.entry q).maxTokens →
      (s.entry q).accTokens + 1 < (s.entry q).outTokCap →
      ∃ flags out, (s.deliver q [tok] pos false).hif.out = out ++ s.hif.out ∧
        out = [.write (s.entry q).fn (s.entry q).statusAddr (toBytes 8 (statusWord (s.entry q).st.statusState flags 0x100 (s.entry q).tag
            ((s.entry q).accTokens + 1)).toNat),
          .write (s.entry q).fn ((s.entry q).outTokAddr + BitVec.ofNat 64 (4 * (s.entry q).accTokens)) (toBytes 4 tok)] ∧
        ((s.deliver q [tok] pos false).entry q).accTokens = (s.entry q).accTokens + 1 ∧
        ((s.deliver q [tok] pos false).entry q).lastTime = s.time.now ∧
        ((s.deliver q [tok] pos false).entry q).st = (s.entry q).st) ∧
    (∀ code, (code = 0x102 ∧ (s.entry q).stopTokens.contains tok = true ∨
        code = 0x103 ∧ (s.entry q).stopTokens.contains tok = false ∧ (s.entry q).maxTokens ≤ (s.entry q).accTokens + 1) →
      ∃ flags, ((s.deliver q [tok] pos false).entry q).st = .free ∧
        .write (s.entry q).fn (s.entry q).statusAddr (toBytes 8 (statusWord 5 flags code (s.entry q).tag
            ((s.entry q).accTokens + 1)).toNat) ∈ (s.deliver q [tok] pos false).hif.out))

/-- R328, R331, R353, R355: the registers of the Order Book and of the deadline monitor take their fields; a TREE_ROWS outside 1 to
32 and a HYST of 0 leave their register as it was, with a record; a VF changes none of them.
R337: a prediction not yet seen takes the measured segment; a longer measurement raises it to that; a shorter one lowers it by
one unit only after HYST in a row; so it never falls below a measurement that has just been made, and it stands under a
measurement equal to it. -/
def Obligations.BookRegistersAndPredictions : Prop :=
  (∀ (p : Nat) (op : RegOp) (s : State), p < s.ob.ptn.length →
    (isWide op.agent = true → op.part = .full → op.value.toNat / 2 ^ 20 % 64 ∈ List.range' 1 32 → op.value.getLsbD 14 = false →
      ∃ u, exec (.obPtnCfgWrite p op) s = .next u ∧ u = { s with ob := { s.ob with ptn := u.ob.ptn } } ∧
        u.obPart p = { s.obPart p with
          stepLimitMs := op.value.extractLsb' 48 16, passesM1 := op.value.extractLsb' 32 5, treeRows := op.value.extractLsb' 20 6
          solo := op.value.getLsbD 15, soloAuto := false, soloSeq := op.value.extractLsb' 0 14 } ∧
        ∀ o, o ≠ p → u.obPart o = s.obPart o) ∧
    (isWide op.agent = true → op.part = .full → (op.value.toNat / 2 ^ 20 % 64 = 0 ∨ 32 < op.value.toNat / 2 ^ 20 % 64) →
      ∃ u, exec (.obPtnCfgWrite p op) s = .next u ∧ s.Absorbs u) ∧
    (isWide op.agent = true → op.part = .full → op.value.toNat / 2 ^ 32 % 16 ≠ 0 →
      ∃ u, exec (.dlmPtnCfgWrite p op) s = .next u ∧ (u.obPart p).marginUs = op.value.extractLsb' 48 16 ∧
        (u.obPart p).cold = op.value.extractLsb' 36 12 ∧ (u.obPart p).hyst = op.value.extractLsb' 32 4 ∧
        (u.obPart p).nofall = op.value.getLsbD 1 ∧ u.ob.entries = s.ob.entries ∧ u.cores = s.cores ∧
        (op.value.getLsbD 0 = false → (u.obPart p).preds = (s.obPart p).preds) ∧
        (op.value.getLsbD 0 = true → ∀ i, (tget {} (u.obPart p).preds i).seen = false ∧ (tget {} (u.obPart p).preds i).run = 0)) ∧
    (isWide op.agent = true → op.part = .full → op.value.toNat / 2 ^ 32 % 16 = 0 →
      ∃ u, exec (.dlmPtnCfgWrite p op) s = .next u ∧ s.Absorbs u) ∧
    (isWide op.agent = true → ∃ u, exec (.predictionClear p op.agent) s = .next u ∧
      (∀ i, (tget {} (u.obPart p).preds i).seen = false ∧ (tget {} (u.obPart p).preds i).run = 0) ∧
      (∀ o, o ≠ p → u.obPart o = s.obPart o) ∧ u.ob.entries = s.ob.entries) ∧
    (isWide op.agent = true → op.part = .full → exec (.obPeekSelWrite op) s = .next { s with ob := { s.ob with
      peekSel := BitVec.ofNat 14 (op.value.toNat % 16384), peek := s.entry (op.value.toNat % 16384) } }) ∧
    (isWide op.agent = true → op.part = .full → exec (.dlmAcctSelWrite op) s = .next { s with ob := { s.ob with
      acctSel := BitVec.ofNat 12 (op.value.toNat % 4096), acctPeek := tget {} s.ob.accts (op.value.toNat % 4096) } }) ∧
    (isWide op.agent = true → ∃ u, exec (.acctClearAll op.agent) s = .next u ∧ u = { s with ob := { s.ob with accts := u.ob.accts } } ∧
      ∀ c < 4096, tget {} u.ob.accts c = { since := s.time.now }) ∧
    (isWide op.agent = true → ∀ c : BitVec 12, ∃ u, exec (.acctClearClient op.agent c) s = .next u ∧
      u = { s with ob := { s.ob with accts := u.ob.accts } } ∧ tget {} u.ob.accts c.toNat = { since := s.time.now } ∧
      ∀ d, d ≠ c.toNat → tget {} u.ob.accts d = tget {} s.ob.accts d) ∧
    (∀ n, op.agent = .vf n → ∀ c ∈ [Instr.obPtnCfgWrite p op, .dlmPtnCfgWrite p op, .predictionClear p op.agent, .obPeekSelWrite op,
      .dlmAcctSelWrite op, .acctClearAll op.agent], ∃ u, exec c s = .next u ∧ u.ob = s.ob ∧ u.cores = s.cores ∧ u.mem = s.mem)) ∧
  (∀ (p i ns : Nat) (s : State), p < s.ob.ptn.length → 
    ∀ old new m, old = tget {} (s.obPart p).preds i → new = tget {} ((s.measured p i ns).obPart p).preds i →
      m = min 4095 (ceilDiv ns 100000) →
      new.seen = true ∧ m ≤ new.pred ∧ (old.seen = false → new.pred = m ∧ new.run = 0) ∧
      (old.seen = true → old.pred ≤ m → new.pred = m ∧ new.run = 0) ∧
      (old.seen = true → m < old.pred → old.run + 1 < (s.obPart p).hystNow.toNat → new.pred = old.pred ∧ new.run = old.run + 1) ∧
      (old.seen = true → m < old.pred → (s.obPart p).hystNow.toNat ≤ old.run + 1 → new.pred = old.pred - 1 ∧ new.run = 0) ∧
      (∀ k, k ≠ i → tget {} ((s.measured p i ns).obPart p).preds k = tget {} (s.obPart p).preds k) ∧
      (∀ o, o ≠ p → (s.measured p i ns).obPart o = s.obPart o))

/-- R346, R348, R349: a page of a pre-empted sequence goes to a free page of its client's window, under the client's key, and its
directory word and the pool follow; a resumed sequence without demoted pages returns to its work; one with them first takes pool
pages and copies each back. -/
def Obligations.PagesAreDemotedAndPromoted : Prop :=
  (∀ (q j src k dst key : Nat) (rest : SMap Nat) (w : List (Nat × Nat)) (s : State), (s.entry q).st = .preempted → (s.entry q).copy = .demoting →
    (s.entry q).resumeAsked = false → (s.entry q).stackPages = (j, src) :: rest → (s.entry q).part.toNat < s.ob.ptn.length →
    s.freeWindow (s.entry q).part.toNat (s.entry q).client.toNat (s.obPart (s.entry q).part.toNat).winPages
      (s.obPart (s.entry q).part.toNat).winBase = (k, dst) :: w →
    s.clientKey (s.entry q).client.toNat = some key →
    ∃ u, exec (.demotionPageCopy q) s = .next u ∧ tget 0 (u.entry q).pages j = dst ∧ (u.entry q).st = .preempted ∧
      (u.obPart (s.entry q).part.toNat).pool = (s.obPart (s.entry q).part.toNat).pool ++ [src] ∧
      (u.obPart (s.entry q).part.toNat).demoteUsed = (k, q, dst) :: (s.obPart (s.entry q).part.toNat).demoteUsed ∧
      ∀ x, x ≠ q → u.entry x = s.entry x) ∧
  (∀ (q : Nat) (s : State), (s.entry q).st = .preempted → (s.entry q).copy = .demoting →
    ((s.entry q).resumeAsked = true ∨ (s.entry q).stackPages = []) → ∃ u, exec (.demotionPageCopy q) s = .next u ∧
      u.entry q = { s.entry q with copy := .none } ∧ (∀ x, x ≠ q → u.entry x = s.entry x) ∧ u.mem = s.mem ∧ u.cores = s.cores) ∧
  (∀ (q : Nat) (s : State), s.mayResume q = true → (s.entry q).demotedPages = [] → 2 ≤ (s.obPart (s.entry q).part.toNat).pool.length →
    ∃ u, exec (.resumeStart q) s = .next u ∧ (u.entry q).copy = .none ∧ (u.entry q).resumeAsked = false ∧
      (u.entry q).st = (if (s.entry q).position < (s.entry q).promptLen then .prefill else .decode) ∧
      (u.entry q).freshResume = true ∧ u.cores = s.cores ∧ ∀ x, x ≠ q → u.entry x = s.entry x) ∧
  (∀ (q : Nat) (s : State), s.mayResume q = true → (s.entry q).demotedPages ≠ [] → (s.entry q).part.toNat < s.ob.ptn.length →
    (s.entry q).demotedPages.length + 2 ≤ (s.obPart (s.entry q).part.toNat).pool.length →
    ∃ u, exec (.resumeStart q) s = .next u ∧ (u.entry q).copy = .promoting ∧ (u.entry q).st = .preempted ∧
      (u.entry q).targets.length = (s.entry q).demotedPages.length ∧
      (∀ a ∈ (u.entry q).targets, a ∈ (s.obPart (s.entry q).part.toNat).pool) ∧
      (u.obPart (s.entry q).part.toNat).pool.length + (s.entry q).demotedPages.length = (s.obPart (s.entry q).part.toNat).pool.length) ∧
  (∀ (q j src dst : Nat) (more : SMap Nat) (rest : List Nat) (s : State), (s.entry q).st = .preempted → (s.entry q).copy = .promoting →
    (s.entry q).demotedPages = (j, src) :: more → (∃ x ∈ more, x.1 ≠ j) → (s.entry q).targets = dst :: rest → isLpd dst = false →
    ∃ u, exec (.promotionPageCopy q) s = .next u ∧ tget 0 (u.entry q).pages j = dst ∧ (u.entry q).targets = rest ∧
      (u.entry q).st = .preempted ∧ (u.entry q).copy = .promoting) ∧
  (∀ (q j src dst : Nat) (rest : List Nat) (s : State), (s.entry q).st = .preempted → (s.entry q).copy = .promoting →
    (s.entry q).demotedPages = [(j, src)] → (s.entry q).targets = dst :: rest → isLpd dst = false → isLpd src = true →
    ∃ u, exec (.promotionPageCopy q) s = .next u ∧ tget 0 (u.entry q).pages j = dst ∧ (u.entry q).copy = .none ∧
      (u.entry q).st = (if (s.entry q).position < (s.entry q).promptLen then .prefill else .decode))

/-- R400, R401, R402, R417: CLAIM_OWNER by an operator while no owner is enrolled, and SET_OWNER by the owner, write the next owner
slot, answer with result 0 and join the ledger; SET_OWNER ends every session and clears the operator key; all ones releases the
owner and resets the policy; the active key changes nothing; SET_POLICY and SET_OPERATOR put their value in place. -/
def Obligations.OwnerAndPolicyChange : Prop :=
  (∀ (r : ThimbleReq) (key : BitVec 512) (s : State), s.thm.otp.owner = none → s.Asked r isOperator .operator →
    s.thm.otp.owners.length < 8 → key ≠ BitVec.allOnes 512 → ∃ u, exec (.claimOwner r key) s = .next u ∧ s.Responds u r 1 0 ∧
      s.Ledgers u 1 0 ∧ u.thm.otp = { s.thm.otp with owners := s.thm.otp.owners ++ [key] } ∧ u.thm.otp.owner = some key ∧
      u.cores = s.cores ∧ u.ptn = s.ptn ∧ u.ob = s.ob) ∧
  (∀ (r : ThimbleReq) (key : BitVec 512) (s : State), s.Asked r isOwner .owner → s.thm.otp.owners.length < 8 →
    s.thm.otp.owner ≠ some key → ∃ u, exec (.setOwner r key) s = .next u ∧ s.Responds u r 2 0 ∧ s.Ledgers u 2 0 ∧
      u.thm.otp = { s.thm.otp with owners := s.thm.otp.owners ++ [key] } ∧ u.thm.sessions = [] ∧ u.thm.operatorKey = none ∧
      (key = BitVec.allOnes 512 → u.thm.otp.owner = none ∧ u.thm.flash.policy = 0) ∧
      (key ≠ BitVec.allOnes 512 → u.thm.flash.policy = s.thm.flash.policy) ∧ u.cores = s.cores ∧ u.ptn = s.ptn ∧ u.ob = s.ob) ∧
  (∀ (r : ThimbleReq) (key : BitVec 512) (s : State), s.Asked r isOwner .owner → s.thm.otp.owner = some key →
    ∃ u, exec (.setOwner r key) s = .next u ∧ s.Responds u r 2 0 ∧ u.thm.otp = s.thm.otp ∧ u.thm.flash = s.thm.flash ∧
      u.thm.operatorKey = s.thm.operatorKey ∧ u.cores = s.cores ∧ u.ptn = s.ptn) ∧
  (∀ (r : ThimbleReq) (p : PolicyParams) (s : State), s.Asked r isOwner .owner → s.ledgerLow = false → p.word.toNat < 32 →
    p.keys.length ≤ 4 → ∃ u, exec (.setPolicy r p) s = .next u ∧ s.Responds u r 3 0 ∧ s.Ledgers u 3 0 ∧
      u.thm.flash.policy = p.word.setWidth 5 ∧ u.thm.flash.policyKeys = p.keys ∧
      u.thm.flash.policySig = Config.deviceSign (sha512 (toBytes 4 (p.word.toNat % 32) ++ p.keys.flatMap fun k => toBytes 64 k.toNat)) ∧ u.thm.otp = s.thm.otp ∧ u.cores = s.cores ∧ u.ptn = s.ptn) ∧
  (∀ (r : ThimbleReq) (key : Option (BitVec 512)) (s : State), s.Asked r isOwner .owner → s.ledgerLow = false →
    ∃ u, exec (.setOperator r key) s = .next u ∧ s.Responds u r 4 0 ∧ s.Ledgers u 4 0 ∧ u.thm.operatorKey = key ∧
      (∀ k, s.thm.operatorKey = some k → ∀ x ∈ u.thm.sessions, x.key ≠ some k) ∧ u.thm.otp = s.thm.otp ∧ u.cores = s.cores ∧ u.ptn = s.ptn)

/-- R402, R410, R416, R492, R495: the debug policy only advances, MIN_SVN only rises and not above a running image's SVN (another target is refused with result 8), the
geometry and the alterations are persisted with one allowance each, the pattern is written by the factory until it is locked, and
an opt-in is its tenant's; each is answered with result 0 and joins the ledger. -/
def Obligations.LifetimeSettingsAdvance : Prop :=
  (∀ (r : ThimbleReq) (p : Nat) (s : State), s.Asked r isOwner .owner → s.thm.otp.debug < p → p ≤ 2 →
    ∃ u, exec (.advanceDebug r p) s = .next u ∧ s.Responds u r 5 0 ∧ s.Ledgers u 5 0 ∧ u.thm.otp = { s.thm.otp with debug := p } ∧
      u.ptn = s.ptn ∧ u.ob = s.ob ∧ u.mem = s.mem) ∧
  (∀ (r : ThimbleReq) (permit : Bool) (p : Nat) (s : State), s.Asked r isTenant (.tenant p) → s.ledgerLow = false → p < s.ptn.length →
    ∃ u, exec (.debugOptin r permit) s = .next u ∧ s.Responds u r 0x10 0 ∧ s.Ledgers u 0x10 0 ∧
      u.part p = { s.part p with optin := permit } ∧ (∀ q, q ≠ p → u.part q = s.part q) ∧ u.thm.otp = s.thm.otp ∧ u.ob = s.ob) ∧
  (∀ (r : ThimbleReq) (n : Nat) (s : State), s.Asked r isOwner .owner → s.thm.otp.minSvn < n → n ≤ 255 →
    n ≤ s.boot.thimble.1 → n ≤ s.boot.hub.1 → ∃ u, exec (.raiseSvn r n) s = .next u ∧ s.Responds u r 6 0 ∧ s.Ledgers u 6 0 ∧
      u.thm.otp = { s.thm.otp with minSvn := n } ∧ u.cores = s.cores ∧ u.ptn = s.ptn) ∧
  (∀ (r : ThimbleReq) (n : Nat) (s : State), s.Asked r isOwner .owner → n ≤ 255 → n ≤ s.thm.otp.minSvn ∨ s.boot.thimble.1 < n ∨ s.boot.hub.1 < n →
    ∃ u, exec (.raiseSvn r n) s = .next u ∧ s.Responds u r 6 8 ∧ (s.ledgerLow = false → s.Ledgers u 6 8) ∧ u.thm.otp = s.thm.otp ∧
      u.cores = s.cores) ∧
  (∀ (r : ThimbleReq) (role : Role) (s : State), s.Asked r (fun w => isOwner w || isOperator w) role →
    (isOperator role = true → s.policyBit 3 = true) → s.thm.otp.geoms < 32 →
    ∃ u, exec (.persistGeometry r) s = .next u ∧ s.Responds u r 7 0 ∧ s.Ledgers u 7 0 ∧
      u.thm.flash.geom = some (s.ptn.map (·.quads), s.ptn.map (·.sealed_)) ∧ u.thm.otp = { s.thm.otp with geoms := s.thm.otp.geoms + 1 } ∧
      u.cores = s.cores ∧ u.ptn = s.ptn) ∧
  (∀ (r : ThimbleReq) (role : Role) (s : State), s.Asked r (fun w => isOwner w || isOperator w) role →
    (isOperator role = true → s.policyBit 3 = true) → s.thm.otp.alterHash.length < 64 →
    ∃ u, exec (.persistAlterations r) s = .next u ∧ s.Responds u r 8 0 ∧ s.Ledgers u 8 0 ∧ u.thm.flash.alters = s.cal.alters ∧
      u.thm.otp = { s.thm.otp with alterHash := s.thm.otp.alterHash ++ [sha512 (alterBytes s.cal.alters)] } ∧
      u.thm.flash.altersSig = Config.deviceSign (sha512 (alterBytes s.cal.alters)) ∧
      u.cal = s.cal ∧ u.cores = s.cores ∧ u.ptn = s.ptn) ∧
  (∀ (r : ThimbleReq) (role : Role) (s : State), s.Asked r (fun w => isOwner w || isOperator w) role → isOperator role = true →
    s.policyBit 3 = false → s.thm.otp.geoms < 32 → s.thm.otp.alterHash.length < 64 → ∀ c ∈ [(Instr.persistGeometry r, 7), (.persistAlterations r, 8)], ∃ u, exec c.1 s = .next u ∧
      s.Responds u r c.2 5 ∧ u.thm.otp = s.thm.otp ∧ u.thm.flash.geom = s.thm.flash.geom ∧ u.thm.flash.alters = s.thm.flash.alters ∧
      u.cal = s.cal ∧ u.ptn = s.ptn) ∧
  (∀ (r : ThimbleReq) (pattern : BitVec 512) (lock : Bool) (s : State), s.Asked r isFactory .factory → s.ledgerLow = false →
    s.thm.otp.locked = false → ∃ u, exec (.writePattern r pattern lock) s = .next u ∧ s.Responds u r 0x12 0 ∧ s.Ledgers u 0x12 0 ∧
      u.thm.otp = { s.thm.otp with pattern := some pattern, locked := lock } ∧ u.cores = s.cores ∧ u.ptn = s.ptn) ∧
  (∀ (r : ThimbleReq) (seq count : Nat) (x : Session) (s : State), r.reservedOp = none → r.reservedZero = true → s.session r.session = some x →
    s.roles x ≠ [] → ∃ u, exec (.readLedger r seq count) s = .next u ∧ u.thm.flash = s.thm.flash ∧ u.thm.otp = s.thm.otp ∧
      u.thm.out = .result 0x11 r.reqId 0 ((s.thm.flash.ledger.reverse.drop seq).take count) :: s.thm.out ∧ u.cores = s.cores)

/-- R394, R404, R405, R406, R408: BIND names the tenant of a formed partition; GRANT_CLIENT grants a client of it a key of its own, and where
the module has LPDDR6 its demotion pages are mapped (log entry 91);
REVOKE_CLIENT cancels what is live of a client, whose pages are unmapped and whose key goes once nothing is; IMPORT_KEY replaces the key of the tenant's client, and
is refused where the policy forbids it, for another's client, and while the client has pages in LPDDR6; SET_REMOTE sets what a partition sends and admits. -/
def Obligations.TenantsAndClients : Prop :=
  (∀ (r : ThimbleReq) (p : Nat) (key : BitVec 512) (s : State), s.Asked r isOperator .operator → p < 16 → p < s.ptn.length →
    (s.part p).st = .formed → (s.part p).bound = false → ∃ u, exec (.bind r p key) s = .next u ∧ s.Responds u r 0xA 0 ∧
      u.part p = { s.part p with bound := true, tenantKey := some key } ∧ (∀ q, q ≠ p → u.part q = s.part q) ∧
      u.thm.otp = s.thm.otp ∧ u.thm.flash = s.thm.flash ∧ u.cores = s.cores) ∧
  (∀ (r : ThimbleReq) (c : BitVec 12) (p n : Nat) (s : State), s.Asked r isOperator .operator → p < 16 → (s.part p).st = .formed →
    n ≤ 65535 → (∀ x ∈ s.thm.clients, x.id ≠ c) → ∃ u, exec (.grantClient r c p n) s = .next u ∧ s.Responds u r 0xC 0 ∧
      u.thm.clients = s.thm.clients ++ [{ id := c, part := p, demotePages := n, key := s.thm.nextKey }] ∧
      u.thm.nextKey = s.thm.nextKey + 1 ∧ s.SameCores u ∧
      (∀ q, u.part q = { s.part q with oldLeaves := (u.part q).oldLeaves }) ∧
      (Config.lpddrGiB = 0 → u.ptn = s.ptn ∧ u.cores = s.cores ∧ u.mem = s.mem)) ∧
  (∀ (r : ThimbleReq) (c : BitVec 12) (role : Role) (s : State), s.Asked r (fun w => isOperator w || (isTenant w && s.ownsClient w c)) role →
    (∃ x ∈ s.thm.clients, x.id = c ∧ x.revoking = false) → ∃ u, exec (.revokeClient r c) s = .next u ∧ s.Responds u r 0xD 0 ∧
      u.thm.clients = s.thm.clients.map (fun x => if x.id == c then { x with revoking := true } else x) ∧
      ∀ q, (u.entry q).live = true → (u.entry q).client = c → (u.entry q).cancelPending = true) ∧
  (∀ (c : BitVec 12) (s : State), (∃ x ∈ s.thm.clients, x.id = c ∧ x.revoking = true) →
    (∀ e ∈ s.ob.entries, e.2.client = c → e.2.live = false) → ∃ u, exec (.revokeClientComplete c) s = .next u ∧
      u.thm = { s.thm with clients := s.thm.clients.filter fun x => x.id != c } ∧ s.SameCores u ∧ u.ob = s.ob) ∧
  (∀ (c : BitVec 12) (s : State), (∀ x ∈ s.thm.clients, x.id = c → x.revoking = false) ∨ (∃ e ∈ s.ob.entries, e.2.client = c ∧ e.2.live = true) →
    exec (.revokeClientComplete c) s = .next s) ∧
  (∀ (r : ThimbleReq) (c : BitVec 12) (key : BitVec 512) (p : Nat) (s : State), s.Asked r isTenant (.tenant p) →
    s.policyBit 4 = true → (∃ x ∈ s.thm.clients, x.id = c ∧ x.part = p) →
    (∀ e ∈ s.ob.entries, e.2.client = c → e.2.demotedPages = []) →
    ∃ u, exec (.importKey r c key) s = .next u ∧ s.Responds u r 0xE 0 ∧ u.thm.nextKey = s.thm.nextKey + 1 ∧
      u.thm.clients = s.thm.clients.map (fun x => if x.id == c then { x with imported := some key, key := s.thm.nextKey } else x) ∧
      u.ptn = s.ptn ∧ u.cores = s.cores ∧ u.mem = s.mem) ∧
  (∀ (r : ThimbleReq) (c : BitVec 12) (key : BitVec 512) (p : Nat) (s : State), s.Asked r isTenant (.tenant p) →
    (s.policyBit 4 = false → ∃ u, exec (.importKey r c key) s = .next u ∧ s.Responds u r 0xE 5 ∧ u.thm.clients = s.thm.clients ∧
      u.thm.nextKey = s.thm.nextKey) ∧
    (s.policyBit 4 = true → ((∀ x ∈ s.thm.clients, x.id = c → ∀ y, s.session r.session = some y → Role.tenant x.part ∉ s.roles y) ∨ ∃ e ∈ s.ob.entries, e.2.client = c ∧ e.2.demotedPages ≠ []) →
      ∃ u, exec (.importKey r c key) s = .next u ∧ s.Responds u r 0xE 9 ∧ u.thm.clients = s.thm.clients ∧ u.thm.nextKey = s.thm.nextKey)) ∧
  (∀ (r : ThimbleReq) (p : Nat) (send : Bool) (admission : List Dword) (s : State), s.Asked r isOperator .operator → p < 16 →
    p < s.ptn.length → (s.part p).st = .formed → admission.length = 8 → (∀ v ∈ admission, v.toNat / 2 ^ 34 % 2 ^ 29 = 0) →
    ∃ u, exec (.setRemote r p send admission) s = .next u ∧ s.Responds u r 0xF 0 ∧
      u.part p = { s.part p with sendEn := send, admission := admission.map fun v =>
        { en := v.getLsbD 63, hi := v.extractLsb' 17 17, lo := v.extractLsb' 0 17 } } ∧
      (∀ q, q ≠ p → u.part q = s.part q) ∧ u.cores = s.cores)

/-- R395, R397, R398, R399: a request in no established session is answered by an SPDM error; one with a reserved opcode or a reserved byte set, or by a
requester without the role, by result 1 or 2 and an absorbed record. Neither changes a setting. -/
def Obligations.RequestsWithoutRightRefused : Prop :=
  ∀ (r : ThimbleReq) (key : BitVec 512) (n : Nat) (pol : PolicyParams) (c : BitVec 12) (admission : List Dword) (m : List (BitVec 16))
    (z : List Bool) (s : State),
    ∀ x ∈ [(Instr.claimOwner r key, 1, fun w => isOperator w && s.thm.otp.owner.isNone), (.setOwner r key, 2, isOwner), (.setPolicy r pol, 3, isOwner),
        (.setOperator r (some key), 4, isOwner), (.advanceDebug r n, 5, isOwner), (.debugOptin r true, 0x10, isTenant), (.raiseSvn r n, 6, isOwner),
        (.persistGeometry r, 7, fun w => isOwner w || isOperator w), (.persistAlterations r, 8, fun w => isOwner w || isOperator w),
        (.writePattern r key true, 0x12, isFactory), (.bind r n key, 0xA, isOperator), (.grantClient r c n n, 0xC, isOperator),
        (.revokeClient r c, 0xD, fun w => isOperator w || (isTenant w && s.ownsClient w c)), (.importKey r c key, 0xE, isTenant),
        (.setRemote r n true admission, 0xF, isOperator), (.form r m z n s.time.now, 9, isOperator), (.unbind r n s.time.now, 0xB, isOperator),
        (.readLedger r n n, 0x11, fun _ => true)],
      (s.session r.session = none → ∃ u, exec x.1 s = .next u ∧ u = { s with thm := u.thm, time := u.time } ∧
        u.thm.out = .spdmError 2 :: s.thm.out ∧ u.thm.otp = s.thm.otp ∧ u.thm.flash = s.thm.flash ∧ u.thm.sessions = s.thm.sessions) ∧
      (∀ y, s.session r.session = some y → (r.reservedOp.isSome = true ∨ r.reservedZero = false ∨ (s.roles y).find? x.2.2 = none) →
        ∃ u, exec x.1 s = .next u ∧
          s.Responds u r ((r.reservedOp.map (·.toNat)).getD x.2.1) (if r.reservedOp.isSome ∨ r.reservedZero = false then 1 else 2) ∧ u.thm.otp = s.thm.otp ∧
          u.thm.flash.policy = s.thm.flash.policy ∧ u.thm.operatorKey = s.thm.operatorKey ∧ u.thm.clients = s.thm.clients ∧
          u.thm.form = s.thm.form ∧ (∀ q, (u.part q).quads = (s.part q).quads ∧ (u.part q).st = (s.part q).st ∧
            (u.part q).bound = (s.part q).bound ∧ (u.part q).optin = (s.part q).optin) ∧ u.cores = s.cores ∧ u.mem = s.mem ∧ u.ob = s.ob)

/-- R244, R391, R392, R393: FORM puts every partition that changes in PSTATE 2; drained, they are scrubbed; at the drain limit what still
runs in them is reset; at the end of the scrub the new masks and modes stand, a mode as PTN_SCRATCH_MODE was written in between where it was, a partition without a quadrant is unformed and one
with is formed, its VF follows, and no skein is left on a core of the quadrants that changed. -/
def Obligations.PartitionsAreFormed : Prop :=
  (∀ (r : ThimbleReq) (masks : List (BitVec 16)) (z : List Bool) (ms : Nat) (t : Dword) (s : State), (s.at_ t).Asked r isOperator .operator →
    s.formCodes masks z ms = [] → ∃ u, exec (.form r masks z ms t) s = .next u ∧ s.Responds u r 9 0 ∧
      u.thm.form = some { masks := masks, sealed_ := z, drainMs := ms, since := (s.at_ t).time.now, affected := s.affected masks z,
                          scrubbing := false } ∧
      (∀ p < s.ptn.length, u.part p = if p ∈ s.affected masks z then { s.part p with st := .draining } else s.part p) ∧
      u.cores = s.cores ∧ u.mem = s.mem ∧ u.ob = s.ob) ∧
  (∀ (f : FormSt) (s : State), s.thm.form = some f → f.scrubbing = false → (∀ p ∈ f.affected, s.drainedPart p = true) →
    ∃ u, exec .formDrainComplete s = .next u ∧ u.thm.form = some { f with scrubbing := true } ∧
      (∀ p < s.ptn.length, u.part p = if p ∈ f.affected then { s.part p with st := .scrubbing } else s.part p) ∧
      u.mem.bytes = s.mem.bytes ∧ u.ob = s.ob) ∧
  (∀ (f : FormSt) (s : State), s.thm.form = some f → (∃ p ∈ f.affected, s.drainedPart p = false) →
    exec .formDrainComplete s = .next s) ∧
  (∀ (f : FormSt) (t : Dword) (s : State), s.thm.form = some f → f.scrubbing = false →
    f.since.toNat + f.drainMs * 1000000 ≤ (s.at_ t).now → ∃ u, exec (.formDrainLimitExpiry t) s = .next u ∧
      ∀ p ∈ f.affected, ∀ c, (s.part p).quads.getLsbD (quadOf c) = true → (u.core c).busy = false) ∧
  (∀ (f : FormSt) (s : State), s.thm.form = some f → f.scrubbing = true → f.affected.Nodup → ∃ u, exec .formScrubComplete s = .next u ∧
    u.thm.form = none ∧ u.thm.forms = s.thm.forms + 1 ∧
    (∀ p ∈ f.affected, p < s.ptn.length → p + 1 < s.hif.fns.length → (u.part p).quads = nth 0 f.masks p ∧
      (u.part p).sealed_ = (s.part p).sealedNext.getD (nth false f.sealed_ p) ∧ ((u.part p).st = if nth 0 f.masks p = 0 then .unformed else .formed) ∧
      (u.fn (p + 1)).enabled = (nth 0 f.masks p != 0)) ∧
    (∀ p, p ∉ f.affected → (u.part p).quads = (s.part p).quads ∧ (u.part p).st = (s.part p).st) ∧
    ∀ c < 1024, (s.scrubMask f).getLsbD (quadOf c) = true → (u.core c).skeins = [] ∧ (u.core c).bundles = [] ∧ (u.core c).cnt = [] ∧
      (u.core c).quar = (s.core c).quar)

/-- R394: UNBIND stops the rings and drains; at the step limit what still runs is reset; drained, the partition is scrubbed; at the
end it is formed and unbound, its clients and the tenant's sessions are gone, and no skein is left on its cores. -/
def Obligations.PartitionsAreUnbound : Prop :=
  (∀ (r : ThimbleReq) (p : Nat) (t : Dword) (s : State), (s.at_ t).Asked r isOperator .operator → p < 16 → p < s.ptn.length →
    p + 1 < s.hif.fns.length → (s.part p).st = .formed → (s.part p).bound = true →
    ∃ u, exec (.unbind r p t) s = .next u ∧ s.Responds u r 0xB 0 ∧
      u.part p = { s.part p with
        st := .draining, bound := false, optin := false, unbind := some { since := (s.at_ t).time.now, drained := false } } ∧
      (u.fn (p + 1)).req.enable = false ∧ (u.fn (p + 1)).cmd.enable = false ∧ (∀ q, q ≠ p → u.part q = s.part q) ∧ u.mem = s.mem) ∧
  (∀ (p : Nat) (d : UnbindSt) (s : State), (s.part p).unbind = some d → d.drained = false → s.drainedPart p = true → p < s.ptn.length →
    ∃ u, exec (.unbindDrainComplete p) s = .next u ∧ (u.part p).st = .scrubbing ∧ (u.part p).unbind = some { d with drained := true } ∧
      (∀ q, (u.entry q).live = true → (u.entry q).part.toNat ≠ p) ∧ s.SameCores u) ∧
  (∀ (p : Nat) (d : UnbindSt) (t : Dword) (s : State), (s.part p).unbind = some d → d.drained = false →
    d.since.toNat + (s.obPart p).limitMs * 1000000 ≤ (s.at_ t).now → ∃ u, exec (.unbindStepLimitExpiry p t) s = .next u ∧
      ∀ c, (s.part p).quads.getLsbD (quadOf c) = true → (u.core c).busy = false) ∧
  (∀ (p : Nat) (d : UnbindSt) (s : State), (s.part p).unbind = some d → d.drained = true → p < s.ptn.length →
    ∃ u, exec (.unbindComplete p) s = .next u ∧ (u.part p).st = .formed ∧ (u.part p).tenantKey = none ∧ (u.part p).unbind = none ∧
      (u.part p).optin = false ∧ (u.part p).sealed_ = (s.part p).sealedNext.getD (s.part p).sealed_ ∧
      (∀ x ∈ u.thm.clients, x.part ≠ p) ∧ (∀ k, (s.part p).tenantKey = some k → ∀ x ∈ u.thm.sessions, x.key ≠ some k) ∧
      (∀ c < 1024, (s.part p).quads.getLsbD (quadOf c) = true → (u.core c).skeins = [] ∧ (u.core c).bundles = []) ∧
      ∀ a ∈ (s.obPart p).pool, ∀ i < 0x200000, tget unlisted u.mem.bytes (a + i) = 0)

/-- R396, R413, R414: the connection comes to its stages in order; a later message before its stage, another version and an invalid
field are answered by an SPDM error and change nothing; certificates, digests, the challenge and the measurements are answered
from what stands. -/
def Obligations.SpdmConnectionAnswers : Prop :=
  ∀ (m : SpdmMsg) (s : State),
    (m.valid = true → exec (.getVersion m) s = .next { s with thm := { s.thm with spdm := 1, out := .spdm 4 [0x00, 0x13] :: s.thm.out } }) ∧
    (m.version = 0x13 → m.valid = true →
      (1 ≤ s.thm.spdm → ∃ b, exec (.getCapabilities m) s = .next { s with thm := { s.thm with spdm := 2, out := .spdm 0x61 b :: s.thm.out } }) ∧
      (2 ≤ s.thm.spdm → ∃ b, exec (.negotiateAlgorithms m true) s = .next { s with thm := { s.thm with spdm := 3, out := .spdm 0x63 b :: s.thm.out } }) ∧
      (2 ≤ s.thm.spdm → exec (.negotiateAlgorithms m false) s = .next { s with thm := { s.thm with out := .spdmError 1 :: s.thm.out } }) ∧
      (3 ≤ s.thm.spdm →
        exec (.getDigests m) s = .next { s with thm := { s.thm with
          out := .spdm 1 (toBytes 64 (sha512 s.certChain).toNat) :: s.thm.out } } ∧
        (∀ off len, exec (.getCertificate m 0 off len) s = .next { s with thm := { s.thm with
          out := (if s.certChain.length ≤ off then .spdmError 1 else .spdm 2 (toBytes 2 (min len (s.certChain.length - off)) ++
            toBytes 2 (s.certChain.length - off - min len (s.certChain.length - off)) ++ (s.certChain.drop off).take len)) ::
              s.thm.out } }) ∧
        (∀ nonce, ∃ sig, exec (.challenge m 0 nonce) s = .next { s with thm := { s.thm with
          out := .spdm 3 (toBytes 64 (sha512 s.certChain).toNat ++ sig) :: s.thm.out } }) ∧
        (∀ i b, s.measurement i = some b → i ≠ 0xFF → exec (.getMeasurements m i) s = .next { s with thm := { s.thm with
          out := .spdm 0x60 (measureBlock i b) :: s.thm.out } }) ∧
        (∀ i, 9 < i ∨ i = 0 → i ≠ 0xFF → exec (.getMeasurements m i) s = .next { s with thm := { s.thm with out := .spdmError 1 :: s.thm.out } }))) ∧
    (∀ x ∈ [(Instr.getCapabilities m, 1), (.negotiateAlgorithms m true, 2), (.getDigests m, 3), (.getCertificate m 0 0 0, 3),
        (.challenge m 0 0, 3), (.getMeasurements m 1, 3), (.keyExchange m 0 false 0, 3), (.finish m 0 true true, 3), (.heartbeat m 0, 3),
        (.keyUpdate m 0, 3), (.endSession m 0, 3)],
      m.version ≠ 0x13 ∨ s.thm.spdm < x.2 ∨ m.valid = false →
      ∃ code, exec x.1 s = .next { s with thm := { s.thm with out := .spdmError code :: s.thm.out } })

/-- R380, R396, R413: a key exchange opens a session, with the requester's key where it proved one, and ends that key's earlier
ones, while fewer than 24 stand; FINISH establishes it, or ends it; a message in a session keeps it alive, and one that has carried
none for 60 s ends; IDE keys are programmed, set going and stopped only in an established session. -/
def Obligations.SpdmSessionsAndIde : Prop :=
  (∀ (m : SpdmMsg) (auth : Bool) (key : BitVec 512) (s : State), m.version = 0x13 → m.valid = true → 3 ≤ s.thm.spdm →
    s.thm.sessions.length < 24 → ∃ u, exec (.keyExchange m 0 auth key) s = .next u ∧ u = { s with thm := u.thm } ∧
      u.thm.sessions = (s.thm.sessions.filter fun x => !(auth && x.key == some key)) ++
        [{ id := s.thm.nextSession, key := if auth then some key else none, established := false, lastAt := s.time.now, keyGen := 0 }] ∧
      u.thm.nextSession = s.thm.nextSession + 1 ∧ u.thm.otp = s.thm.otp ∧ u.thm.flash = s.thm.flash) ∧
  (∀ (m : SpdmMsg) (n : Nat) (hmac sig : Bool) (x : Session) (s : State), m.version = 0x13 → m.valid = true → 3 ≤ s.thm.spdm →
    s.thm.sessions.find? (fun y => y.id == n && !y.established) = some x →
    ∃ u, exec (.finish m n hmac sig) s = .next u ∧ u = { s with thm := u.thm } ∧
      (hmac = true → (x.key = none ∨ sig = true) → u.thm.sessions = s.thm.sessions.map (fun y =>
        if y.id == n then { y with established := true, lastAt := s.time.now } else y) ∧ (u.session n).isSome = true) ∧
      ((hmac = false ∨ x.key.isSome = true ∧ sig = false) → u.thm.sessions = s.thm.sessions.filter fun y => y.id != n)) ∧
  (∀ (m : SpdmMsg) (n : Nat) (s : State), m.version = 0x13 → m.valid = true → 3 ≤ s.thm.spdm → (s.session n).isSome = true →
    (∃ u, exec (.heartbeat m n) s = .next u ∧ (∀ y ∈ u.thm.sessions, y.id = n → y.lastAt = s.time.now) ∧ u.thm.otp = s.thm.otp) ∧
    (∃ u, exec (.keyUpdate m n) s = .next u ∧ u.thm.sessions = s.thm.sessions.map (fun y =>
      if y.id == n then { y with lastAt := s.time.now, keyGen := y.keyGen + 1 } else y)) ∧
    (∃ u, exec (.endSession m n) s = .next u ∧ u.thm.sessions = s.thm.sessions.filter fun y => y.id != n)) ∧
  (∀ (n : Nat) (t : Dword) (s : State), ∃ u, exec (.spdmSessionTimeout n t) s = .next u ∧ u.thm.sessions =
    s.thm.sessions.filter fun y => !(y.id == n && decide (y.lastAt.toNat + 60000000000 ≤ (s.at_ t).now))) ∧
  (∀ (n k : Nat) (key : BitVec 256) (s : State), k < s.hif.ide.length → (s.session n).isSome = true →
    (∃ u, exec (.ideKm n (.keyProg k key)) s = .next u ∧ (nth .insecure s.hif.ide k = .insecure → nth .insecure u.hif.ide k = .keyed) ∧
      ∀ j, j ≠ k → nth .insecure u.hif.ide j = nth .insecure s.hif.ide j) ∧
    (∃ u, exec (.ideKm n (.setGo k)) s = .next u ∧ (nth .insecure s.hif.ide k = .keyed → nth .insecure u.hif.ide k = .secure) ∧
      (nth .insecure s.hif.ide k = .insecure → nth .insecure u.hif.ide k = .insecure)) ∧
    (∃ u, exec (.ideKm n (.setStop k)) s = .next u ∧ nth .insecure u.hif.ide k = .insecure)) ∧
  (∀ (n : Nat) (x : IdeMsg) (s : State), s.session n = none → exec (.ideKm n x) s = .next { s with thm := { s.thm with
    out := .spdmError 2 :: s.thm.out } })

/-- R368, R380, R384, R388, R389: RING_TAIL_WRITE, HIF_RING_BASE_WRITE and HIF_RING_CFG_WRITE: a ring's registers take their values within their rules, and outside them the function is charged
a violation and the register stands; one that the agent or the function may not make is dropped. -/
def Obligations.RingRegistersAreWritten : Prop :=
  (∀ (fn ring : Nat) (op : RegOp) (s : State), s.ringWritable op.agent fn ring = true → fn < s.hif.fns.length → op.part = .full →
    (((s.fn fn).ring ring).enable = true → op.value.toNat % 4096 < 2 ^ ((s.fn fn).ring ring).log2.toNat →
      exec (.ringTailWrite fn ring op) s = .next (s.modFn fn fun f => f.modRing ring fun r => { r with tail := BitVec.ofNat 12 (op.value.toNat % 4096) })) ∧
    ((((s.fn fn).ring ring).enable = false ∨ 2 ^ ((s.fn fn).ring ring).log2.toNat ≤ op.value.toNat % 4096) →
      ∃ u, exec (.ringTailWrite fn ring op) s = .next u ∧ (u.fn fn).ring ring = (s.fn fn).ring ring ∧ u.cores = s.cores ∧ u.mem = s.mem ∧
        ((s.fn (agentFn op.agent fn)).violations.toNat < 65535 → agentFn op.agent fn < s.hif.fns.length →
          (u.fn (agentFn op.agent fn)).violations.toNat = (s.fn (agentFn op.agent fn)).violations.toNat + 1)) ∧
    (((s.fn fn).ring ring).enable = false → exec (.hifRingBaseWrite fn ring op) s =
      .next (s.modFn fn fun f => f.modRing ring fun r => { r with base := op.value.extractLsb' 12 52 })) ∧
    (((s.fn fn).ring ring).enable = true → op.value.extractLsb' 12 52 ≠ ((s.fn fn).ring ring).base →
      ∃ u, exec (.hifRingBaseWrite fn ring op) s = .next u ∧ (u.fn fn).ring ring = (s.fn fn).ring ring) ∧
    (((s.fn fn).ring ring).enable = false → op.value.getLsbD 0 = true → s.ideHeld fn = false → 6 ≤ s.boot.phase →
      4 ≤ op.value.toNat / 2 % 16 → op.value.toNat / 2 % 16 ≤ 12 → ∃ u, exec (.hifRingCfgWrite fn ring op) s = .next u ∧
        (u.fn fn).ring ring = { (s.fn fn).ring ring with
          log2 := BitVec.ofNat 4 (op.value.toNat / 2 % 16), enable := true, head := 0, tail := 0, consumed := 0, err := false } ∧
        u.cores = s.cores ∧ u.mem = s.mem) ∧
    (op.value.getLsbD 0 = true → s.boot.phase < 6 ∨ s.ideHeld fn = true → exec (.hifRingCfgWrite fn ring op) s = .next s) ∧
    (op.value.getLsbD 0 = false → 4 ≤ op.value.toNat / 2 % 16 → op.value.toNat / 2 % 16 ≤ 12 →
      ((s.fn fn).ring ring).enable = false ∨ op.value.toNat / 2 % 16 = ((s.fn fn).ring ring).log2.toNat →
      exec (.hifRingCfgWrite fn ring op) s = .next (s.modFn fn fun f => f.modRing ring fun r =>
        { r with log2 := BitVec.ofNat 4 (op.value.toNat / 2 % 16), enable := false })) ∧
    (isWide op.agent = true → op.value.toNat / 2 ^ 30 % 2 ^ 17 % s.hif.bar2Size = 0 → exec (.hifBar2BaseWrite op) s =
      .next { s with hif := { s.hif with bar2Base := BitVec.ofNat 17 (op.value.toNat / 2 ^ 30 % 2 ^ 17) } }) ∧
    (isWide op.agent = true → op.value.toNat / 2 ^ 30 % 2 ^ 17 % s.hif.bar2Size ≠ 0 → ∃ u, exec (.hifBar2BaseWrite op) s = .next u ∧
      u.hif.bar2Base = s.hif.bar2Base)) ∧
  (∀ (fn ring : Nat) (op : RegOp) (s : State), (s.ringWritable op.agent fn ring = false →
      exec (.ringTailWrite fn ring op) s = .next s ∧ exec (.hifRingBaseWrite fn ring op) s = .next s ∧ exec (.hifRingCfgWrite fn ring op) s = .next s) ∧
    (s.ringWritable op.agent fn ring = true → fn < s.hif.fns.length → op.part = .low → ((s.fn fn).ring ring).enable = true →
      op.value.toNat % 4096 < 2 ^ ((s.fn fn).ring ring).log2.toNat →
      exec (.ringTailWrite fn ring op) s = .next (s.modFn fn fun f => f.modRing ring fun r => { r with tail := BitVec.ofNat 12 (op.value.toNat % 4096) })) ∧
    (op.part ≠ .full → ∃ u, exec (.hifRingBaseWrite fn ring op) s = .next u ∧ (u.fn fn).ring ring = (s.fn fn).ring ring ∧ u.cores = s.cores ∧ u.mem = s.mem))

/-- R368, R373, R384: RING_ENTRY_READ: a ring's next entry is copied, HEAD advances and CONSUMED rises, and the entry waits; one without a status
address is skipped with a violation; one with a reserved opcode is answered with code 1; a failed read stops the ring. -/
def Obligations.RingEntriesAreRead : Prop :=
  (∀ (fn ring : Nat) (x : HostRead) (s : State), s.ringReady fn ring = false → exec (.ringEntryRead fn ring x) s = .next s) ∧
  (∀ (fn ring : Nat) (b : List Byte) (s : State), s.ringReady fn ring = true → fn < s.hif.fns.length → ring < 2 → b.length = 64 →
    (leAt b 8 8 ≠ 0 → leAt b 8 8 % 8 = 0 → (ring = 1 → opcodeDefined (leAt b 0 1) = true) →
      ∃ u, exec (.ringEntryRead fn ring (.ok b)) s = .next u ∧
        u.hif.inbox = s.hif.inbox ++ [{ fn := fn, ring := ring, addr := ((s.fn fn).ring ring).next, bytes := b }] ∧
        ((u.fn fn).ring ring).head = BitVec.ofNat 12 ((((s.fn fn).ring ring).head.toNat + 1) % 2 ^ ((s.fn fn).ring ring).log2.toNat) ∧
        ((u.fn fn).ring ring).consumed = ((s.fn fn).ring ring).consumed + 1 ∧ u.hif.out = s.hif.out ∧ u.cores = s.cores) ∧
    (leAt b 8 8 = 0 ∨ leAt b 8 8 % 8 ≠ 0 → ∃ u, exec (.ringEntryRead fn ring (.ok b)) s = .next u ∧ u.hif.inbox = s.hif.inbox ∧
      ((u.fn fn).ring ring).head = BitVec.ofNat 12 ((((s.fn fn).ring ring).head.toNat + 1) % 2 ^ ((s.fn fn).ring ring).log2.toNat)) ∧
    (leAt b 8 8 ≠ 0 → leAt b 8 8 % 8 = 0 → ring = 1 → opcodeDefined (leAt b 0 1) = false → ∃ u, exec (.ringEntryRead fn ring (.ok b)) s = .next u ∧
      u.hif.inbox = s.hif.inbox ∧ .write fn (BitVec.ofNat 64 (leAt b 8 8)) (toBytes 8 (statusWord 7 0 1 (BitVec.ofNat 32 (leAt b 4 4)) 0).toNat) ∈ u.hif.out) ∧
    (∃ u, exec (.ringEntryRead fn ring .failed) s = .next u ∧ ((u.fn fn).ring ring).err = true ∧
      ((u.fn fn).ring ring).head = ((s.fn fn).ring ring).head ∧ u.hif.inbox = s.hif.inbox))

/-- R243, R363, R364, R379, R380, R384: an access that BAR2 reaches, within the aperture and the IDE stream it must come in, reads or writes the bytes it names;
one it does not reach, and a poisoned one, is answered with UR or dropped, with a violation; a packet that fails its IDE check makes its stream Insecure; merged
MSI-X events send one message at the end of their interval; a request whose host read timed out fails with code 8 and a ring stops. -/
def Obligations.HostAccessesAnswered : Prop :=
  (∀ (fn off len a key : Nat) (x : Tlp) (s : State), x.ideFail = false → x.poisoned = false → s.bar2Shut fn off len x = false →
    s.bar2Reach fn off len false = .inl (a, key) →
    (s.damagedAt a len = false → ∃ u, exec (.bar2Read fn off len x) s = .next u ∧ u.hif = (s.complete fn 0 (s.keyBytes key a len)).hif ∧
      u.cores = s.cores ∧ u.ob = s.ob ∧ u.mem.bytes = s.mem.bytes) ∧
    (s.damagedAt a len = true → ∃ u out, exec (.bar2Read fn off len x) s = .next u ∧ u.hif.out = .completion fn 2 [] :: out ∧
      u.mem.bytes = s.mem.bytes ∧ u.cores = s.cores)) ∧
  (∀ (fn off len row : Nat) (x : Tlp) (s : State), x.ideFail = false → x.poisoned = false → s.bar2Shut fn off len x = false →
    s.bar2Reach fn off len false = .inr row →
    ∃ u out, exec (.bar2Read fn off len x) s = .next u ∧ u.hif.out = .completion fn 1 [] :: out ∧ u.mem = s.mem ∧ u.cores = s.cores) ∧
  (∀ (fn off len : Nat) (bs : List Byte) (x : Tlp) (s : State), x.ideFail = false →
    (s.bar2Shut fn off len x = true → exec (.bar2Read fn off len x) s = .next (s.complete fn 1 [])) ∧
    (s.bar2Shut fn off bs.length x = true → exec (.bar2Write fn off bs x) s = .next s) ∧
    (s.fnUp fn = false ∨ s.bar2GiB fn * 2 ^ 30 < off + len → s.bar2Shut fn off len x = true)) ∧
  (∀ (fn off a key : Nat) (bs : List Byte) (x : Tlp) (s : State), x.ideFail = false → x.poisoned = false → s.bar2Shut fn off bs.length x = false →
    s.bar2Reach fn off bs.length true = .inl (a, key) → isStack (a + bs.length) = true →
    ∃ u, exec (.bar2Write fn off bs x) s = .next u ∧ u.bytesAt a bs.length = bs ∧ u.hif = s.hif ∧ u.ob = s.ob ∧ s.SameCores u ∧
      ∀ y, isStack y = true → (y < a ∨ a + bs.length ≤ y) → u.byteAt y = s.byteAt y) ∧
  (∀ (fn off row : Nat) (bs : List Byte) (x : Tlp) (s : State), x.ideFail = false → x.poisoned = false → s.bar2Shut fn off bs.length x = false →
    s.bar2Reach fn off bs.length true = .inr row → ∃ u, exec (.bar2Write fn off bs x) s = .next u ∧ u.mem = s.mem ∧ u.cores = s.cores) ∧
  (∀ (fn off len : Nat) (bs : List Byte) (x : Tlp) (s : State), x.ideFail = false → x.poisoned = true →
    (s.bar2Shut fn off len x = false → ∃ u out, exec (.bar2Read fn off len x) s = .next u ∧ u.hif.out = .completion fn 1 [] :: out ∧ u.mem = s.mem) ∧
    (s.bar2Shut fn off bs.length x = false → ∃ u, exec (.bar2Write fn off bs x) s = .next u ∧ u.mem = s.mem ∧ u.cores = s.cores)) ∧
  (∀ (fn off len k : Nat) (bs : List Byte) (s : State), k < s.hif.ide.length →
    (∃ u, exec (.bar2Read fn off len { ideFail := true, stream := some k }) s = .next u ∧ nth .secure u.hif.ide k = .insecure ∧ u.mem = s.mem) ∧
    (∃ u, exec (.bar2Write fn off bs { ideFail := true, stream := some k }) s = .next u ∧ nth .secure u.hif.ide k = .insecure ∧ u.mem = s.mem)) ∧
  (∀ (fn v : Nat) (t e : Dword) (m : MsixSt) (s : State), tget {} s.hif.msix (fn * 16 + v) = m → m.until_ = some e →
    e ≤ (s.at_ t).time.now → ∃ u, exec (.msixHoldoffExpiry fn v t) s = .next u ∧ u.cores = s.cores ∧ u.mem = s.mem ∧
      (m.merged = true → u.hif.out = .msix fn v :: s.hif.out) ∧
      (m.merged = false → u.hif.out = s.hif.out ∧ tget {} u.hif.msix (fn * 16 + v) = {})) ∧
  (∀ (fn ring q : Nat) (s : State), (s.entry q).st = .admission → (s.entry q).fn = fn → ∃ u flags, exec (.completionTimeout fn ring (some q)) s = .next u ∧
    (u.entry q).st = .free ∧ .write fn (s.entry q).statusAddr (toBytes 8 (statusWord 7 flags 8 (s.entry q).tag (s.entry q).accTokens).toNat) ∈ u.hif.out) ∧
  (∀ (fn ring : Nat) (s : State), s.ringReady fn ring = true → fn < s.hif.fns.length → ring < 2 →
    ∃ u, exec (.completionTimeout fn ring none) s = .next u ∧ ((u.fn fn).ring ring).err = true ∧ u.cores = s.cores)

/-- R359, R360, R363, R383, R557: configuration requests get Request Retry until configuration is ready, and UR at a disabled VF; a capability is present
where the feature table gives it; the writable registers take the values the rules admit, and the power state puts a function in D3hot or
back in D0. What a register holds goes out in a unit of its own (log entry 54). -/
def Obligations.ConfigurationRequestsAnswered : Prop :=
  (∀ (fn : Nat) (op : ConfigOp) (s : State), s.hif.configReady = false → exec (.configRequest ⟨fn, op⟩) s = .next (s.complete fn 3 [])) ∧
  (∀ (fn : Nat) (op : ConfigOp) (s : State), s.hif.configReady = true → fn ≠ 0 → (s.fn fn).enabled = false →
    exec (.configRequest ⟨fn, op⟩) s = .next (s.complete fn 1 [])) ∧
  (∀ (fn : Nat) (s : State), s.hif.configReady = true → fn = 0 ∨ (s.fn fn).enabled = true →
    (∀ c ∈ [Capability.flitMode, .l0p, .tenBitTags, .msix, .aer, .flr], exec (.configRequest ⟨fn, .present c⟩) s = .next (s.complete fn 0 [1, 0, 0, 0])) ∧
    (∀ c ∈ [Capability.aspmL0s, .aspmL1, .l1Substates, .ats, .pri, .pasid, .tdisp, .tph, .atomicOps, .ptm, .cxl],
      exec (.configRequest ⟨fn, .present c⟩) s = .next (s.complete fn 0 [0, 0, 0, 0])) ∧
    (fn = 0 → ∀ c ∈ [Capability.sriov, .ari, .resizableBar, .vfResizableBar, .ide, .doe],
      exec (.configRequest ⟨fn, .present c⟩) s = .next (s.complete fn 0 [1, 0, 0, 0])) ∧
    (∀ x ∈ [(ConfigReg.maxPayload, (s.fn fn).maxPayload), (.maxRead, (s.fn fn).maxRead), (.bar2Size, s.hif.bar2Size), (.vfBar2Size, s.hif.vfBar2Size),
        (.powerState, if (s.fn fn).d3hot then 3 else 0), (.noSoftReset, 0), (.tags, 768), (.vfs, 16), (.vectors, if fn = 0 then 16 else 2)],
      exec (.configRequest ⟨fn, .read x.1⟩) s = .next (s.complete fn 0 (toBytes 4 x.2)))) ∧
  (∀ (fn v : Nat) (s : State), s.hif.configReady = true → fn = 0 ∨ (s.fn fn).enabled = true → fn < s.hif.fns.length → s.wlk.deadPending = [] →
    (∀ x ∈ [(ConfigReg.maxPayload, fun f : FnSt => f.maxPayload, [128, 256, 512]),
        (.maxRead, fun f : FnSt => f.maxRead, [128, 256, 512, 1024, 2048, 4096]), (.timeoutRange, fun f : FnSt => f.timeoutRange, [0, 1, 2, 3, 4])],
      ∃ u, exec (.configRequest ⟨fn, .write x.1 v⟩) s = .next u ∧ x.2.1 (u.fn fn) = (if v ∈ x.2.2 then v else x.2.1 (s.fn fn)) ∧
        u.hif.out = .completion fn 0 [] :: s.hif.out ∧ u.mem = s.mem ∧ u.cores = s.cores) ∧
    (∃ u, exec (.configRequest ⟨fn, .write .bar2Size v⟩) s = .next u ∧
      u.hif.bar2Size = (if fn = 0 ∧ v ∈ [1, 2, 4, 8, 16, 32, 64] then v else s.hif.bar2Size) ∧ u.hif.vfBar2Size = s.hif.vfBar2Size) ∧
    (∃ u, exec (.configRequest ⟨fn, .write .vfBar2Size v⟩) s = .next u ∧
      u.hif.vfBar2Size = (if fn = 0 ∧ v ∈ [1, 2, 4, 8, 16, 32, 64] then v else s.hif.vfBar2Size) ∧ u.hif.bar2Size = s.hif.bar2Size) ∧
    (∃ u, exec (.configRequest ⟨fn, .write .powerState 3⟩) s = .next u ∧ (u.fn fn).d3hot = true) ∧
    (∃ u, exec (.configRequest ⟨fn, .write .powerState 0⟩) s = .next u ∧ (u.fn fn).d3hot = false ∧ u.mem = s.mem ∧ u.cores = s.cores) ∧
    (∃ u, exec (.configRequest ⟨fn, .write .noSoftReset v⟩) s = .next u ∧ u = s.complete fn 0 []))

/-- R422, R423, R445: the next data block is accepted and acknowledged at once by a block with a good CRC; a bad one and one out of order are
answered with one NAK for the gap and not accepted; one whose CRC is good but whose fields are not is a violation too; an acknowledgement
takes the blocks up to its own out of the retry buffer; credits come back up to the buffer's size; nothing is read on a port out of
service. -/
def Obligations.BlocksAreReceived : Prop :=
  ∀ (port : Nat) (b : Block) (s : State), port < 12 → port < s.wlk.ports.length → s.wlk.deadPending = [] →
    ((s.port port).st = .disabled ∨ (s.port port).st = .down → exec (.linkDataBlockReceive port b) s = .next s ∧
      exec (.linkIdleBlockReceive port b) s = .next s) ∧
    ((s.port port).st = .up → (s.port port).queue = [] →
    (bareBlock b → b.bkind = 1 → b.seq = (s.port port).expect → ∃ u a, exec (.linkDataBlockReceive port b) s = .next u ∧
      (u.port port).expect = b.seq + 1 ∧ (u.port port).accepted = true ∧ (u.port port).nakSent = false ∧
      (u.port port).sent = a :: (s.port port).sent ∧ a.ack = b.seq ∧ a.ackv = true ∧ a.nak = false ∧ a.crcOk = true ∧
      (u.port port).retry = (s.port port).retry ∧ u.cores = s.cores ∧ u.mem = s.mem ∧ ∀ q, q ≠ port → u.port q = s.port q) ∧
    (bareBlock b → b.bkind = 1 → b.seq ≠ (s.port port).expect → (s.port port).nakSent = false → ∃ u a, exec (.linkDataBlockReceive port b) s = .next u ∧
      (u.port port).expect = (s.port port).expect ∧ (u.port port).nakSent = true ∧ (u.port port).sent = a :: (s.port port).sent ∧
      a.nak = true ∧ u.cores = s.cores ∧ u.mem = s.mem) ∧
    (b.crcOk = false → (s.port port).nakSent = false → ∃ u a, exec (.linkDataBlockReceive port b) s = .next u ∧
      (u.port port).expect = (s.port port).expect ∧ (u.port port).nakSent = true ∧ (u.port port).sent = a :: (s.port port).sent ∧
      a.nak = true ∧ (u.port port).retry = (s.port port).retry ∧ u.cores = s.cores ∧ u.mem = s.mem) ∧
    (b.crcOk = false → (s.port port).nakSent = true → exec (.linkDataBlockReceive port b) s = .next s) ∧
    (b.crcOk = true → blockOk b = false → (s.port port).nakSent = true → exec (.linkDataBlockReceive port b) s = .next (s.linkViolation port 1 3)) ∧
    (∀ x rest, blockOk b = true → b.ackv = true → b.nak = false → b.credits = 0 → (s.port port).retry = x :: rest → x.seq = b.ack →
      ∃ u, exec (.linkIdleBlockReceive port b) s = .next u ∧ (u.port port).retry = rest ∧ (u.port port).lastBlockAt = s.time.now ∧
        (u.port port).expect = (s.port port).expect ∧ u.cores = s.cores ∧ u.mem = s.mem) ∧
    (blockOk b = true → b.ackv = false → b.nak = false → b.cvc.toNat < (s.port port).credits.length →
      nth 0 (s.port port).credits b.cvc.toNat + b.credits.toNat ≤ 2048 → ∃ u, exec (.linkIdleBlockReceive port b) s = .next u ∧
        nth 0 (u.port port).credits b.cvc.toNat = nth 0 (s.port port).credits b.cvc.toNat + b.credits.toNat ∧
        (u.port port).expect = (s.port port).expect ∧ u.err = s.err))

/-- R424, R425, R426, R432, R433, R448: an enabled port trains and sends IDENT; the right IDENT brings it up at the lanes that trained (all of them
where no row has told them, log entry 94), a wrong one makes
it miswired; a port without progress, with too many uncorrectable codewords, or whose peer sends LANES, retrains; once both ends have told their lanes it
goes up with the widest group of both; a port
whose retraining fails, that its peer takes down or that is disabled leaves service and probes its peer (log entry 97). -/
def Obligations.PortsTrainAndRetrain : Prop :=
  ∀ (port : Nat) (t : Dword) (op : RegOp) (b : Block) (mask : BitVec 8) (s : State), port < 12 → port < s.wlk.ports.length →
    (s.port port).queue = [] → (s.port port).seamQ = [] → s.wlk.deadPending = [] → s.grouped = false → isWide op.agent = true → op.part = .full →
    (op.value.getLsbD 0 = true → (s.port port).enable = false → ∃ u a, exec (.portEnable port op) s = .next u ∧
      (u.port port).st = .training ∧ (u.port port).enable = true ∧ (u.port port).retry = [] ∧ (u.port port).expect = 0 ∧
      (u.port port).nextSeq = 0 ∧ (u.port port).credits = List.replicate 6 2048 ∧ (u.port port).sent = a :: (s.port port).sent ∧
      a.bkind = 2 ∧ a.ckind = 1 ∧ a.crcOk = true ∧ ∀ q, q ≠ port → u.port q = s.port q) ∧
    (blockOk b = true → b.isCtl 1 = true → (s.port port).st = .training ∨ (s.port port).st = .miswired →
      (s.identOk port (identOf b) = true → (s.port port).ownLanes = none ∨ (s.port port).ownLanes = some 0xFF →
        ∃ u, exec (.ident port b) s = .next u ∧ (u.port port).st = .up ∧ (u.port port).width = 3 ∧ (u.port port).peer = (identOf b).module ∧
          (u.port port).bypass = false ∧ u.cores = s.cores ∧ u.mem = s.mem) ∧
      (s.identOk port (identOf b) = true → (s.port port).ownLanes = some 0 → ∃ u, exec (.ident port b) s = .next u ∧
        (u.port port).st = .training ∧ (u.port port).met = true ∧ u.cores = s.cores ∧ u.mem = s.mem) ∧
      (s.identOk port (identOf b) = false → ∃ u, exec (.ident port b) s = .next u ∧ (u.port port).st = .miswired ∧
        (u.port port).peer = (identOf b).module ∧ ((s.port port).violations.toNat < 65535 →
          (u.port port).violations.toNat = (s.port port).violations.toNat + 1) ∧ u.cores = s.cores ∧ u.mem = s.mem)) ∧
    (b.isCtl 2 = true →
      (quietBlock b → (s.port port).st = .up → ∃ u, exec (.lanes port b) s = .next u ∧ (u.port port).st = .retraining ∧
        (u.port port).peerLanes = some (trainedOf b) ∧ (u.port port).ownLanes = none ∧ (u.port port).retrainAt = s.time.now ∧
        u.cores = s.cores ∧ u.mem = s.mem) ∧
      (blockOk b = true → (s.port port).st = .training → exec (.lanes port b) s =
        .next (s.modPort port fun p => { p with peerLanes := some (trainedOf b) })) ∧
      (∀ own, blockOk b = true → (s.port port).st = .retraining → (s.port port).ownLanes = some own → own &&& trainedOf b = 0xFF →
        (s.port port).width = 3 ∨ (s.port port).renew = true → ∃ u, exec (.lanes port b) s = .next u ∧ (u.port port).st = .up ∧
          (u.port port).width = 3 ∧ (u.port port).laneOk = own ∧ (u.port port).bypass = false ∧ u.cores = s.cores ∧ u.mem = s.mem)) ∧
    ((s.port port).st = .up → (s.port port).retry ≠ [] → (s.port port).lastBlockAt.toNat + 100000 ≤ (s.at_ t).now →
      ∃ u, exec (.linkProgressTimeout port t) s = .next u ∧ (u.port port).st = .retraining ∧ (u.port port).retrainAt = (s.at_ t).time.now ∧
        (u.port port).retry = (s.port port).retry ∧ u.cores = s.cores ∧ u.mem = s.mem) ∧
    (∀ n, (s.port port).st = .up → ∃ u, exec (.linkFecThreshold port n) s = .next u ∧
      (u.port port).st = (if 1000 < n then .retraining else .up) ∧ u.cores = s.cores ∧ u.mem = s.mem) ∧
    ((s.port port).st = .training → (s.port port).met = false → ∃ u, exec (.linkRetrainComplete port mask) s = .next u ∧
      (u.port port).st = .training ∧ (u.port port).laneOk = mask ∧ (u.port port).ownLanes = some mask) ∧
    ((s.port port).st = .training → (s.port port).met = true → mask = 0xFF → ∃ u, exec (.linkRetrainComplete port mask) s = .next u ∧
      (u.port port).st = .up ∧ (u.port port).width = 3 ∧ (u.port port).laneOk = 0xFF) ∧
    ((s.port port).st = .retraining → (s.port port).peerLanes = none → ∃ u a, exec (.linkRetrainComplete port mask) s = .next u ∧
      (u.port port).st = .retraining ∧ (u.port port).laneOk = mask ∧ (u.port port).ownLanes = some mask ∧
      (u.port port).sent = a :: (s.port port).sent ∧ a.bkind = 2 ∧ a.ckind = 2 ∧ trainedOf a = mask) ∧
    (∀ peer, (s.port port).st = .retraining → (s.port port).peerLanes = some peer → (s.port port).width = 3 →
      (mask &&& peer = 0xFF → ∃ u, exec (.linkRetrainComplete port mask) s = .next u ∧ (u.port port).st = .up ∧ (u.port port).width = 3 ∧
        (u.port port).bypass = false ∧ (u.port port).laneOk = mask) ∧
      (mask &&& peer = 0x0F → ∃ u, exec (.linkRetrainComplete port mask) s = .next u ∧ (u.port port).st = .up ∧ (u.port port).width = 2 ∧
        (u.port port).bypass = true ∧ (u.port port).laneOk = mask) ∧
      (mask &&& peer = 0 → ∃ u, exec (.linkRetrainComplete port mask) s = .next u ∧ (u.port port).st = .retraining ∧ (u.port port).width = 3)) ∧
    ((s.port port).st = .retraining → s.Connected (some port) → (s.port port).retrainAt.toNat + 1000000 ≤ (s.at_ t).now →
      ∃ u, exec (.linkRetrainTimeout port t) s = .next u ∧ (u.port port).st = .down ∧ (u.port port).width = 0 ∧
        (u.port port).downAt = some (s.at_ t).time.now ∧ (u.port port).probes = true ∧ (u.port port).probedAt = (s.at_ t).time.now ∧
        u.cores = s.cores ∧ u.mem = s.mem) ∧
    (b.isCtl 4 = true →
      (quietBlock b → (s.port port).st = .up → s.Connected (some port) → ∃ u, exec (.down ⟨port, b⟩) s = .next u ∧ (u.port port).st = .down ∧
        (u.port port).width = 0 ∧ (u.port port).downAt = none ∧ (u.port port).probes = true ∧ u.cores = s.cores ∧ u.mem = s.mem) ∧
      (blockOk b = true → (s.port port).st = .training ∨ (s.port port).st = .miswired → ∃ u, exec (.down ⟨port, b⟩) s = .next u ∧
        (u.port port).st = .down ∧ (u.port port).probes = (s.port port).probes ∧ u.cores = s.cores ∧ u.mem = s.mem)) ∧
    (op.value.getLsbD 0 = false → (s.port port).enable = true → (s.port port).st = .up → s.Connected (some port) →
      ∃ u, exec (.portDisable port op) s = .next u ∧ (u.port port).st = .disabled ∧ (u.port port).enable = false ∧
        (u.port port).downAt = none ∧ (∃ a ∈ (u.port port).sent, a.bkind = 2 ∧ a.ckind = 4) ∧ u.cores = s.cores ∧ u.mem = s.mem) ∧
    ((s.port port).probing = true → s.Connected (some port) → (s.port port).probedAt.toNat + 50000 ≤ (s.at_ t).now →
      ∃ u, exec (.probeTimer port t) s = .next u ∧ (u.port port).probedAt = (s.at_ t).time.now ∧ u.cores = s.cores ∧ u.mem = s.mem ∧
        u.wlk.dead = s.wlk.dead)

/-- R426, R434, R442, R447: a peer that has not answered for 500 µs is marked dead, once, and what it had not acknowledged is
discarded; the system's shape is written only while every port is disabled; TIME leaves the four times of an exchange, and is answered where it does not
come from the parent of the tree; each exchange gives the clock offset to the parent, but in a time hold, and the next TIME; a time hold ends after 100 ms. -/
def Obligations.PeersShapeAndTime : Prop :=
  (∀ (port : Nat) (t a : Dword) (s : State), port < 12 → port < s.wlk.ports.length → s.Alone → (s.port port).probing = true →
    (s.port port).downAt = some a → a.toNat + 500000 ≤ (s.at_ t).now → s.wlk.dead.contains (s.port port).peer.toNat = false →
    ∃ u, exec (.peerDeadTimeout port t) s = .next u ∧ u.wlk.dead = (s.port port).peer.toNat :: s.wlk.dead ∧
      u.wlk.deadTimes = (s.at_ t).time.now :: s.wlk.deadTimes ∧ u.wlk.deadLast = (s.port port).peer ∧ (u.port port).downAt = none ∧
      (u.port port).probes = false ∧ (u.port port).retry = [] ∧ u.mem = s.mem ∧ u.cores = []) ∧
  (∀ (op : RegOp) (s : State), isWide op.agent = true → op.part = .full →
    ∀ shape, shape = (List.range 6).map (fun d => if d = 5 then op.value.toNat / 2 ^ 59 % 2 else op.value.toNat / 2 ^ (44 + 3 * d) % 8) →
    ((∀ p ∈ s.wlk.ports, p.st = .disabled) → shape.sum ≤ 17 → op.value.toNat % 2 ^ 17 < 2 ^ shape.sum →
      exec (.wlkSysWrite op) s = .next { s with wlk := { s.wlk with shape := shape, moduleId := BitVec.ofNat 17 (op.value.toNat % 2 ^ 17) } }) ∧
    ((∃ p ∈ s.wlk.ports, p.st ≠ .disabled) ∨ 17 < shape.sum ∨ 2 ^ shape.sum ≤ op.value.toNat % 2 ^ 17 →
      ∃ u, exec (.wlkSysWrite op) s = .next u ∧ s.Absorbs u)) ∧
  (∀ (t : Dword) (s : State), s.grouped = true → s.isAnchor = false → s.wlk.parent.toNat < 12 → s.wlk.parent.toNat < s.wlk.ports.length →
    (s.port s.wlk.parent.toNat).st = .up → ∃ u a, exec (.timeExchange t) s = .next u ∧
      (u.port s.wlk.parent.toNat).stamps = none ∧ (u.port s.wlk.parent.toNat).timeSent = some (s.at_ t).time.now ∧
      (u.port s.wlk.parent.toNat).sent = a :: (s.port s.wlk.parent.toNat).sent ∧ a.bkind = 2 ∧ a.ckind = 3 ∧ u.cores = s.cores ∧ u.mem = s.mem ∧
      (s.wlk.timeHold = true ∨ (s.port s.wlk.parent.toNat).stamps = none → u.wlk.offset = s.wlk.offset ∧ u.time = (s.at_ t).time) ∧
      (∀ x, s.wlk.timeHold = false → (s.port s.wlk.parent.toNat).stamps = some x → u.wlk.offset = BitVec.ofInt 16 (2 *
        (((x.t2.toNat : Int) - x.t1.toNat) + ((x.t3.toNat : Int) - x.t4.toNat))))) ∧
  (∀ (t : Dword) (s : State), (s.grouped = false ∨ s.isAnchor = true ∨ (s.port s.wlk.parent.toNat).st ≠ .up) →
    exec (.timeExchange t) s = .next (s.at_ t)) ∧
  (∀ (t : Dword) (s : State), s.wlk.timeHold = true → s.wlk.timeHoldAt.toNat + 100000000 ≤ (s.at_ t).now →
    exec (.timeHoldExpiry t) s = .next { s.at_ t with wlk := { (s.at_ t).wlk with timeHold := false } }) ∧
  (∀ (port : Nat) (b : Block) (t : Dword) (s : State), port < 12 → port < s.wlk.ports.length → s.wlk.deadPending = [] → quietBlock b → b.isCtl 3 = true →
    (s.port port).st = .up → (s.port port).queue = [] → ∃ u, exec (.time port b t) s = .next u ∧ (u.port port).timeRecv = some (s.at_ t).time.now ∧
      (u.port port).stamps = (s.port port).timeSent.map (fun t1 =>
        { t1 := t1, t2 := (timesOf b).2, t3 := (timesOf b).1, t4 := (s.at_ t).time.now }) ∧
      (∀ q, q ≠ port → u.port q = s.port q) ∧ u.time = (s.at_ t).time ∧ u.cores = s.cores ∧ u.mem = s.mem ∧
      (s.grouped = false ∨ s.facesParent port = true → (u.port port).sent = (s.port port).sent) ∧
      (s.grouped = true → s.facesParent port = false → ∃ a, (u.port port).sent = a :: (s.port port).sent ∧ a.bkind = 2 ∧ a.ckind = 3))

/-- R436, R438, R440, R442, R444: FORM takes the fields and starts a formation, elsewhere it is refused and nothing of it taken (log entry 89); a formation whose members agree
forms the group with member 0 as anchor and 1 as deputy and clears every mark; one with a failing member is refused with the first, one that lacks a FORM once 1 s has
passed; LEAVE ends a group, and another member's counts it as lost; a live deputy takes over for a lost anchor and holds time. -/
def Obligations.GroupsFormAndEnd : Prop :=
  (∀ (op : RegOp) (t : Dword) (s : State), isWide op.agent = true → op.part = .full → op.value.getLsbD 60 = true →
    ((s.wlk.gstate = .none ∨ s.wlk.gstate = .refused) → ∃ u, exec (.groupForm op t) s = .next u ∧ u.wlk.gstate = .forming ∧
      u.wlk.m = op.value.extractLsb' 9 17 ∧ (op.value.toNat / 2 ^ 34 % 256 ≠ 0 → u.wlk.w = op.value.extractLsb' 34 8) ∧
      (op.value.toNat / 2 ^ 26 % 256 ≠ 0 → u.wlk.d = op.value.extractLsb' 26 8) ∧ u.wlk.formAt = some (s.at_ t).time.now ∧
      u.cores = s.cores ∧ u.mem = s.mem ∧ u.err = s.err) ∧
    (s.wlk.gstate ≠ .none → s.wlk.gstate ≠ .refused → ∃ u, exec (.groupForm op t) s = .next u ∧ (s.at_ t).Absorbs u)) ∧
  (∀ (id : Nat) (members : List (Option MemberForm)) (g t : Dword) (s : State), s.wlk.gstate = .forming → s.loading = false →
    id < s.groupSize → (∀ j < id, s.Agrees members j) →
    (¬ s.Agrees members id → (∃ m, nth none members id = some m) ∨ (s.wlk.formAt.getD 0).toNat + 1000000000 ≤ (s.at_ t).now →
      exec (.groupFormationCheck members g t) s = .next { s.at_ t with wlk := { (s.at_ t).wlk with
        gstate := .refused, failed := BitVec.ofNat 17 id, formAt := none } }) ∧
    (nth none members id = none → (s.at_ t).now < (s.wlk.formAt.getD 0).toNat + 1000000000 →
      exec (.groupFormationCheck members g t) s = .next (s.at_ t))) ∧
  (∀ (members : List (Option MemberForm)) (g t : Dword) (s : State), s.wlk.gstate = .forming → s.loading = false →
    (∀ j < s.groupSize, s.Agrees members j) →
    (g ≤ (s.at_ t).time.now →
      ∃ u, exec (.groupFormationCheck members g t) s = .next u ∧ u.wlk.gstate = .formed ∧ u.wlk.anchor = BitVec.ofNat 17 (s.member 0) ∧
      (1 < s.groupSize → u.wlk.deputy = BitVec.ofNat 17 (s.member 1)) ∧ u.wlk.dead = [] ∧ u.wlk.lostMembers = [] ∧
      u.time = (s.at_ t).time ∧ u.cores = s.cores ∧ u.mem = s.mem ∧
      ∀ p < 16, p < s.ob.ptn.length → s.wlk.parts.getLsbD p = true → (u.obPart p).goStep = (s.obPart p).step ∧ (u.obPart p).barrierKids = []) ∧
    ((s.at_ t).time.now < g →
      ∃ u, exec (.groupFormationCheck members g t) s = .next u ∧ u.wlk.gstate = .formed ∧ u.time.now = g ∧ u.mem.bytes = s.mem.bytes)) ∧
  (∀ (members : List (Option MemberForm)) (g t : Dword) (s : State), s.wlk.gstate ≠ .forming ∨ s.loading = true →
    exec (.groupFormationCheck members g t) s = .next (s.at_ t)) ∧
  (∀ (op : RegOp) (s : State), isWide op.agent = true → op.part = .full → op.value.getLsbD 59 = true →
    s.grouped = true ∨ s.wlk.gstate = .stopped → ∃ u, exec (.groupLeave (.here op)) s = .next u ∧ u.wlk.gstate = .none ∧ u.wlk.parent = 0xF ∧
      u.wlk.timeHold = false ∧ u.cores = s.cores ∧ u.mem = s.mem ∧ u.ob = s.ob) ∧
  (∀ (id : Nat) (s : State), s.grouped = true → s.liveMember id = true → id ≠ s.myId → id ≠ s.wlk.anchor.toNat → id ≠ s.wlk.deputy.toNat →
    s.wlk.w = 1 → s.wlk.d = 1 → s.wlk.parts = 0 → s.wlk.deadPending = [] → ∃ u, exec (.groupLeave (.member id)) s = .next u ∧
      u.wlk.gstate = .degraded ∧ u.liveMember id = false ∧ u.cores = s.cores ∧ u.mem = s.mem ∧ u.ob = s.ob) ∧
  (∀ (t : Dword) (s : State), s.grouped = true → s.liveMember s.wlk.anchor.toNat = false → s.liveMember s.wlk.deputy.toNat = true →
    s.Connected none → s.wlk.deadPending = [] → ∃ u, exec (.anchorTakeover t) s = .next u ∧ u.wlk.anchor = s.wlk.deputy ∧
      u.wlk.timeHold = true ∧ u.wlk.timeHoldAt = (s.at_ t).time.now ∧ u.cores = s.cores ∧ u.mem = s.mem)

/-- R276, R428, R437: a WRITE that its partition admits lands byte by byte under its mask, raises the counter it names by the bytes
that landed and is acknowledged; a COUNT raises its counter by ADD; one that is not admitted is refused with the lowest reason, a
violation of the port, and changes no byte and no counter.
R427, R437, R445: an ACK takes the writes it answers out of those outstanding, a REFUSE does and leaves one record for each; an
answer to nothing outstanding is a violation of the port and no more. -/
def Obligations.RemoteWritesLandAndAreAnswered : Prop :=
  (∀ (port : Nat) (p : Packet) (s : State), s.Connected none → s.wlk.deadPending = [] → port < s.wlk.ports.length →
    (s.Arrives port p 1 → s.peerReasons p = [] → isStack (p.gaddr.toNat * 64) = true → ∃ w : State, exec (.write port p) s = .next (w.send (s.answerTo p 3 1 0) none) ∧
      (∀ i < 64, w.byteAt (p.gaddr.toNat * 64 + i) = match (writeBytes p).find? fun b => b.1 == i with
        | some b => b.2
        | none => s.byteAt (p.gaddr.toNat * 64 + i)) ∧
      (∀ a, isStack a = true → (a < p.gaddr.toNat * 64 ∨ p.gaddr.toNat * 64 + 64 ≤ a) → w.byteAt a = s.byteAt a) ∧
      (p.cen = 1 → (w.core p.core.toNat).cntVal p.cnt.toNat = (s.core p.core.toNat).cntVal p.cnt.toNat + BitVec.ofNat 64 (writeBytes p).length) ∧
      (p.cen = 0 → ∀ c n, (w.core c).cntVal n = (s.core c).cntVal n) ∧ w.wlk = s.wlk) ∧
    (s.Arrives port p 2 → s.peerReasons p = [] → ∃ w : State, exec (.count port p) s = .next (w.send (s.answerTo p 3 1 0) none) ∧
      (w.core p.core.toNat).cntVal p.cnt.toNat = (s.core p.core.toNat).cntVal p.cnt.toNat + BitVec.ofNat 64 (leAt p.body 0 4) ∧
      (leAt p.body 4 1 = 1 → (w.core p.core.toNat).cntFault.getLsbD p.cnt.toNat = true) ∧
      (∀ c n, (c, n) ≠ (p.core.toNat, p.cnt.toNat) → (w.core c).cntVal n = (s.core c).cntVal n) ∧ w.mem = s.mem ∧ w.wlk = s.wlk) ∧
    (∀ r x, x ∈ [(1, Instr.write port p), (2, Instr.count port p)] → s.Arrives port p x.1 → lowest (s.peerReasons p) = some r →
      exec x.2 s = .next ((s.linkViolation port 8 3).send (s.answerTo p 4 1 r) none))) ∧
  (∀ (port : Nat) (p : Packet) (s : State), tagKind p.etag = 0 → port < s.wlk.ports.length →
    (s.Arrives port p 3 → (p.etag ≠ listTag ∨ p.src.toNat ∉ s.wlk.listOut) → ((s.core (tagCore p.etag)).unacked.filter fun u => u.no == tagEntry p.etag && u.dst == p.src.toNat) = [] →
      ∃ u, exec (.ack port p) s = .next u ∧ (u.port port).violations = satAdd (s.port port).violations 1 ∧ (∀ c, u.core c = s.core c) ∧ u.mem = s.mem) ∧
    (∀ x rest, s.Arrives port p 3 → ackN p = 1 → (s.core (tagCore p.etag)).unacked = x :: rest → x.no = tagEntry p.etag → x.dst = p.src.toNat →
      ∃ u, exec (.ack port p) s = .next u ∧ (u.core (tagCore p.etag)).unacked = rest ∧
        (∀ c, c ≠ tagCore p.etag → u.core c = s.core c) ∧ u.mem = s.mem ∧ u.err = s.err) ∧
    (∀ x rest, s.Arrives port p 4 → ackN p = 1 → (s.core (tagCore p.etag)).unacked = x :: rest → x.no = tagEntry p.etag → x.dst = p.src.toNat →
      ∃ u, exec (.refuse port p) s = .next u ∧ (u.core (tagCore p.etag)).unacked = rest ∧ u.mem = s.mem ∧
        ∃ k, (k, ({ time := s.time.now, unit := unitId 1 (tagCore p.etag), cls := 2, source := 0x0E, code := 2
                    part := s.partByte (tagCore p.etag), detail := toBytes 4 x.dst ++ toBytes 4 p.cnt.toNat ++ toBytes 8 x.addr } : ErrRec)) ∈ u.err.log))

/-- R433, R434, R435, R441: a child's arrival at the barrier is kept until the step is over; go opens the next step; a barrier of
another step or from outside is a violation; DEAD marks its module once; PROBE is answered with the port that faces the sender and
the last block accepted there; its answer empties the retry buffer; a write still unanswered 2 ms after a death is lost. -/
def Obligations.BarriersDeathsAndProbes : Prop :=
  ∀ (port : Nat) (p : Packet) (s : State), port < s.wlk.ports.length → s.wlk.deadPending = [] →
    (∀ part, s.Arrives port p 5 → part = leAt p.body 4 1 % 16 → part < s.ob.ptn.length → s.liveMember p.src.toNat = true → s.inGroup part = true →
      BitVec.ofNat 32 (leAt p.body 0 4) = (s.obPart part).goStep + 1 →
      (leAt p.body 4 1 < 16 → (s.obPart part).phase = .draft ∨ (s.obPart part).phase = .main → ∃ u, exec (.barrier port p) s = .next u ∧
        (u.obPart part).barrierKids.contains p.src.toNat = true ∧ u.cores = s.cores ∧ u.mem = s.mem ∧ u.err = s.err) ∧
      (16 ≤ leAt p.body 4 1 → (s.obPart part).step = (s.obPart part).goStep + 1 → s.Connected none → ∃ u, exec (.barrier port p) s = .next u ∧
        (u.obPart part).goStep = (s.obPart part).step ∧ (u.obPart part).barrierKids = [] ∧ u.cores = s.cores ∧ u.mem = s.mem)) ∧
    (s.Arrives port p 5 → s.liveMember p.src.toNat = false → exec (.barrier port p) s = .next (s.linkViolation port 10 1)) ∧
    (s.Arrives port p 6 → s.Alone → leAt p.body 0 4 ≠ s.myId → s.wlk.dead.contains (leAt p.body 0 4) = false → ∃ u, exec (.dead port p) s = .next u ∧
      u.wlk.dead = leAt p.body 0 4 :: s.wlk.dead ∧ u.wlk.deadTimes = s.time.now :: s.wlk.deadTimes ∧ u.mem = s.mem) ∧
    (s.Arrives port p 6 → leAt p.body 0 4 ≠ s.myId → s.wlk.dead.contains (leAt p.body 0 4) = true → exec (.dead port p) s = .next s) ∧
    (∀ q, s.Arrives port p 7 → s.Connected none → s.facing p.src.toNat = some q → exec (.probe port p) s = .next (s.send { s.newPacket 8 p.src.toNat 0 with
      body := toBytes 2 (q + 16 * ((s.port q).expect - 1).toNat) ++ List.replicate 14 0 } none)) ∧
    (∀ d l x, s.Arrives port p 8 → (List.range 12).find? (fun d => (s.port d).probing && (s.port d).peer == p.src &&
        (s.port d).peerPort.toNat == leAt p.body 0 2 % 16) = some d → (s.port d).retry = l ++ [x] →
      (∀ y ∈ l, y.seq ≠ x.seq) → x.seq = BitVec.ofNat 12 (leAt p.body 0 2 / 16) → d < s.wlk.ports.length →
      ∃ u, exec (.probeReply port p) s = .next u ∧ (u.port d).retry = [] ∧ (u.port d).downAt = none ∧ (u.port d).probes = false ∧ u.cores = s.cores ∧ u.mem = s.mem) ∧
    (∀ (tag : BitVec 19) (dst : BitVec 17) (t : Dword), tagKind tag = 0 →
      (∀ b, ((s.core (tagCore tag)).bundle b).obPart = none) → ∃ u, exec (.unackedWriteTimeout tag dst t) s = .next u ∧
        ∀ w ∈ (s.core (tagCore tag)).unacked, w.no = tagEntry tag → w.dst = dst.toNat →
          (∀ a ∈ s.wlk.deadTimes, w.at_ ≤ a → a.toNat + 2000000 ≤ (s.at_ t).now → w ∉ (u.core (tagCore tag)).unacked ∧
            ∀ slot ∈ w.slots, (u.skein (tagCore tag) slot).lost = true) ∧
          ((∀ a ∈ s.wlk.deadTimes, a < w.at_) → w ∈ (u.core (tagCore tag)).unacked))

/-- R189, R193, R194, R200, R201, R262: descriptors of a queue start in order; a granule of a local copy that is read and reached lands at
its place, and one that faults stops its descriptor; one in DONE mode whose bytes have all landed raises its counter by ADD, in its turn; the source counter
rises once every byte has landed, and what has nothing more to come leaves the queue; a faulted one settles its counters, sets the FAULT bit, is shown in SHT_FAULT and leaves.
R196, R197, R204: a write of a counter sets it, and waits that it satisfies end at SWAIT_SATISFIED; waits that it does not
satisfy stay. -/
def Obligations.ShuttlesCopyAndCount : Prop :=
  (∀ (core : CoreId) (e : BitVec 1) (q : BitVec 2) (x : ShEntry) (rest : List ShEntry) (s : State),
    s.entriesOf core.toNat e.toNat q.toNat = x :: rest → e.toNat < (s.core core.toNat).engines.length →
    q.toNat < ((s.core core.toNat).engine e.toNat).queues.length →
    (x.started = false → ∃ u, exec (.shuttleDescriptorStart core e q) s = .next u ∧
      u.entriesOf core.toNat e.toNat q.toNat = { x with started := true } :: rest ∧ (∀ c, c ≠ core.toNat → u.core c = s.core c) ∧ u.mem = s.mem) ∧
    (∀ g l a key typ, x.started = true → x.fault = none → x.issued = 0 → x.landed = [] → x.flight = [] →
      x.desc.dkind ≠ 2 → 0 < x.desc.grans → x.desc.gran 0 = some g → g.len = 8 → (∀ y ∈ rest, y.waitsFor 0 = false) →
      s.granPlan core.toNat x 0 g = .inr (l, a, key, typ) → isStack (a + 8) = true → s.wlk.deadPending = [] →
      ∃ u, exec (.shuttleWriteLand core e q 0) s = .next u ∧ u.bytesAt a 8 = s.wordsAt l ∧
        u.entriesOf core.toNat e.toNat q.toNat = { x with issued := 1, landed := [0] } :: rest ∧
        (x.desc.dmode = 1 → (u.core x.desc.cntCore).cntVal x.desc.cnt = (s.core x.desc.cntCore).cntVal x.desc.cnt + 8) ∧
        (x.desc.dmode ≠ 1 → ∀ c n, (u.core c).cntVal n = (s.core c).cntVal n) ∧
        ∀ b, isStack b = true → (b < a ∨ a + 8 ≤ b) → u.byteAt b = s.byteAt b) ∧
    (∀ g code va p, x.started = true → x.fault = none → x.issued = 0 → x.flight = [] → 0 < x.desc.grans → x.desc.gran 0 = some g →
      (∀ y ∈ rest, y.waitsFor 0 = false) → s.granPlan core.toNat x 0 g = .inl (code, va, p) → code ≠ 0x13 → s.wlk.deadPending = [] →
      ∃ u, exec (.shuttleWriteLand core e q 0) s = .next u ∧
        u.entriesOf core.toNat e.toNat q.toNat = { x with fault := some (code, va) } :: rest ∧ u.mem = s.mem) ∧
    (x.desc.dmode = 2 → x.complete = true → x.done = false → x.srcDone = false → x.desc.dkind ≠ 2 →
      ∃ u, exec (.shuttleDescriptorDone core e q) s = .next u ∧ u.entriesOf core.toNat e.toNat q.toNat = { x with done := true } :: rest ∧
        (u.core x.desc.cntCore).cntVal x.desc.cnt = (s.core x.desc.cntCore).cntVal x.desc.cnt + BitVec.ofNat 64 x.desc.add.toNat ∧ u.mem = s.mem) ∧
    ((∀ y ∈ x :: rest, y.desc.dmode ≠ 2) → exec (.shuttleDescriptorDone core e q) s = .next s) ∧
    (x.complete = true → x.srcDone = false → x.out = [] → ∃ u, exec (.shuttleSourceComplete core e q) s = .next u ∧
      u.entriesOf core.toNat e.toNat q.toNat = (if x.desc.dmode ≠ 2 ∨ x.done = true then rest else { x with srcDone := true } :: rest) ∧ u.mem = s.mem ∧
      (x.desc.scntEn = true → (u.core core.toNat).cntVal x.desc.scnt = (s.core core.toNat).cntVal x.desc.scnt + BitVec.ofNat 64 x.desc.add.toNat) ∧
      (x.desc.scntEn = false → ∀ c n, (u.core c).cntVal n = (s.core c).cntVal n)) ∧
    (∀ code a, x.fault = some (code, a) → x.done = false → x.settled = true → x.desc.dkind ≠ 2 → x.desc.dmode ≠ 0 → x.desc.scntEn = false →
      s.wlk.deadPending = [] → ∃ u, exec (.shuttleFault core e q) s = .next u ∧ u.entriesOf core.toNat e.toNat q.toNat = rest ∧
        (u.core x.desc.cntCore).cntVal x.desc.cnt = (s.core x.desc.cntCore).cntVal x.desc.cnt + BitVec.ofNat 64 x.settleAdd ∧
        (x.desc.cnt < 256 → (u.core x.desc.cntCore).cntFault.getLsbD x.desc.cnt = true) ∧
        ((u.core core.toNat).engine e.toNat).faultTag = x.desc.tag ∧ ((u.core core.toNat).engine e.toNat).faultCode = BitVec.ofNat 8 code ∧
        ((u.core core.toNat).engine e.toNat).faultAddr = a ∧ u.mem = s.mem)) ∧
  ((∀ (core : CoreId) (n : BitVec 8) (op : RegOp) (s : State), isWide op.agent = true → op.part = .full →
    ∃ u, exec (.shtCntWrite core n op) s = .next u ∧ (u.core core.toNat).cntVal n.toNat = op.value ∧
      (∀ m, m ≠ n.toNat → (u.core core.toNat).cntVal m = (s.core core.toNat).cntVal m) ∧ (∀ c, c ≠ core.toNat → u.core c = s.core c) ∧
      (∀ slot, (u.skein core.toNat slot).waits = (s.skein core.toNat slot).waits.map fun w =>
        if w.counter == n.toNat && swaitMet w.diff op.value w.target then { w with satisfied := true } else w) ∧ u.mem = s.mem) ∧
  (∀ (core : CoreId) (slot : SlotId) (s : State), ∃ u, exec (.swaitSatisfied core slot) s = .next u ∧
    u.skein core.toNat slot.toNat = { s.skein core.toNat slot.toNat with waits := (s.skein core.toNat slot.toNat).waits.filter fun w => !w.satisfied } ∧
    (∀ n, n ≠ slot.toNat → u.skein core.toNat n = s.skein core.toNat n) ∧ u.mem = s.mem) ∧
  (∀ (core : CoreId) (n : BitVec 8) (op : RegOp) (v : Nat) (s : State), op.agent = .vf v → exec (.shtCntWrite core n op) s = .next s))

/-- R449 to R452, R455, R460, R463, R465 to R470: a REDUCE whose fields, table and areas pass starts with COMMITTED one below
FIRST_STEP; a post waits, is read once its step may be, and its contribution is sent, or its fault ends the REDUCE; a contribution is added to its open share, or
counts as late; a share past its deadline closes and a closed one is published; a range of the step in flight lands and one of a
committed step is dropped; a boundary only advances, and a complete step below it is committed. -/
def Obligations.SeamReductionsRun : Prop :=
  (∀ (fn : Nat) (e : InEntry) (table : List (List Byte)) (blk : List Byte) (s d : State), s.Takes fn 4 reduceCodes e → d = s.dropFront fn 1 →
    d.readBuckets (fn - 1) (leAt e.bytes 16 8) (leAt e.bytes 24 2) = some table → d.launchRead (fn - 1) (leAt e.bytes 48 8) 64 = some blk →
    zeroAt blk 48 16 = true → badBucket table = none → d.reduceReasons (fn - 1) (leAt e.bytes 26 1 % 4) = [] →
    d.areasOk (fn - 1) (reduceOf e table blk) = true → (s.seamPart (fn - 1)).reduce = none → fn - 1 < s.seam.ptn.length →
    ∃ u, exec (.reduce fn) s = .next u ∧ s.Wrote u e [(1, 0), (3, 0)] ∧ (u.seamPart (fn - 1)).reduce = some (reduceOf e table blk) ∧
      (u.seamPart (fn - 1)).committed = BitVec.ofNat 32 (leAt e.bytes 28 4) - 1 ∧ s.SameCores u ∧ u.mem.bytes = s.mem.bytes) ∧
  (∀ (part : Nat) (op : RegOp) (step : Word) (b : Nat) (r : Reduce) (s : State), reaches op.agent part = true → op.part = .full →
    part < s.seam.ptn.length → step = op.value.extractLsb' 32 32 → b = op.value.toNat % 4096 → (s.seamPart part).reduce = some r →
    (r.doneRel (s.seamPart part).committed ≤ r.rel step → r.rel step < r.steps → b < r.buckets.length → (step, b) ∉ r.posts → (step, b) ∉ r.posted →
      ∃ u, exec (.seamPost part op) s = .next u ∧ u.seamPart part = { s.seamPart part with reduce := some { r with posts := r.posts ++ [(step, b)] } } ∧
        (∀ p, p ≠ part → u.seamPart p = s.seamPart p) ∧ u.cores = s.cores ∧ u.mem = s.mem) ∧
    (r.rel step < r.doneRel (s.seamPart part).committed ∨ r.steps ≤ r.rel step ∨ r.buckets.length ≤ b ∨ (step, b) ∈ r.posts ∨ (step, b) ∈ r.posted →
      ∃ u, exec (.seamPost part op) s = .next u ∧ s.Absorbs u) ∧
    (∀ x, s.Connected none → s.wlk.deadPending = [] → r.shares.find? (fun x => x.step == step && x.bucket == b && x.closed && !x.published) = some x →
      (∀ f, 32 * f < (r.bucket b).elems → ∃ d, s.seamRead part ((s.paramVer part r step).toNat + 2 * ((r.bucket b).first + 32 * f)) 128 = .ok d) → ∃ u, exec (.seamPublish part op) s = .next u ∧
        (u.seamPart part).reduce = some { r with shares := r.shares.map fun x =>
          if x.step == step && x.bucket == b then { x with published := true } else x } ∧
        (u.core r.noteCore.toNat).cntVal r.paramCnt = (s.core r.noteCore.toNat).cntVal r.paramCnt + 1 ∧ u.mem.bytes = s.mem.bytes) ∧
    (∀ step, step = op.value.setWidth 32 → exec (.seamBoundary part op) s = .next (if stepBelow ((s.seamPart part).committed + 1) step = true then
      s.modReduce part fun r => { r with boundary := if stepBelow r.boundary step then step else r.boundary } else s))) ∧
  (∀ (part : Nat) (step : Word) (b : Nat) (rest : List (Word × Nat)) (r : Reduce) (s : State), part < s.seam.ptn.length →
    (s.seamPart part).reduce = some r → r.posts = (step, b) :: rest → s.Connected none → s.wlk.deadPending = [] →
    r.rel step ≤ r.doneRel (s.seamPart part).committed →
    (∀ v ps, s.contribution part r step b = .ok (v, ps) → (∀ p ∈ ps, p.dst.toNat ≠ s.myId) →
      ∃ u, exec (.seamPostReadComplete part) s = .next u ∧
        (u.seamPart part).reduce = some { r with posts := rest, posted := (step, b) :: r.posted } ∧
        (u.core r.noteCore.toNat).cntVal r.postCnt = (s.core r.noteCore.toNat).cntVal r.postCnt + 1 ∧ u.mem = v.mem) ∧
    (∀ va, s.contribution part r step b = .error va → ∃ u, exec (.seamPostReadComplete part) s = .next u ∧ (u.seamPart part).reduce = none)) ∧
  (∀ (port : Nat) (t : Dword) (s : State), port < 12 → port < s.wlk.ports.length → s.wlk.deadPending = [] →
    ∃ u, exec (.seamQueueHoldExpiry port t) s = .next u ∧ u.cores = s.cores ∧ u.mem = s.mem ∧
      (u.port port).seamQ = (s.port port).seamQ.filter fun q => decide ((s.at_ t).time.now < q.holdUntil)) ∧
  (∀ (port : Nat) (p : Packet) (t : Dword) (r : Reduce) (s d : State), d = s.at_ t → (s.seamPart p.part.toNat).reduce = some r →
    p.part.toNat < s.seam.ptn.length → d.seamRow p = none → s.wlk.deadPending = [] →
    (r.rel (seamStep p) < r.doneRel (s.seamPart p.part.toNat).committed →
      (d.Arrives port p 9 → exec (.seamAdd port p t) s = .next (d.modSeamPart p.part.toNat fun x => { x with late := satAdd x.late 1 })) ∧
      (d.Arrives port p 0xA → exec (.seamWrite port p t) s = .next (d.modSeamPart p.part.toNat fun x => { x with
        late := satAdd x.late 1, writes := satAdd x.writes 1 }))) ∧
    (∀ x w, r.doneRel (s.seamPart p.part.toNat).committed ≤ r.rel (seamStep p) →
      r.shares.find? (fun x => x.step == seamStep p && x.bucket == seamBucket p) = some x → x.closed = false → d.sharePast r x = false →
      d.accAdd p.part.toNat r d.replicaM p (32 * seamFirst p -
        (shareRange d.replicaM (r.bucket (seamBucket p)).elems (shareOwned d.replicaM d.myReplica (seamBucket p))).1) = .ok w →
      (d.Arrives port p 9 → w.shareFull p.part.toNat r x = false → exec (.seamAdd port p t) s = .next w) ∧
      (d.Arrives port p 0xA → ∀ v, v = w.modSeamPart p.part.toNat (fun x => { x with writes := satAdd x.writes 1 }) →
        v.shareFull p.part.toNat r x = false → exec (.seamWrite port p t) s = .next v))) ∧
  (∀ (port : Nat) (p : Packet) (r : Reduce) (s : State), s.Arrives port p 0xB → s.seamRow p = none → p.part.toNat < s.seam.ptn.length →
    (s.seamPart p.part.toNat).reduce = some r → s.wlk.deadPending = [] →
    (seamHeld p = true → exec (.seamParam port p) s = .next (s.modReduce p.part.toNat fun r => { r with
      held := r.held ++ [{ p := p, dst := p.src.toNat, at_ := s.time.now + 20000 }] })) ∧
    (seamHeld p = false → seamVoid p = false → r.rel (seamStep p) < r.doneRel (s.seamPart p.part.toNat).committed →
      exec (.seamParam port p) s = .next s) ∧
    (∀ w, seamHeld p = false → seamVoid p = false → r.rel (seamStep p) = r.doneRel (s.seamPart p.part.toNat).committed →
      s.seamWrite p.part.toNat ((s.paramVer p.part.toNat r (seamStep p)).toNat + 2 * ((r.bucket (seamBucket p)).first + 32 * seamFirst p))
        (seamData p) = .ok w → ∃ u r', exec (.seamParam port p) s = .next u ∧ u.mem = w.mem ∧ (u.seamPart p.part.toNat).reduce = some r' ∧
        (seamStep p, seamBucket p, seamFirst p) ∈ r'.landed ∧ r'.shares = r.shares)) ∧
  (∀ (part b step : Nat) (t : Dword) (x : Share) (r : Reduce) (s d w : State), d = s.at_ t → (s.seamPart part).reduce = some r → part < s.seam.ptn.length →
    s.wlk.deadPending = [] → r.shares.find? (fun x => x.step == BitVec.ofNat 32 step && x.bucket == b && !x.closed) = some x → d.sharePast r x = true →
    d.closeWrites part r x (BitVec.ofNat 32 step) b = .ok w → ∃ u r', exec (.seamShareDeadline part b step t) s = .next u ∧
      (u.seamPart part).reduce = some r' ∧ r'.shares = r.shares.map (fun y =>
        if y.step == BitVec.ofNat 32 step && y.bucket == b then { y with closed := true } else y) ∧ u.mem = w.mem) ∧
  (∀ (part : Nat) (t : Dword) (r : Reduce) (s : State), (s.seamPart part).reduce = some r → part < s.seam.ptn.length → s.Connected none →
    s.wlk.deadPending = [] → (∀ h ∈ r.held, ∃ d, s.seamRead part ((s.paramVer part r (seamStep h.p)).toNat +
      2 * ((r.bucket (seamBucket h.p)).first + 32 * seamFirst h.p)) 128 = .ok d) → ∃ u, exec (.seamHeldResend part t) s = .next u ∧
      (u.seamPart part).reduce = some { r with held := r.held.filter fun h => !decide (h.at_ ≤ (s.at_ t).time.now) } ∧
      u.mem.bytes = s.mem.bytes ∧ s.SameCores u) ∧
  (∀ (part : Nat) (step : Word) (r : Reduce) (s : State), (s.seamPart part).reduce = some r → part < s.seam.ptn.length →
    s.wlk.deadPending = [] → step = (s.seamPart part).committed + 1 →
    (stepBelow step r.boundary = true → r.rel step < r.steps → s.stepComplete r step = true → (∀ b k, s.shareVoid r step b k = false) → r.optWait = [] →
      ∃ u, exec (.seamCommit part) s = .next u ∧ (u.seamPart part).committed = step ∧
        (u.seamPart part).active = (if r.sends step then !(s.seamPart part).active else (s.seamPart part).active) ∧
        ((u.seamPart part).reduce = none ↔ r.rel step + 1 = r.steps) ∧ u.mem = s.mem ∧
        (u.core r.noteCore.toNat).cntVal r.commitCnt = (s.core r.noteCore.toNat).cntVal r.commitCnt + 1) ∧
    ((stepBelow step r.boundary = false ∨ r.steps ≤ r.rel step ∨ s.stepComplete r step = false) → exec (.seamCommit part) s = .next s))

/-- R37 to R44: a launch joins the queue of its core; the head is read and checked, or refused with the lowest code; it is admitted
when slots, units and knots suffice, into the lowest free ones; loaded, its skeins start together at the entry address with the
registers of R41; an ending skein whose stores have drained frees its slot; the last one ends the bundle with its end word, its knots
and its counter. -/
def Obligations.BundlesLaunchAndEnd : Prop :=
  ∀ (core : CoreId) (s : State),
    (∀ (by_ : LaunchWriter) (desc : Dword), (s.core core.toNat).launchQ.length < 16 → (by_ = .pf0 ∨ by_ = .firmware) →
      exec (.coreLaunch core by_ desc) s =
        .next (s.modCore core.toNat fun k => { k with launchQ := k.launchQ ++ [{ writer := by_, desc := desc }] })) ∧
    (∀ (wc : CoreId) (slot : SlotId) (desc : Dword), (s.core core.toNat).launchQ.length < 16 →
      (∀ e ∈ (s.core wc.toNat).mq, e.slot ≠ slot) → ∃ u, exec (.coreLaunch core (.skein wc slot) desc) s = .next u ∧
        (u.core core.toNat).launchQ = (s.core core.toNat).launchQ ++ [{ writer := .skein wc slot, desc := desc }] ∧
        ∀ e ∈ (u.core wc.toNat).sb, slot.toNat ∈ e.slots → lineModule e.line ≠ s.myId) ∧
    (∀ (wc : CoreId) (slot : SlotId) (desc : Dword), (∃ e ∈ (s.core wc.toNat).mq, e.slot = slot) →
      exec (.coreLaunch core (.skein wc slot) desc) s = .next s) ∧
    (∀ r rest, (s.core core.toNat).launchQ = r :: rest → (s.core core.toNat).head = none →
      (∀ d, s.readLaunch core.toNat r = .inr d → ∃ u, exec (.launchDescriptorRead core) s = .next u ∧
        u.core core.toNat = { s.core core.toNat with head := some d, l1d := (u.core core.toNat).l1d } ∧
        (∀ c, c ≠ core.toNat → u.core c = { s.core c with l1d := (u.core c).l1d }) ∧ u.mem.bytes = s.mem.bytes) ∧
      (∀ code, s.readLaunch core.toNat r = .inl code → (s.core core.toNat).launchWait = [] → ∃ u, exec (.launchDescriptorRead core) s = .next u ∧
        (u.core core.toNat).launchQ = rest ∧ (u.core core.toNat).lastRefusal = BitVec.ofNat 8 code ∧ (u.core core.toNat).skeins = (s.core core.toNat).skeins ∧
        (∀ c, c ≠ core.toNat → (u.core c).skeins = (s.core c).skeins ∧ (u.core c).launchQ = (s.core c).launchQ) ∧ u.mem.bytes = s.mem.bytes)) ∧
    (∀ d r rest b, (s.core core.toNat).head = some d → (s.core core.toNat).launchQ = r :: rest → (s.core core.toNat).launchWait = [] →
      d.skeins ≤ (s.core core.toNat).freeSlots → d.skeins * d.regUnits ≤ (s.core core.toNat).freeUnits → d.knots ≤ (s.core core.toNat).freeKnots →
      (s.core core.toNat).held = false → (s.core core.toNat).draining = none → (List.range 64).find? (fun n => ((s.core core.toNat).bundle n).st == .free) = some b →
      ∃ u, exec (.bundleAdmission core) s = .next u ∧ (u.core core.toNat).launchQ = rest ∧ (u.core core.toNat).head = none ∧
        (u.core core.toNat).launchSeq = (s.core core.toNat).launchSeq + 1 ∧
        (u.core core.toNat).bundle b = { st := .running, seq := (s.core core.toNat).launchSeq + 1, desc := some d, obPart := r.ob } ∧
        (∀ i < d.skeins, ∀ n, n = nth 0 (lowestFree 64 d.skeins fun n => (s.skein core.toNat n).st == .free) i →
          (s.skein core.toNat n).st = .free ∧ u.skein core.toNat n =
            { st := .loading, bundle := BitVec.ofNat 6 b, index := BitVec.ofNat 5 i, units := d.regUnits, lanes := d.lanes i }) ∧
        (∀ n, (s.skein core.toNat n).st ≠ .free → u.skein core.toNat n = s.skein core.toNat n) ∧
        (∀ c, c ≠ core.toNat → u.core c = s.core c) ∧ u.mem = s.mem) ∧
    (∀ (b : BitVec 6) d, ((s.core core.toNat).bundle b.toNat).desc = some d → ∃ u, exec (.bundleLoadingComplete core b) s = .next u ∧
      (∀ n, (s.skein core.toNat n).st = .loading → (s.skein core.toNat n).bundle = b → (u.skein core.toNat n).st = .running ∧
        (∀ l < 32, (s.skein core.toNat n).lanes.getLsbD l = true → tget 0 (u.skein core.toNat n).pc l = d.entry ∧
          (u.skein core.toNat n).xr l 0 = BitVec.ofNat 32 ((s.skein core.toNat n).index.toNat * 32 + l) ∧
          ∀ r, 0 < r.toNat → (u.skein core.toNat n).xr l r = 0) ∧
        (∀ r < 62, (u.skein core.toNat n).ur r = nth 0 d.uinit r) ∧ (u.skein core.toNat n).ur 63 = d.desc ∧
        (u.skein core.toNat n).ur 62 = identity core.toNat b.toNat (s.skein core.toNat n).index.toNat d.skeins ((s.partOf core.toNat).getD 0)) ∧
      (∀ n, (s.skein core.toNat n).st ≠ .loading → u.skein core.toNat n = s.skein core.toNat n) ∧ u.mem = s.mem) ∧
    (∀ slot : SlotId, (s.skein core.toNat slot.toNat).st = .ending → (s.core core.toNat).drained slot.toNat = true →
      exec (.skeinStoresDrained core slot) s = .next ((s.modSkein core.toNat slot.toNat fun x => { x with st := .free }).modCore core.toNat fun k =>
        { k with lq := k.lq.filter fun e => e.slot.toNat != slot.toNat })) ∧
    (∀ (b : BitVec 6) d, (∀ p < 16, (s.obPart p).phase = .idle) → (s.core core.toNat).bundleDone b.toNat = true →
      ((s.core core.toNat).bundle b.toNat).desc = some d → ∃ u, exec (.bundleEnd core b) s = .next u ∧
        ((u.core core.toNat).bundle b.toNat).st = (if ((s.core core.toNat).bundle b.toNat).aborting then .aborted else .free) ∧
        (∀ n < 16, (nth {} (s.core core.toNat).knots n).owner = some b → nth {} (u.core core.toNat).knots n = {}) ∧
        (d.counterEn = true → (u.core core.toNat).cntVal d.counter = (s.core core.toNat).cntVal d.counter + BitVec.ofNat 64 d.add.toNat) ∧
        (d.endAddr = 0 → u.mem = s.mem) ∧
        (∀ p a key, d.endAddr ≠ 0 → s.partOf core.toNat = some p → s.endTarget p d.endAddr.toNat = some (a, key) → isStack (a + 8) = true →
          u.bytesAt a 8 = toBytes 8 (endWord core.toNat ((s.core core.toNat).bundle b.toNat)).toNat ∧
          ∀ x, isStack x = true → (x < a ∨ a + 8 ≤ x) → u.byteAt x = s.byteAt x))

/-- R50, R61, R64, R67, R72, R79, R80, R284: hints end; a knot's watchdog raises cause 0x0B in the skeins that wait there and aborts
their bundle; a skein of an aborted bundle stops; the registers halt and resume a skein where the policy allows it, and release an
aborted bundle; a core reset frees every slot and bundle, and what its stores have not written 2 µs later is discarded with a
record. -/
def Obligations.SkeinsStopAndReset : Prop :=
  ∀ (core : CoreId) (slot : SlotId) (s : State),
    exec (.yieldBackoffEnd core slot) s = .next (s.modSkein core.toNat slot.toNat fun k => { k with
      backoff := k.backoff.filter fun e => decide (1 < e.2) }) ∧
    (∃ u, exec (.stallHintEnd core slot) s = .next u ∧ (∀ e ∈ (u.skein core.toNat slot.toNat).stall, ∃ f ∈ (s.skein core.toNat slot.toNat).stall, f.2 < e.2) ∧
      (∀ e ∈ (s.skein core.toNat slot.toNat).stall, (∃ f ∈ (s.skein core.toNat slot.toNat).stall, f.2 < e.2) → e ∈ (u.skein core.toNat slot.toNat).stall) ∧
      (∀ n, n ≠ slot.toNat → u.skein core.toNat n = s.skein core.toNat n) ∧ u.mem = s.mem) ∧
    (∀ (knot : BitVec 4) (t : Dword) (b : BitVec 6) (f : Dword) (n : Nat), (∀ p < 16, (s.obPart p).phase = .idle) →
      (nth {} (s.core core.toNat).knots knot.toNat).owner = some b → (nth {} (s.core core.toNat).knots knot.toNat).firstAt = some f →
      (nth {} (s.core core.toNat).knots knot.toNat).pausedAt = none →
      f.toNat + (nth {} (s.core core.toNat).knots knot.toNat).wdogUs.toNat * 1000 ≤ (s.at_ t).now →
      ((s.core core.toNat).bundle b.toNat).aborting = false → (s.skein core.toNat n).st = .running → (s.skein core.toNat n).bundle = b →
      (∃ w ∈ (s.skein core.toNat n).knotWait, w.2.1 = knot.toNat) → ∃ u, exec (.knotWatchdogExpiry core knot t) s = .next u ∧
        (u.skein core.toNat n).st = .excHalted ∧ (u.skein core.toNat n).cause = 0x0B ∧ ((u.core core.toNat).bundle b.toNat).aborting = true ∧
        ((u.core core.toNat).bundle b.toNat).cause = 0x0B ∧ u.mem = s.mem) ∧
    ((s.skein core.toNat slot.toNat).abortPending = true → (s.skein core.toNat slot.toNat).st = .running ∨ (s.skein core.toNat slot.toNat).st = .loading →
      ∃ u, exec (.skeinAbortStop core slot) s = .next u ∧
        u.skein core.toNat slot.toNat = { s.skein core.toNat slot.toNat with st := .abortHalted, abortPending := false } ∧
        (∀ n, n ≠ slot.toNat → u.skein core.toNat n = s.skein core.toNat n) ∧ u.mem = s.mem) ∧
    (∀ op : RegOp, isWide op.agent = true → op.part = .full →
      (∀ b, b = op.value.toNat % 64 → ((s.core core.toNat).bundle b).st = .aborted → ∃ u, exec (.coreBundleRelease core op) s = .next u ∧
        ((u.core core.toNat).bundle b).st = .free ∧ (∀ n, (s.skein core.toNat n).bundle.toNat = b → (u.skein core.toNat n).st = .free) ∧
        (∀ n, (s.skein core.toNat n).bundle.toNat ≠ b → u.skein core.toNat n = s.skein core.toNat n) ∧ u.mem = s.mem) ∧
      (((s.core core.toNat).bundle (op.value.toNat % 64)).st ≠ .aborted → exec (.coreBundleRelease core op) s = .next s) ∧
      (s.haltAllowed (s.partOf core.toNat) = true → op.value.toNat % 4 = 3 ∨ op.value.toNat % 4 = 1 ∧ (s.skein core.toNat slot.toNat).st ≠ .running →
        exec (.sknHalt core slot op) s = .next s) ∧
      (s.haltAllowed (s.partOf core.toNat) = true → op.value.toNat % 4 = 3 ∨ op.value.toNat % 4 = 2 ∧ (s.skein core.toNat slot.toNat).st ≠ .debugHalted →
        exec (.sknResume core slot op) s = .next s) ∧
      (s.haltAllowed (s.partOf core.toNat) = true → op.value.toNat % 4 = 1 → (s.skein core.toNat slot.toNat).st = .running →
        (s.skein core.toNat slot.toNat).abortPending = false → ∃ u, exec (.sknHalt core slot op) s = .next u ∧
          u.skein core.toNat slot.toNat = { s.skein core.toNat slot.toNat with st := .debugHalted } ∧
          (∀ n, n ≠ slot.toNat → u.skein core.toNat n = s.skein core.toNat n) ∧ u.mem = s.mem) ∧
      (s.haltAllowed (s.partOf core.toNat) = true → op.value.toNat % 4 = 2 → (s.skein core.toNat slot.toNat).st = .debugHalted →
        ∃ u, exec (.sknResume core slot op) s = .next u ∧ u.skein core.toNat slot.toNat = { s.skein core.toNat slot.toNat with st := .running } ∧
          (∀ n, n ≠ slot.toNat → u.skein core.toNat n = s.skein core.toNat n) ∧ u.mem = s.mem) ∧
      (s.haltAllowed (s.partOf core.toNat) = false → ∀ c ∈ [Instr.sknHalt core slot op, .sknResume core slot op],
        ∃ u, exec c s = .next u ∧ s.Absorbs u)) ∧
    (∃ u, exec (.coreReset core) s = .next u ∧ (u.core core.toNat).skeins = [] ∧ (∀ b, ((u.core core.toNat).bundle b).st = .free) ∧
      (u.core core.toNat).mq = (s.core core.toNat).mq.filter (·.started) ∧ (u.core core.toNat).lq = [] ∧
      (u.core core.toNat).launchQ = (s.core core.toNat).launchWait.take 16 ∧ (u.core core.toNat).knots = List.replicate 16 {} ∧ (u.core core.toNat).uninit = false ∧
      (∀ i, s.ob.image = some i → (u.core core.toNat).expBase = i.expBase) ∧ (s.ob.image = none → (u.core core.toNat).expBase = 0x5D00) ∧
      (u.core core.toNat).draining = some (s.time.now, ((s.core core.toNat).mq.filter fun e => !e.started).length,
        (s.core core.toNat).launchQ.length) ∧ ((s.island core.toNat).st ≠ .gated → (u.island core.toNat).st = .held) ∧
      (u.core core.toNat).cnt = (s.core core.toNat).cnt ∧ (∀ c, c ≠ core.toNat → u.core c = s.core c) ∧ u.mem = s.mem) ∧
    (∀ (t start : Dword) (m l : Nat), (s.core core.toNat).draining = some (start, m, l) → start.toNat + 2000 ≤ (s.at_ t).now →
      ∃ u, exec (.coreResetDrainExpiry core t) s = .next u ∧ (u.core core.toNat).sb = [] ∧ (u.core core.toNat).unacked = [] ∧ (u.core core.toNat).mq = [] ∧
        (u.core core.toNat).draining = none ∧ (∀ c, c ≠ core.toNat → u.core c = s.core c) ∧ u.mem = s.mem ∧
        ∃ k, (k, ({ time := (s.at_ t).time.now, unit := unitId 1 core.toNat, cls := 2, source := 0x0E, code := 3, part := s.partByte core.toNat
                    detail := toBytes 16 0 ++ toBytes 4 m ++ toBytes 4 (s.core core.toNat).sb.length ++ toBytes 4 l } : ErrRec)) ∈ u.err.log)

/-- R117, R145, R157, R159, R161, R162, R165, R167, R171, R181, R183, R184: the rows of a pass whose operands stand are read into a tile
buffer; a queued operation that may start runs, a load with its tile's codes and a pass with its sums; loads, patches and passes
complete oldest first, with their plane loaded, or failed after a parity error, or the bank failed; a drain's rows stand in scratch,
its bank is cleared where CLEAR asks it, and its counter rises by the bytes; the exponent base takes values up to 0x5D00 and refuses
others. -/
def Obligations.HoopOperationsRun : Prop :=
  ∀ (core : CoreId) (hoop sub : BitVec 2) (hp : Hoop) (x : SubHoop) (s : State), hp = (s.core core.toNat).hoop hoop.toNat → x = hp.subAt sub.toNat →
    hoop.toNat < (s.core core.toNat).hoops.length → sub.toNat < hp.subs.length →
    (∀ (slot : SlotId) (pc : Dword) (h : HSlot), (s.core core.toNat).fillable slot.toNat pc = some h → h.hoop = hoop → h.sub = sub →
      (∀ e ∈ (s.core core.toNat).skeins, e.1 = slot.toNat ∨ e.2.decoded = []) → ∃ u, exec (.hoopFeederFill core slot pc) s = .next u ∧
        ((((u.core core.toNat).hoop hoop.toNat).subAt sub.toNat).feedOf slot.toNat pc (hoopAddr (s.skein core.toNat slot.toNat) h).toNat).isSome = true ∧
        (((u.core core.toNat).hoop hoop.toNat).subAt sub.toNat).queue = x.queue ∧
        (∀ c, c ≠ core.toNat → (u.core c).hoops = (s.core c).hoops ∧ (u.core c).skeins = (s.core c).skeins) ∧ u.mem.bytes = s.mem.bytes) ∧
    (∀ (index : Nat) (o : HOp), x.queue[index]? = some o → hoopMayStart hp x o (x.queue.take index) (s.scratchStores core.toNat o.slot) = true →
      ∃ u y, exec (.hoopOpStart core hoop sub index) s = .next u ∧ y = ((u.core core.toNat).hoop hoop.toNat).subAt sub.toNat ∧
        y.queue = dropAt x.queue index ∧ y.running = x.running ++ [o] ∧
        (∀ c, c ≠ core.toNat → (u.core c).hoops = (s.core c).hoops ∧ (u.core c).skeins = (s.core c).skeins) ∧ u.mem.bytes = s.mem.bytes ∧
        (o.kind = .wld → (s.badRow core.toNat o.addr o.pitch hp.dim (wldRow hp.dim o.fmt.toNat)
          (if o.fmt.toNat < 3 then some o.expBase else none)) = none → y.plane o.plane.toNat = s.loadPlane core.toNat hp.dim o) ∧
        (o.kind.isPass = true → o.two = false →
          y.bank o.bank.toNat = s.passBank core.toNat hp (x.plane o.plane.toNat) o false (x.bank o.bank.toNat))) ∧
    (∀ (o : HOp) (rest : List HOp) (parity : Bool) (banks : BitVec 2), x.running = o :: rest →
      (o.kind = .wld → ∃ u y, exec (.hwldComplete core hoop sub parity) s = .next u ∧ y = ((u.core core.toNat).hoop hoop.toNat).subAt sub.toNat ∧
        y.running = rest ∧ y.queue = x.queue ∧ u.mem = s.mem ∧ ((y.plane o.plane.toNat).st =
          if (x.plane o.plane.toNat).st = .failed ∨ parity = true then .failed else .loaded)) ∧
      (o.kind = .patch → ∃ u y, exec (.hpatchComplete core hoop sub parity) s = .next u ∧ y = ((u.core core.toNat).hoop hoop.toNat).subAt sub.toNat ∧
        y.running = rest ∧ y.queue = x.queue ∧ u.mem = s.mem ∧ ((y.plane o.plane.toNat).st =
          if parity = true then .failed else (x.plane o.plane.toNat).st)) ∧
      (o.kind.isPass = true → ∃ u y, exec (.hpassComplete core hoop sub banks) s = .next u ∧ y = ((u.core core.toNat).hoop hoop.toNat).subAt sub.toNat ∧
        y.running = rest ∧ y.queue = x.queue ∧ u.mem = s.mem ∧
        ∀ n < 2, y.bank n = if banks.getLsbD n = true ∧ (n = o.bank.toNat ∨ o.two = true) then { x.bank n with failed := true } else x.bank n) ∧
      (o.kind = .drain → ∃ u y, exec (.hdrainComplete core hoop sub) s = .next u ∧ y = ((u.core core.toNat).hoop hoop.toNat).subAt sub.toNat ∧
        y.running = rest ∧ y.queue = x.queue ∧
        (o.aux.getLsbD 3 = true → (y.bank o.bank.toNat).mode = .none ∧ (y.bank o.bank.toNat).cells = []) ∧
        (o.aux.getLsbD 3 = false → y.bank o.bank.toNat = x.bank o.bank.toNat) ∧
        (o.aux.getLsbD 12 = true → (u.core core.toNat).cntVal (o.aux.toNat / 16 % 256) = (s.core core.toNat).cntVal (o.aux.toNat / 16 % 256) +
          BitVec.ofNat 64 (hp.dim * drainRow hp.dim (o.aux.toNat % 8))) ∧
        (o.aux.toNat % 8 ≤ 2 → drainRow hp.dim (o.aux.toNat % 8) ≤ o.pitch → o.addr + hp.dim * o.pitch ≤ scratchLen →
          (s.core core.toNat).lostScratch = none → ∀ j < hp.dim,
            u.bytesAt (scratchAt core.toNat (o.addr + j * o.pitch)) (drainRow hp.dim (o.aux.toNat % 8)) =
              (x.bank o.bank.toNat).rowBytes hp.dim (o.aux.toNat % 8) j))) ∧
    (∀ op : RegOp, isWide op.agent = true → op.part = .full →
      (op.value.toNat / 64 % 2 ^ 15 ≤ 0x5D00 → exec (.hoopExpBaseWrite core op) s = .next (s.modCore core.toNat fun k => { k with
        expBase := BitVec.ofNat 15 (op.value.toNat / 64 % 2 ^ 15) })) ∧
      (0x5D00 < op.value.toNat / 64 % 2 ^ 15 → ∃ u, exec (.hoopExpBaseWrite core op) s = .next u ∧ s.Absorbs u))

/-- R5, R8, R213, R218, R234, R238, R239, R244, R246, R247, R384, R474: a host register write of the right width acts on the register that
its address names and another is a violation; so is a read, which else answers the register's bytes; translations are invalidated; the
scratch mode is written only in PSTATE 3, for the zeroing that ends it; the interleave map takes one write; a weight of 0 is refused; a
CRC failure is re-read, then read once more after a recalibration, and data that stays bad is left uncorrectable; scrubbed data reads
the same; an idle channel powers down. -/
def Obligations.MemoryRegistersAndEvents : Prop :=
  (∀ (w : AddrWrite) (s : State), w.agent = .pf0 → s.fnUp 0 = true → s.tlpHeld 0 w.tlp = false → w.tlp.ideFail = false → w.tlp.poisoned = false → w.size = 8 →
    (w.read = false → w.addr = 0x1000 → exec (.registerWrite w) s = .next { s with hif := { s.hif with win := BitVec.ofNat 5 (w.value.toNat % 32) } }) ∧
    (w.read = false → w.addr = 0x2C0000 → exec (.registerWrite w) s = .next { s with seam := { s.seam with holdNs := BitVec.ofNat 12 (w.value.toNat % 4096) } }) ∧
    (w.read = true → w.addr % 8 = 0 → w.addr < 0x1000000 → exec (.registerWrite w) s = .next (s.complete 0 0 (s.regRead (regBase + w.addr) 8))) ∧
    (w.addr % 8 ≠ 0 → ∃ u, exec (.registerWrite w) s = .next u ∧ u.cores = s.cores ∧ u.mem = s.mem ∧ u.seam = s.seam ∧ u.wlk = s.wlk ∧ u.ob = s.ob ∧
      (w.read = true → HostOut.completion 0 1 [] ∈ u.hif.out) ∧ ((s.fn 0).violations.toNat < 65535 → 0 < s.hif.fns.length → (u.fn 0).violations.toNat = (s.fn 0).violations.toNat + 1))) ∧
  (∀ (part : Nat) (s : State), part < s.ptn.length →
    exec (.ptnXlatInval part .firmware) s = .next (s.modPart part fun p => { p with xlatBusy := true }) ∧
    ((s.part part).xlatBusy = true → ∃ u, exec (.xlatInvalComplete part) s = .next u ∧ u.part part = { s.part part with xlatBusy := false, oldLeaves := [] } ∧
      (∀ c < 1024, (s.part part).quads.getLsbD (quadOf c) = true → (u.core c).tlb = []) ∧
      (∀ c, (s.part part).quads.getLsbD (quadOf c) = false → u.core c = s.core c) ∧ u.mem = s.mem) ∧
    (∀ op : RegOp, op.agent = .firmware → op.part = .full →
      ((s.part part).st = .scrubbing → exec (.ptnScratchModeWrite part op) s = .next (s.modPart part fun p => { p with sealedNext := some (op.value.getLsbD 0) })) ∧
      ((s.part part).st ≠ .scrubbing → ∃ u, exec (.ptnScratchModeWrite part op) s = .next u ∧ s.Absorbs u))) ∧
  (∀ (die : BitVec 2) (op : RegOp) (s : State), isWide op.agent = true → op.part = .full → s.mem.arb.length = 4 →
    (s.mem.ilvSet = false → exec (.strIlvWrite die op) s = .next { s with mem := { s.mem with ilv := op.value &&& ~~~1#64, ilvSet := true } }) ∧
    (s.mem.ilvSet = true → exec (.strIlvWrite die op) s = .next s) ∧
    (∀ w : Nat → Byte, w = (fun n => op.value.extractLsb' (8 * n) 8) → ∃ u, exec (.strArbWrite die op) s = .next u ∧
      u.mem = { s.mem with arb := upd s.mem.arb die.toNat fun x =>
        (if w 0 = 0 then x.1 else w 0, if w 1 = 0 then x.2.1 else w 1, if w 2 = 0 then x.2.2 else w 2) } ∧
      (w 0 ≠ 0 → w 1 ≠ 0 → w 2 ≠ 0 → u = { s with mem := u.mem }) ∧ ({ s with mem := u.mem } : State).RecordOnly u ∧
      (w 0 = 0 ∨ w 1 = 0 ∨ w 2 = 0 → u.err.written ≠ s.err.written ∨ u.err.suppressed ≠ s.err.suppressed ∨ s.err.suppressed = 0xFFFF))) ∧
  (∀ (a : Nat) (s : State), isStack a = true →
    (∀ n ≤ 3, ∃ u, exec (.strandReadCrcFailure a (.reread n)) s = .next u ∧ u.mem = s.mem ∧ u.cores = s.cores ∧
      (tget {} u.msr.aon (recStrand (s.strandOf a))).a3 = (tget {} s.msr.aon (recStrand (s.strandOf a))).a3 + BitVec.ofNat 48 n ∧
      (tget {} u.msr.aon (recStrand (s.strandOf a))).a1 = (tget {} s.msr.aon (recStrand (s.strandOf a))).a1 + 1) ∧
    (∃ u, exec (.strandReadCrcFailure a .recalibrate) s = .next u ∧ u.mem.bytes = s.mem.bytes ∧ u.cores = s.cores ∧
      (tget {} u.mem.strands (s.strandOf a)).held = true ∧ (tget {} u.mem.strands (s.strandOf a)).retry = some (a / 64 * 64) ∧
      (tget {} u.msr.aon (recStrand (s.strandOf a))).a3 = (tget {} s.msr.aon (recStrand (s.strandOf a))).a3 + 3) ∧
    (∀ x, x = tget ({} : Strand) s.mem.strands (s.strandOf a) → x.retry = some (a / 64 * 64) → x.held = false →
      (∃ u, exec (.strandReadCrcFailure a .afterRecalibration) s = .next u ∧ u.mem.bytes = s.mem.bytes ∧ u.cores = s.cores ∧
        (tget {} u.mem.strands (s.strandOf a)).retry = none ∧
        (tget {} u.msr.aon (recStrand (s.strandOf a))).a1 = (tget {} s.msr.aon (recStrand (s.strandOf a))).a1 + 1) ∧
      ∃ u, exec (.strandReadCrcFailure a .uncorrectable) s = .next u ∧ u.damagedAt a 1 = true ∧ u.mem.bytes = s.mem.bytes ∧ u.cores = s.cores) ∧
    exec (.patrolScrubRead a .clean) s = .next s ∧
    (∀ newer, ∃ u, exec (.patrolScrubRead a (.corrected newer)) s = .next u ∧ u.mem = s.mem ∧ u.cores = s.cores ∧
      (tget {} u.msr.aon (recStrand (s.strandOf a))).a1 = (tget {} s.msr.aon (recStrand (s.strandOf a))).a1 + 1) ∧
    (∃ u, exec (.patrolScrubRead a .uncorrectable) s = .next u ∧ u.damagedAt a 1 = true ∧ u.mem.bytes = s.mem.bytes ∧ u.cores = s.cores)) ∧
  (∀ (strand : BitVec 12) (cause : RecalCause) (s : State), exec (.strandRecalibration strand cause) s =
    .next (s.modStrand strand.toNat fun t => { t with held := cause != .ended })) ∧
  (∀ (channel : BitVec 4) (s : State), ∃ u, exec (.lpddr6PowerDown channel) s = .next u ∧ u = { s with mem := { s.mem with lpd := u.mem.lpd } } ∧
    (∀ x, x = nth {} s.mem.lpd channel.toNat → x.ready = true → x.selfRefresh = false → x.lastAt.toNat + 1000 ≤ s.now →
      channel.toNat < s.mem.lpd.length → nth {} u.mem.lpd channel.toNat = { x with powerDown := true }) ∧
    (s.now < (nth {} s.mem.lpd channel.toNat).lastAt.toNat + 1000 → nth {} u.mem.lpd channel.toNat = nth {} s.mem.lpd channel.toNat) ∧
    ∀ n, n ≠ channel.toNat → nth {} u.mem.lpd n = nth {} s.mem.lpd n)

/-- R46, R88, R113, R120, R220, R230, R254, R257, R264, R376: an instruction is fetched and decoded, or its cause raised; results and load
data are written to their registers, oldest first, and a load still to be performed is read then; a store-buffer entry closes 256 cycles
after it was allocated and goes home; a fence ends once its scope is met; an INVAL of L2 leaves no line of its partition; a live status word is written again. -/
def Obligations.ResultsStoresAndFetch : Prop :=
  ∀ (core : CoreId) (slot : SlotId) (s : State), s.wlk.deadPending = [] → (s.core core.toNat).mq = [] →
    (∀ (pc : Dword) (l : Leaf), (s.skein core.toNat slot.toNat).issues = true → (s.skein core.toNat slot.toNat).lanesAt pc ≠ [] →
      (s.skein core.toNat slot.toNat).wordAt pc = none → s.coreLeaf core.toNat ((s.partOf core.toNat).getD 0) pc.toNat 0 = some l →
      s.fetchCause core.toNat (some l) pc.toNat = none → ∃ u w, exec (.instructionFetch core slot pc) s = .next u ∧
        (u.skein core.toNat slot.toNat).decoded = (s.skein core.toNat slot.toNat).decoded ++ [(pc, w)] ∧ u.mem.bytes = s.mem.bytes ∧
        (∀ n, n ≠ slot.toNat → u.skein core.toNat n = s.skein core.toNat n) ∧
        (isStack (locOf (l.at_ pc.toNat)) = true → locOf (l.at_ pc.toNat) % 32 = 0 → s.l1iHit core.toNat (locOf (l.at_ pc.toNat)) l.key = false →
          w = wordOfBytes (s.bytesAt (locOf (l.at_ pc.toNat)) 32))) ∧
    (∀ (pc : Dword) (cause : Nat), (s.skein core.toNat slot.toNat).issues = true → (s.skein core.toNat slot.toNat).lanesAt pc ≠ [] →
      (s.skein core.toNat slot.toNat).wordAt pc = none → (∀ p < 16, (s.obPart p).phase = .idle) → cause ≠ 9 →
      s.fetchCause core.toNat (s.coreLeaf core.toNat ((s.partOf core.toNat).getD 0) pc.toNat 0) pc.toNat = some cause →
      ∃ u, exec (.instructionFetch core slot pc) s = .next u ∧ (u.skein core.toNat slot.toNat).st = .excHalted ∧
        (u.skein core.toNat slot.toNat).cause = BitVec.ofNat 8 cause ∧ (u.skein core.toNat slot.toNat).excPc = pc ∧ u.mem = s.mem) ∧
    (∀ (p : Pending) (rest : List Pending), (s.skein core.toNat slot.toNat).pend = p :: rest →
      (p.fromMem = false → exec (.resultWriteback core slot p.dest) s = .next (s.modSkein core.toNat slot.toNat fun k =>
        { (k.putAll p) with pend := rest })) ∧
      (p.fromMem = true → p.ready = true → exec (.loadDataReturn core slot p.dest) s = .next (s.modSkein core.toNat slot.toNat fun k =>
        { (k.putAll p) with pend := rest })) ∧
      (∀ (e : LoadEnt) (n : BitVec 8), p.dest = .x n → n ≠ 255 → p.fromMem = true → p.ready = false → (s.core core.toNat).lq = [e] →
        e.slot = slot → e.dest = .x n → e.size ≤ 4 → 0 < e.size → e.got = [] → e.accs ≠ [] → (e.accs.map (·.lane)).Nodup →
        (∀ a ∈ e.accs, a.typ = 0 ∧ isStack a.addr = true) → ∃ u, exec (.loadDataReturn core slot (.x n)) s = .next u ∧
          (u.core core.toNat).lq = [] ∧ (u.skein core.toNat slot.toNat).pend = rest ∧ u.mem.bytes = s.mem.bytes ∧
          ∀ a ∈ e.accs, (u.skein core.toNat slot.toNat).xr a.lane n = (loadVal e.size e.signed 0 (s.coreBytes core.toNat a e.size)).setWidth 32) ∧
      (∀ (n : BitVec 8) (lane : Nat) (v : Dword), p.dest = .x n → n ≠ 255 → p.vals = [(lane, v)] →
        ((s.skein core.toNat slot.toNat).putAll p).xr lane n = v.setWidth 32)) ∧
    (∀ (i : Nat) (e : SbEntry), (s.core core.toNat).sb[i]? = some e →
      (256 ≤ (s.cycles core.toNat - e.since).toNat → exec (.storeBufferEntryTimeout core i) s =
        .next (s.modCore core.toNat fun k => { k with sb := upd k.sb i fun x => { x with isOpen := false } })) ∧
      ((s.cycles core.toNat - e.since).toNat < 256 → exec (.storeBufferEntryTimeout core i) s = .next (s.modCore core.toNat id))) ∧
    (∀ (e : SbEntry) (rest : List SbEntry), (s.core core.toNat).sb = e :: rest → e.isOpen = false →
      (∀ x ∈ rest.head?, x.isOpen = true) → lineModule e.line = s.myId →
      isStack (locOf (e.line * 128) + 128) = true → (e.bytes.map (·.1)).Nodup → (∀ b ∈ e.bytes, b.1 < 128) →
      ∃ u, exec (.storeBufferWriteback core) s = .next u ∧ (u.core core.toNat).sb = rest ∧
        (∀ b ∈ e.bytes, u.byteAt (locOf (e.line * 128) + b.1) = b.2) ∧
        ∀ x, isStack x = true → (∀ b ∈ e.bytes, x ≠ locOf (e.line * 128) + b.1) → u.byteAt x = s.byteAt x) ∧
    (∀ scope, (s.skein core.toNat slot.toNat).fence = some scope → s.fenceMet core.toNat slot.toNat scope = true →
      exec (.fenceComplete core slot) s = .next (s.modSkein core.toNat slot.toNat fun k => { k with fence := none })) ∧
    ((s.skein core.toNat slot.toNat).invalHold ≠ 0 → ∃ u, exec (.invalL2Complete core slot) s = .next u ∧
      (u.skein core.toNat slot.toNat).invalHold = 0 ∧ u.mem.bytes = s.mem.bytes ∧
      ∀ c ∈ u.mem.l2, ∀ x ∈ c.2.sets, ∀ w ∈ x.2.ways, w.2.owner ≠ s.partByte core.toNat) ∧
    (∀ (q : Nat) (t : Dword), (s.entry q).live = true → ∃ u, exec (.statusWordRefresh (.request q) t) s = .next u ∧
      u.hif.out = .write (s.entry q).fn (s.entry q).statusAddr (toBytes 8 (statusWord (s.entry q).st.statusState (s.entry q).flags 0x100
        (s.entry q).tag (s.entry q).accTokens).toNat) :: s.hif.out ∧ (u.entry q).statusAt = (s.at_ t).time.now ∧ ∀ r, r ≠ q → u.entry r = s.entry r) ∧
    (∀ (fn : Nat) (tag : Word) (c : LiveCmd) (t : Dword), s.liveCmd fn tag = some c → ∃ u d, exec (.statusWordRefresh (.command fn tag) t) s = .next u ∧
      u.hif.out = .write c.fn c.statusAddr (toBytes 8 (statusWord c.state.toNat 0 c.code.toNat c.tag d.count.toNat).toNat) :: s.hif.out ∧
      u.liveCmd fn tag = some d ∧ d = { c with count := d.count, statusAt := (s.at_ t).time.now } ∧ u.ob = s.ob ∧
      (c.kind ≠ .loadImage → c.kind ≠ .tangle → d.count = c.count))

/-- R45, R47, R81 to R87, R92, R120: a word with no control effect, no memory operation and no hoop operation, that is selected and has no
cause at decode, issues: every thread of its group goes to the next word, the results of its T-slot wait for their registers, and
nothing else changes but the generators that a sampling operation draws from or seeds. -/
def Obligations.ArithmeticWordsIssue : Prop :=
  ∀ (i : Issue) (s : State), s.Issues i → i.word.c.cop = 0 → i.word.m = {} → i.word.h = {} →
    ∀ x ∈ [(Instr.nop i, i.word.t.top),
    (.add i, 0x01), (.sub i, 0x02), (.mul i, 0x03), (.mulhi i, 0x04), (.mad i, 0x05), (.min i, 0x06), (.max i, 0x07),
    (.abs i, 0x08), (.and i, 0x09), (.or i, 0x0A), (.xor i, 0x0B), (.not i, 0x0C), (.shl i, 0x0D), (.shr i, 0x0E),
    (.popc i, 0x0F), (.clz i, 0x10), (.brev i, 0x11), (.sel i, 0x12), (.mov i, 0x13), (.bfe i, 0x14), (.fadd i, 0x20),
    (.fsub i, 0x21), (.fmul i, 0x22), (.ffma i, 0x23), (.fmin i, 0x24), (.fmax i, 0x25), (.fabs i, 0x26), (.fneg i, 0x27),
    (.frcp i, 0x28), (.frsq i, 0x29), (.fsqrt i, 0x2A), (.fexp2 i, 0x2B), (.flog2 i, 0x2C), (.fsin i, 0x2D), (.fcos i, 0x2E),
    (.ftanh i, 0x2F), (.cvt i, 0x40), (.qmax i, 0x41), (.qcvt i, 0x42), (.qdec i, 0x43), (.cmpi i, 0x50), (.cmpf i, 0x51),
    (.pmix i, 0x52), (.ppack i, 0x53), (.punpack i, 0x54), (.lanex i, 0x60), (.poll i, 0x61), (.redg i, 0x62),
    (.argmaxg i, 0x63), (.scang i, 0x64), (.rng i, 0x70), (.rngseed i, 0x71), (.gumbel i, 0x72), (.uadd i, 0x80),
    (.usub i, 0x81), (.umul i, 0x82), (.ushl i, 0x83), (.ushr i, 0x84), (.uand i, 0x85), (.uor i, 0x86), (.uxor i, 0x87),
    (.umov i, 0x88), (.rdsr i, 0x90)],
    i.word.t.top = x.2 → ∃ u, exec x.1 s = .next u ∧ s.Moved u i (fun _ => i.pc + 32) ∧ s.OnlySkein u i.core.toNat i.slot.toNat ∧
      (u.skein i.core.toNat i.slot.toNat).pend = (s.skein i.core.toNat i.slot.toNat).pend ++ s.tPend (s.grp i) i.word.t ∧
      (u.skein i.core.toNat i.slot.toNat).gen = ((s.skein i.core.toNat i.slot.toNat).tGen i.word.t (s.grp i).act).gen ∧
      (u.skein i.core.toNat i.slot.toNat).st = (s.skein i.core.toNat i.slot.toNat).st

/-- R97: what the integer operations compute, for each active lane of a group: without SAT modulo 2^32, signed where TFMT is 1; with SAT a
result is held within the type's range; shifts of 32 and more give 0, or the sign. Reserved opcodes, and formats that the table does not
give, are cause 0x01. -/
def Obligations.IntegerResults : Prop :=
  (∀ (g : Grp) (t : TSlot) (s : State) (k : Skein) (a b c : Nat → Word) (sg : Bool), k = s.skein g.core g.slot → g.act ≠ [] →
    t.td ≠ 255 → (a = fun l => k.xr l t.ta) → (b = fun l => srcB k t l) → (c = fun l => k.xr l t.tc) → sg = (t.tfmt == 1) →
    (t.tmod = 0 → ∀ x : Nat × (Word → Word → Word → Word), x ∈ [
        (0x01, fun a b _ => a + b), (0x02, fun a b _ => a - b), (0x03, fun a b _ => a * b),
        (0x04, fun a b _ => BitVec.ofInt 32 ((if sg then a.toInt * b.toInt else (a.toNat : Int) * (b.toNat : Int)) / 2 ^ 32)), (0x05, fun a b c => a * b + c),
        (0x06, fun a b _ => if (if sg then b.slt a else b.ult a) then b else a),
        (0x07, fun a b _ => if (if sg then a.slt b else a.ult b) then b else a), (0x08, fun a _ _ => if a.msb then -a else a),
        (0x09, fun a b _ => a &&& b), (0x0A, fun a b _ => a ||| b), (0x0B, fun a b _ => a ^^^ b), (0x0C, fun a _ _ => ~~~a),
        (0x0D, fun a b _ => a <<< b.toNat), (0x0E, fun a b _ => if sg then a.sshiftRight b.toNat else a >>> b.toNat),
        (0x0F, fun a _ _ => BitVec.ofNat 32 ((List.range 32).countP fun i => a.getLsbD i)), (0x10, fun a _ _ => a.clz), (0x11, fun a _ _ => a.reverse),
        (0x13, fun _ b _ => b), (0x14, fun a b _ =>
          let n := min (b.toNat / 256 % 64) 32
          let v := (if sg then a.signExtend 64 else a.setWidth 64) >>> (b.toNat % 32)
          if n = 0 then 0 else if sg then ((v <<< (64 - n)).sshiftRight (64 - n)).setWidth 32 else ((v <<< (64 - n)) >>> (64 - n)).setWidth 32)] →
      t.top.toNat = x.1 →
      s.tPend g t = [{ dest := .x t.td, fromMem := false, vals := g.act.map fun l => (l, (x.2 (a l) (b l) (c l)).setWidth 64) }]) ∧
    (t.tmod = 0 → t.top = 0x12 → s.tPend g t = [{ dest := .x t.td, fromMem := false, vals := g.act.map fun l =>
        (l, (if k.pr l (t.tc.toNat % 8) then a l else b l).setWidth 64) }]) ∧
    (t.tmod = 0x40 → ∀ x : Nat × (Int → Int → Int → Int), x ∈ [(0x01, fun a b _ => a + b), (0x02, fun a b _ => a - b), (0x03, fun a b _ => a * b),
        (0x05, fun a b c => a * b + c), (0x08, fun a _ _ => max a (-a))] → t.top.toNat = x.1 → (x.1 = 0x08 → sg = true) →
      ∀ int : Word → Int, (int = fun w => if sg then w.toInt else w.toNat) → ∃ v : Nat → Word,
        s.tPend g t = [{ dest := .x t.td, fromMem := false, vals := g.act.map fun l => (l, (v l).setWidth 64) }] ∧
        ∀ l, int (v l) = max (if sg then -(2 ^ 31) else 0) (min (if sg then 2 ^ 31 - 1 else 2 ^ 32 - 1) (x.2 (int (a l)) (int (b l)) (int (c l)))))) ∧
  (∀ (units : Nat) (w : IWord), (0x15 ≤ w.t.top.toNat ∧ w.t.top.toNat ≤ 0x1F) ∨ (1 ≤ w.t.top.toNat ∧ w.t.top.toNat ≤ 0x14 ∧ (2 ≤ w.t.tfmt.toNat ∨
      w.t.top = 8 ∧ w.t.tfmt = 0 ∨ (w.t.top = 0x12 ∨ w.t.top = 0x13) ∧ w.t.tfmt = 1)) → decodeCause units w = some 1)

/-- R87, R90, R121: a selected branch, call or return takes its active threads to their target, the other threads of the group to the next
word; a call's return address waits for its pair of registers. -/
def Obligations.BranchesMoveGroups : Prop :=
  ∀ (i : Issue) (s : State), s.Issues i → i.word.t = {} → i.word.m = {} → i.word.h = {} →
    ∀ x : Instr × BitVec 5 × (Nat → Dword), x ∈ [
      (Instr.bra i, 1, fun _ => i.pc + i.word.c.cimm.signExtend 64 * 32),
      (.brx i, 2, fun l => i.pc + ((s.skein i.core.toNat i.slot.toNat).xr l (i.word.c.cimm.setWidth 8)).signExtend 64 * 32),
      (.bru i, 3, fun _ => (s.skein i.core.toNat i.slot.toNat).ur (i.word.c.cimm.toNat % 64) &&& ~~~31#64),
      (.call i, 4, fun _ => i.pc + (i.word.c.cimm.setWidth 10).signExtend 64 * 32),
      (.ret i, 5, fun l => ((s.skein i.core.toNat i.slot.toNat).xr l (i.word.c.cimm.setWidth 8 + 1) ++
        (s.skein i.core.toNat i.slot.toNat).xr l (i.word.c.cimm.setWidth 8)) &&& ~~~31#64)] →
      i.word.c.cop = x.2.1 → ∃ u, exec x.1 s = .next u ∧ s.Moved u i x.2.2 ∧ s.OnlySkein u i.core.toNat i.slot.toNat ∧
        (x.2.1 ≠ 4 → (u.skein i.core.toNat i.slot.toNat).pend = (s.skein i.core.toNat i.slot.toNat).pend) ∧
        (x.2.1 = 4 → (s.grp i).act ≠ [] → i.word.c.cimm.extractLsb' 10 8 ≠ 254 →
          (u.skein i.core.toNat i.slot.toNat).pend = (s.skein i.core.toNat i.slot.toNat).pend ++
            [{ dest := .x (i.word.c.cimm.extractLsb' 10 8), fromMem := false, vals := (s.grp i).act.map fun l => (l, (i.pc + 32) &&& 0xFFFFFFFF#64) },
             { dest := .x (i.word.c.cimm.extractLsb' 10 8 + 1), fromMem := false, vals := (s.grp i).act.map fun l => (l, (i.pc + 32) >>> 32) }])

/-- R57 to R59, R62, R90, R91: EXIT ends the active threads, and the skein with its last; a thread that arrives at a knot counts there,
waits with KNOT.WAIT, and the last one ends the phase; TRAP halts with cause 0x0E at its own address; BRK halts the skein at it where the
policy allows it, and the threads that were halted there pass it later; elsewhere it raises cause 0x0F. -/
def Obligations.ControlWordsAct : Prop :=
  ∀ (i : Issue) (s : State) (k : Skein), k = s.skein i.core.toNat i.slot.toNat → s.Issues i → i.word.t = {} → i.word.m = {} → i.word.h = {} →
    (i.word.c.cop = 6 → (s.core i.core.toNat).knotsOf k.bundle.toNat = [] → ∃ u, exec (.exit i) s = .next u ∧
      s.Moved u i (fun _ => i.pc + 32) ∧ s.OnlySkein u i.core.toNat i.slot.toNat ∧ (u.skein i.core.toNat i.slot.toNat).pend = k.pend ∧
      (u.skein i.core.toNat i.slot.toNat).exited = k.exited ||| maskOf (s.grp i).act ∧
      (u.skein i.core.toNat i.slot.toNat).st = (if k.lanes &&& ~~~(k.exited ||| maskOf (s.grp i).act) = 0 then .ending else .running)) ∧
    (∀ (l n : Nat) (x : Knot) (wait : Bool), i.word.c.cop = (if wait then 7 else 8) → (s.grp i).act = [l] →
      (s.core i.core.toNat).knotNamed k.bundle.toNat (i.word.c.cimm.toNat % 16) = some n → x = nth {} (s.core i.core.toNat).knots n →
      threadKey i.slot.toNat l ∉ x.arrived → (∀ e ∈ (s.core i.core.toNat).skeins, e.2.knotHeld = []) →
      (x.arrived.length + 1 + x.exited < x.participants → ∃ u, exec (if wait then .knotWait i else .knotArrive i) s = .next u ∧
        s.Moved u i (fun _ => i.pc + 32) ∧ (nth {} (u.core i.core.toNat).knots n).arrived = threadKey i.slot.toNat l :: x.arrived ∧
        (nth {} (u.core i.core.toNat).knots n).phase = x.phase ∧
        (wait = true → (l, (n, i.pc)) ∈ (u.skein i.core.toNat i.slot.toNat).knotWait) ∧
        (wait = false → (u.skein i.core.toNat i.slot.toNat).knotWait = k.knotWait) ∧ u.mem = s.mem) ∧
      (x.arrived.length + 1 + x.exited = x.participants → ∃ u, exec (if wait then .knotWait i else .knotArrive i) s = .next u ∧
        s.Moved u i (fun _ => i.pc + 32) ∧ (nth {} (u.core i.core.toNat).knots n).arrived = [] ∧
        (nth {} (u.core i.core.toNat).knots n).phase = !x.phase ∧ (nth {} (u.core i.core.toNat).knots n).firstAt = none ∧
        (∀ m, (s.skein i.core.toNat m).bundle = k.bundle → ∀ w ∈ (u.skein i.core.toNat m).knotWait, w.2.1 ≠ n) ∧ u.mem = s.mem)) ∧
    (i.word.c.cop = 9 → (s.grp i).act ≠ [] → (∀ p < 16, (s.obPart p).phase = .idle) → ∃ u, exec (.trap i) s = .next u ∧
      (u.skein i.core.toNat i.slot.toNat).st = .excHalted ∧ (u.skein i.core.toNat i.slot.toNat).cause = 0x0E ∧
      (u.skein i.core.toNat i.slot.toNat).excPc = i.pc ∧ (u.skein i.core.toNat i.slot.toNat).excMask = maskOf (s.grp i).act ∧
      (u.skein i.core.toNat i.slot.toNat).pc = k.pc ∧ (u.skein i.core.toNat i.slot.toNat).x = k.x ∧ u.mem = s.mem) ∧
    (i.word.c.cop = 10 → s.haltAllowed (s.partOf i.core.toNat) = true →
      (maskOf (s.grp i).act &&& ~~~k.brkPass ≠ 0 → ∃ u, exec (.brk i) s = .next u ∧ (u.skein i.core.toNat i.slot.toNat).st = .debugHalted ∧
        (u.skein i.core.toNat i.slot.toNat).pc = k.pc ∧ (u.skein i.core.toNat i.slot.toNat).pend = k.pend ∧ u.mem = s.mem ∧
        (u.skein i.core.toNat i.slot.toNat).brkPass = k.brkPass ||| maskOf (s.grp i).act) ∧
      (maskOf (s.grp i).act &&& ~~~k.brkPass = 0 → ∃ u, exec (.brk i) s = .next u ∧ s.Moved u i (fun _ => i.pc + 32) ∧
        s.OnlySkein u i.core.toNat i.slot.toNat ∧ (u.skein i.core.toNat i.slot.toNat).st = .running)) ∧
    (i.word.c.cop = 10 → s.haltAllowed (s.partOf i.core.toNat) = false → maskOf (s.grp i).act &&& ~~~k.brkPass ≠ 0 →
      (∀ p < 16, (s.obPart p).phase = .idle) → ∃ u, exec (.brk i) s = .next u ∧ (u.skein i.core.toNat i.slot.toNat).st = .excHalted ∧
        (u.skein i.core.toNat i.slot.toNat).cause = 0x0F ∧ (u.skein i.core.toNat i.slot.toNat).excPc = i.pc ∧
        (u.skein i.core.toNat i.slot.toNat).pc = k.pc ∧ u.mem = s.mem)

/-- R107 to R113, R191, R197, R229, R230, R252 to R260, R264: a memory word that is selected and raises no cause starts at once where its
core's queue is empty: a load joins those outstanding, its registers waiting, and one of the core's own scratch has its data; a store to
the core's own scratch stands there, one to Normal memory joins the store buffer; an atomic puts its result in place of the old value;
SHTL queues its descriptor; SWAIT waits unless its counter has reached the target; SCADD adds; FENCE, PREF and INVAL as their rules
say. -/
def Obligations.MemoryWordsAct : Prop :=
  ∀ (i : Issue) (s : State) (c n size : Nat) (k : Skein) (m : MSlot), c = i.core.toNat → n = i.slot.toNat → k = s.skein c n → m = i.word.m →
    size = accSize m → s.Issues i → i.word.c.cop = 0 → i.word.t = {} → i.word.h = {} → (s.core c).mq = [] → k.fence = none →
    (∀ p ∈ k.pend, p.ready = true ∧ p.stay = false) → (s.grp i).act ≠ [] → (s.mCauses (s.grp i) m).1 = [] →
    (∀ accs, accs = (s.mPlan (s.grp i) m).accs → (∀ a ∈ accs, (a.typ = 0 ∨ a.typ = 1) ∧ isReg a.addr = false) →
      (s.core c).fillsFit m.mhint.toNat accs = true →
      (m.mop = 1 → (∃ r ∈ loadRegs (.x m.md) size, discards r = false) → ∃ u, exec (.ld i) s = .next u ∧ s.Moved u i (fun _ => i.pc + 32) ∧
        u.mem = s.mem ∧ (u.skein c n).pend = k.pend ++ (loadRegs (.x m.md) size).flatMap (memPend · (s.grp i).act) ∧
        (u.core c).lq = (s.core c).lq ++ [{ slot := i.slot, part := s.partByte c, dest := .x m.md, size := size, signed := m.msub.getLsbD 0
                                            hint := m.mhint.toNat, accs := accs }]) ∧
      (m.mop = 1 → (∀ r ∈ loadRegs (.x m.md) size, discards r = true) → (s.core c).lq = [] → ∃ u, exec (.ld i) s = .next u ∧
        s.Moved u i (fun _ => i.pc + 32) ∧ u.mem.bytes = s.mem.bytes ∧ (u.skein c n).pend = k.pend ∧ (u.core c).lq = []) ∧
      (m.mop = 3 → ∃ u, exec (.ldu i) s = .next u ∧ s.Moved u i (fun _ => i.pc + 32) ∧ u.mem = s.mem ∧
        (u.skein c n).pend = k.pend ++ memPend (.u (m.md.setWidth 6)) [0] ∧
        (u.core c).lq = (s.core c).lq ++ [{ slot := i.slot, part := s.partByte c, dest := .u (m.md.setWidth 6), size := size, signed := false
                                            hint := m.mhint.toNat, accs := accs.map fun a => { a with lane := 0 } }])) ∧
    (∀ accs, accs = (s.mPlan (s.grp i) m).accs → accs ≠ [] → (∀ a ∈ accs, a.typ = 3 ∧ isReg a.addr = false ∧ isStack a.addr = false ∧
        isLpd a.addr = false) → (s.core c).lq = [] → (s.core c).fillsFit m.mhint.toNat accs = true →
      (m.mop = 1 → ∃ u, exec (.ld i) s = .next u ∧ s.Moved u i (fun _ => i.pc + 32) ∧ u.mem = s.mem ∧ (u.core c).lq = [] ∧
        (u.skein c n).pend = k.pend ++ (loadDests (.x m.md) size (m.msub.getLsbD 0)).flatMap fun r => if discards r.1 then [] else
          [{ dest := r.1, fromMem := true, vals := accs.map fun a => (a.lane, r.2 (s.coreBytes c a size)) }]) ∧
      (m.mop = 3 → ∃ u, exec (.ldu i) s = .next u ∧ s.Moved u i (fun _ => i.pc + 32) ∧ u.mem = s.mem ∧ (u.core c).lq = [] ∧
        (u.skein c n).pend = k.pend ++ [{ dest := .u (m.md.setWidth 6), fromMem := true
                                          vals := accs.map fun a => (0, BitVec.ofNat 64 (ofBytes (s.coreBytes c a size))) }])) ∧
    (∀ a, (s.mPlan (s.grp i) m).accs = [a] → a.typ ≠ 2 → isReg a.addr = false → (s.core c).sb = [] →
      (m.mop = 0x10 → shtlEngine m < (s.core c).engines.length →
        shtlQueue m < ((s.core c).engine (shtlEngine m)).queues.length → ∃ u x, exec (.shtl i) s = .next u ∧ s.Moved u i (fun _ => i.pc + 32) ∧
          u.entriesOf c (shtlEngine m) (shtlQueue m) = s.entriesOf c (shtlEngine m) (shtlQueue m) ++ [x] ∧ x.desc = descOf (s.coreBytes c a 64) ∧
          x.part = (s.grp i).part ∧ x.started = false ∧ u.mem.bytes = s.mem.bytes ∧ (u.skein c n).pend = k.pend) ∧
      (m.mop = 2 → a.typ = 0 → (size ≤ 8 ∨ isStack a.addr = true) → (s.core c).lq = [] → ∃ u e, exec (.st i) s = .next u ∧
        s.Moved u i (fun _ => i.pc + 32) ∧ (u.core c).sb = [e] ∧ e.line = s.storeLine a ∧ e.key = a.key ∧ e.slots = [n] ∧ e.isOpen = true ∧
        (∀ j < a.data.length, (a.addr % 128 + j, nth 0 a.data j) ∈ e.bytes) ∧ u.mem.bytes = s.mem.bytes ∧ (u.skein c n).pend = k.pend)) ∧
    (∀ l a, m.msp = 1 → (s.grp i).act = [l] → a = scratchAt c (effAddr k m l).toNat → (s.core c).lostScratch = none → (s.core c).sb = [] →
      (s.core c).lq = [] →
      (m.mop = 2 → ∃ u, exec (.st i) s = .next u ∧ s.Moved u i (fun _ => i.pc + 32) ∧ u.bytesAt a size = dataBytes k m.md l size ∧
        (∀ x, (x < a ∨ a + size ≤ x) → u.byteAt x = s.byteAt x) ∧ (u.skein c n).pend = k.pend) ∧
      (∀ (o v : Nat) (lt : Nat → Nat → Bool) (fl : (FFmt → Nat → Nat → Nat) → Nat), o = ofBytes (s.bytesAt a size) → v = leAt (dataBytes k m.md l size) 0 size →
        (lt = fun x y => if m.msub.getLsbD 0 then decide (signed (8 * size) x < signed (8 * size) y) else decide (x < y)) →
        (fl = fun f => (fLanes (if m.msub.getLsbD 1 then 4 else 2) (fun t x y _ => f t x y) (BitVec.ofNat 32 o) (BitVec.ofNat 32 v) 0).toNat) →
        ∀ x ∈ [(Instr.atomAdd i, 4#6, (o + v) % 2 ^ (8 * size)), (.atomMin i, 5, if lt v o then v else o), (.atomMax i, 6, if lt o v then v else o),
            (.atomAnd i, 7, o &&& v), (.atomOr i, 8, o ||| v), (.atomXor i, 9, o ^^^ v), (.atomExch i, 0xA, v), (.atomFadd i, 0xC, fl fAdd),
            (.atomFmin i, 0xD, fl fMin), (.atomFmax i, 0xE, fl fMax),
            (.atomCas i, 0xB, if o = v then leAt (dataBytes k m.md l (2 * size)) size size else o)],
          m.mop = x.2.1 → ∃ u, exec x.1 s = .next u ∧ s.Moved u i (fun _ => i.pc + 32) ∧ u.bytesAt a size = toBytes size x.2.2 ∧
            (∀ y, (y < a ∨ a + size ≤ y) → u.byteAt y = s.byteAt y) ∧
            (m.msub.getLsbD 2 = false → x.2.1 ≠ 0xB → (u.skein c n).pend = k.pend) ∧
            (size = 4 → m.md ≠ 255 → (m.msub.getLsbD 2 = true ∨ x.2.1 = 0xB) → (u.skein c n).pend = k.pend ++
              [{ dest := .x m.md, fromMem := true, vals := [(l, BitVec.ofNat 64 o)] }]))) ∧
    (m.mop = 0x12 → ∃ u, exec (.scadd i) s = .next u ∧ s.Moved u i (fun _ => i.pc + 32) ∧ u.mem = s.mem ∧
      (u.core c).cntVal (m.moff.toNat % 256) = (s.core c).cntVal (m.moff.toNat % 256) + k.ur m.mu.toNat ∧
      ∀ j, j ≠ m.moff.toNat % 256 → (u.core c).cntVal j = (s.core c).cntVal j) ∧
    (m.mop = 0x11 → ∃ u, exec (.swait i) s = .next u ∧ s.Moved u i (fun _ => i.pc + 32) ∧ u.mem = s.mem ∧ s.OnlySkein u c n ∧
      (u.skein c n).waits = if swaitMet (m.msub.getLsbD 0) ((s.core c).cntVal (m.moff.toNat % 256)) (k.ur m.mu.toNat) then k.waits
        else k.waits ++ [{ lanes := maskOf (s.grp i).act, counter := m.moff.toNat % 256, target := k.ur m.mu.toNat, diff := m.msub.getLsbD 0, satisfied := false }]) ∧
    (m.mop = 0x18 → ∃ u, exec (.fence i) s = .next u ∧ s.Moved u i (fun _ => i.pc + 32) ∧ u.mem = s.mem ∧
      (u.skein c n).fence = some (if m.msub = 0 then .core else if m.msub = 1 then .module else .system) ∧
      (m.msub ≠ 0 → ∀ e ∈ (u.core c).sb, n ∈ e.slots → e.isOpen = false)) ∧
    (m.mop = 0x19 → ∃ u, exec (.pref i) s = .next u ∧ s.Moved u i (fun _ => i.pc + 32) ∧ u.mem.bytes = s.mem.bytes ∧
      (u.skein c n).pend = k.pend ∧ (u.core c).sb = (s.core c).sb) ∧
    (m.mop = 0x1A → ∃ u, exec (.inval i) s = .next u ∧ s.Moved u i (fun _ => i.pc + 32) ∧ u.mem = s.mem ∧
      (m.msub = 0 → (u.skein c n).decoded = [] ∧ ∀ x ∈ (u.core c).l1i.sets, x.2.ways = []) ∧
      (m.msub = 1 → ∀ x ∈ (u.core c).l1d.sets, x.2.ways = []) ∧
      (m.msub = 2 → (u.skein c n).invalHold = k.invalHold ||| maskOf (s.grp i).lanes))

/-- R114, R115, R163, R170, R175, R177: a hoop word that is selected and waits for nothing queues its operation on its sub-hoop; HZERO makes a bank
as it is after reset, and HSPLIT sets the mode and empties every sub-hoop, LAST_WAIT apart (log entry 88). -/
def Obligations.HoopWordsAct : Prop :=
  ∀ (i : Issue) (s : State) (c n : Nat) (h : HSlot) (hp : Hoop) (x : SubHoop), c = i.core.toNat → n = i.slot.toNat → h = i.word.h →
    hp = (s.core c).hoop h.hoop.toNat → x = hp.subAt h.sub.toNat → h.hoop.toNat < (s.core c).hoops.length → h.sub.toNat < hp.subs.length →
    s.Issues i → i.word.c.cop = 0 → i.word.t = {} → i.word.m = {} → (s.grp i).act ≠ [] → (s.core c).hAnswer n i.pc h = .go →
    (∀ y ∈ [(Instr.hwld i, 1#4), (.hpassG i, 2), (.hpassX i, 3), (.hdrain i, 4), (.hpatch i, 7)], h.hop = y.2 →
      ∃ u z, exec y.1 s = .next u ∧ s.Moved u i (fun _ => i.pc + 32) ∧ u.mem = s.mem ∧ z = ((u.core c).hoop h.hoop.toNat).subAt h.sub.toNat ∧
        z.queue = x.queue ++ [(s.core c).hOp n h] ∧ z.running = x.running ∧ z.plane0 = x.plane0 ∧ z.plane1 = x.plane1 ∧
        (u.skein c n).pend = (s.skein c n).pend ∧ ∀ d, d ≠ c → u.core d = s.core d) ∧
    (h.hop = 5 → ∃ u z, exec (.hzero i) s = .next u ∧ s.Moved u i (fun _ => i.pc + 32) ∧ u.mem = s.mem ∧
      z = ((u.core c).hoop h.hoop.toNat).subAt h.sub.toNat ∧ z.bank h.bank.toNat = {} ∧ z.bank (1 - h.bank.toNat) = x.bank (1 - h.bank.toNat) ∧
      z.queue = x.queue ∧ z.running = x.running ∧ ∀ d, d ≠ c → u.core d = s.core d) ∧
    (h.hop = 6 → ∃ u, exec (.hsplit i) s = .next u ∧ s.Moved u i (fun _ => i.pc + 32) ∧ u.mem = s.mem ∧
      (u.core c).hoop h.hoop.toNat = { hp with split := h.haux.getLsbD 0, subs := hp.subs.map fun y => { lastWait := y.lastWait } } ∧ ∀ d, d ≠ c → u.core d = s.core d)

/-- One step takes the front command: the command's effect on the state with the queue's rest. On an empty queue the block idles: a
nanosecond passes and queued memory operations go on (the model's choice, log entry 1). -/
def Obligations.StepRunsFrontCommand : Prop :=
  (∀ (c : Instr) (rest : List Instr) (s : State), s.pending = c :: rest → step s = exec c { s with pending := rest }) ∧
  (∀ s : State, s.pending = [] → step s = .next s.idle)

/-- R5, R181, R204, R239, R244, R247, R328, R355, R478, R501, R555: what the rules give as reset values stands in the state after reset: nothing
is queued, no core, partition or port works, the fields of the registers hold the values of their tables, the memory lists nothing and
is in its canonical form. -/
def Obligations.ResetValuesStand : Prop :=
  State.reset.pending = [] ∧ State.reset.mem.bytes = [] ∧ Memory.wf State.reset.mem.bytes = true ∧
  State.reset.boot.phase = 0 ∧ State.reset.time.running = false ∧ State.reset.mem.ilv = 0 ∧ State.reset.mem.ilvSet = false ∧
  State.reset.mem.arb = List.replicate 4 (8, 4, 4) ∧ State.reset.pwr.cap = 2600 ∧ State.reset.pwr.idleUs = 10 ∧
  State.reset.pwr.gateUnassigned = true ∧ State.reset.ob.image = none ∧ State.reset.wlk.gstate = .none ∧ State.reset.hif.cmds = [] ∧
  (∀ c, (State.reset.core c).expBase = 0x5D00 ∧ (State.reset.core c).skeins = [] ∧ (State.reset.core c).quar = false) ∧
  (∀ c n, (State.reset.core c).cntVal n = 0 ∧ (State.reset.skein c n).st = .free) ∧
  (∀ i, (State.reset.island i).dlimit = 15) ∧
  (∀ p, (State.reset.part p).st = .unformed ∧ (State.reset.part p).quads = 0 ∧ (State.reset.part p).bound = false ∧
    (State.reset.part p).xlatBase = 0 ∧ (State.reset.part p).sealed_ = false) ∧
  (∀ p, (State.reset.obPart p).passesM1 = 31 ∧ (State.reset.obPart p).treeRows = 1 ∧ (State.reset.obPart p).solo = false ∧
    (State.reset.obPart p).cold = 0x14 ∧ (State.reset.obPart p).hyst = 8 ∧ (State.reset.obPart p).marginUs = 100 ∧
    (State.reset.obPart p).running = none) ∧
  ∀ q, (State.reset.entry q).st = .free

/-- R81, R82: the instruction word holds its four slots at their bits, and every field of each at its own; a word read back from its 32
bytes, the C-slot in the highest four, is the word that was laid out, and every word of 256 bits is the word of some fields. -/
def Obligations.InstructionWordsRoundTrip : Prop :=
  (∀ w : IWord, decodeWord (encodeWord w) = w ∧ wordOfBytes (toBytes 32 (encodeWord w).toNat) = w ∧
    (encodeWord w).extractLsb' 224 32 = w.c.cop ++ w.c.gneg ++ w.c.gpred ++ w.c.stall ++ w.c.yld ++ w.c.cimm ∧
    (encodeWord w).extractLsb' 136 88 =
      w.t.top ++ w.t.tfmt ++ w.t.td ++ w.t.ta ++ w.t.tb ++ w.t.tc ++ w.t.tpd ++ w.t.tsrc ++ w.t.timm ++ w.t.tmod ∧
    (encodeWord w).extractLsb' 72 64 =
      w.m.mop ++ w.m.msz ++ w.m.md ++ w.m.ma ++ w.m.mu ++ w.m.msp ++ w.m.mhint ++ w.m.msub ++ w.m.mnob ++ w.m.moff ∧
    (encodeWord w).extractLsb' 0 72 = w.h.hop ++ w.h.hoop ++ w.h.sub ++ w.h.hfmt ++ w.h.bank ++ w.h.plane ++ w.h.acc ++ w.h.rows ++ w.h.hu ++
      w.h.hnou ++ w.h.hoff ++ w.h.hstride ++ w.h.haux) ∧
  (∀ v : BitVec 256, encodeWord (decodeWord v) = v) ∧
  ∀ bs : List Byte, bs.length = 32 → toBytes 32 (encodeWord (wordOfBytes bs)).toNat = bs

/-- Every step completes, whatever command stands in front and on an empty queue: no command stops the block; and the memory keeps its one
canonical form through it, addresses rising and no byte listed that an unlisted address reads as. The form is the model's (log entry 4). -/
def Obligations.StepsKeepMemoryCanonical : Prop :=
  ∀ s : State, Memory.wf s.mem.bytes = true → ∃ t, step s = .next t ∧ Memory.wf t.mem.bytes = true
end

