-- ==== Sys2Proof/Laws/State.lean ====
section
/-! SUPPORT. What each change of one part of the state leaves of the other parts: true by unfolding, used by simp in every later
proof. -/

namespace Sys2Proof.Machine

@[simp] theorem State.modCore_pending (s : State) (c : Nat) (f : Core → Core) : (s.modCore c f).pending = s.pending := rfl
@[simp] theorem State.modCore_time (s : State) (c : Nat) (f : Core → Core) : (s.modCore c f).time = s.time := rfl
@[simp] theorem State.modCore_mem (s : State) (c : Nat) (f : Core → Core) : (s.modCore c f).mem = s.mem := rfl
@[simp] theorem State.modCore_ob (s : State) (c : Nat) (f : Core → Core) : (s.modCore c f).ob = s.ob := rfl
@[simp] theorem State.modCore_hif (s : State) (c : Nat) (f : Core → Core) : (s.modCore c f).hif = s.hif := rfl
@[simp] theorem State.modCore_ptn (s : State) (c : Nat) (f : Core → Core) : (s.modCore c f).ptn = s.ptn := rfl
@[simp] theorem State.modCore_thm (s : State) (c : Nat) (f : Core → Core) : (s.modCore c f).thm = s.thm := rfl
@[simp] theorem State.modCore_wlk (s : State) (c : Nat) (f : Core → Core) : (s.modCore c f).wlk = s.wlk := rfl
@[simp] theorem State.modCore_seam (s : State) (c : Nat) (f : Core → Core) : (s.modCore c f).seam = s.seam := rfl
@[simp] theorem State.modCore_islands (s : State) (c : Nat) (f : Core → Core) : (s.modCore c f).islands = s.islands := rfl
@[simp] theorem State.modCore_pwr (s : State) (c : Nat) (f : Core → Core) : (s.modCore c f).pwr = s.pwr := rfl
@[simp] theorem State.modCore_cal (s : State) (c : Nat) (f : Core → Core) : (s.modCore c f).cal = s.cal := rfl
@[simp] theorem State.modCore_msr (s : State) (c : Nat) (f : Core → Core) : (s.modCore c f).msr = s.msr := rfl
@[simp] theorem State.modCore_err (s : State) (c : Nat) (f : Core → Core) : (s.modCore c f).err = s.err := rfl
@[simp] theorem State.modCore_boot (s : State) (c : Nat) (f : Core → Core) : (s.modCore c f).boot = s.boot := rfl
@[simp] theorem State.modCore_mgmt (s : State) (c : Nat) (f : Core → Core) : (s.modCore c f).mgmt = s.mgmt := rfl
@[simp] theorem State.modCore_tap (s : State) (c : Nat) (f : Core → Core) : (s.modCore c f).tap = s.tap := rfl

@[simp] theorem State.modSkein_pending (s : State) (c n : Nat) (f : Skein → Skein) : (s.modSkein c n f).pending = s.pending := rfl
@[simp] theorem State.modSkein_time (s : State) (c n : Nat) (f : Skein → Skein) : (s.modSkein c n f).time = s.time := rfl
@[simp] theorem State.modSkein_mem (s : State) (c n : Nat) (f : Skein → Skein) : (s.modSkein c n f).mem = s.mem := rfl
@[simp] theorem State.modSkein_ob (s : State) (c n : Nat) (f : Skein → Skein) : (s.modSkein c n f).ob = s.ob := rfl
@[simp] theorem State.modSkein_hif (s : State) (c n : Nat) (f : Skein → Skein) : (s.modSkein c n f).hif = s.hif := rfl
@[simp] theorem State.modSkein_ptn (s : State) (c n : Nat) (f : Skein → Skein) : (s.modSkein c n f).ptn = s.ptn := rfl
@[simp] theorem State.modSkein_thm (s : State) (c n : Nat) (f : Skein → Skein) : (s.modSkein c n f).thm = s.thm := rfl
@[simp] theorem State.modSkein_wlk (s : State) (c n : Nat) (f : Skein → Skein) : (s.modSkein c n f).wlk = s.wlk := rfl
@[simp] theorem State.modSkein_seam (s : State) (c n : Nat) (f : Skein → Skein) : (s.modSkein c n f).seam = s.seam := rfl
@[simp] theorem State.modSkein_islands (s : State) (c n : Nat) (f : Skein → Skein) : (s.modSkein c n f).islands = s.islands := rfl
@[simp] theorem State.modSkein_pwr (s : State) (c n : Nat) (f : Skein → Skein) : (s.modSkein c n f).pwr = s.pwr := rfl
@[simp] theorem State.modSkein_cal (s : State) (c n : Nat) (f : Skein → Skein) : (s.modSkein c n f).cal = s.cal := rfl
@[simp] theorem State.modSkein_msr (s : State) (c n : Nat) (f : Skein → Skein) : (s.modSkein c n f).msr = s.msr := rfl
@[simp] theorem State.modSkein_err (s : State) (c n : Nat) (f : Skein → Skein) : (s.modSkein c n f).err = s.err := rfl
@[simp] theorem State.modSkein_boot (s : State) (c n : Nat) (f : Skein → Skein) : (s.modSkein c n f).boot = s.boot := rfl
@[simp] theorem State.modSkein_mgmt (s : State) (c n : Nat) (f : Skein → Skein) : (s.modSkein c n f).mgmt = s.mgmt := rfl
@[simp] theorem State.modSkein_tap (s : State) (c n : Nat) (f : Skein → Skein) : (s.modSkein c n f).tap = s.tap := rfl

@[simp] theorem State.modHoop_pending (s : State) (c h : Nat) (f : Hoop → Hoop) : (s.modHoop c h f).pending = s.pending := rfl
@[simp] theorem State.modHoop_time (s : State) (c h : Nat) (f : Hoop → Hoop) : (s.modHoop c h f).time = s.time := rfl
@[simp] theorem State.modHoop_mem (s : State) (c h : Nat) (f : Hoop → Hoop) : (s.modHoop c h f).mem = s.mem := rfl
@[simp] theorem State.modHoop_ob (s : State) (c h : Nat) (f : Hoop → Hoop) : (s.modHoop c h f).ob = s.ob := rfl
@[simp] theorem State.modHoop_hif (s : State) (c h : Nat) (f : Hoop → Hoop) : (s.modHoop c h f).hif = s.hif := rfl
@[simp] theorem State.modHoop_ptn (s : State) (c h : Nat) (f : Hoop → Hoop) : (s.modHoop c h f).ptn = s.ptn := rfl
@[simp] theorem State.modHoop_thm (s : State) (c h : Nat) (f : Hoop → Hoop) : (s.modHoop c h f).thm = s.thm := rfl
@[simp] theorem State.modHoop_wlk (s : State) (c h : Nat) (f : Hoop → Hoop) : (s.modHoop c h f).wlk = s.wlk := rfl
@[simp] theorem State.modHoop_seam (s : State) (c h : Nat) (f : Hoop → Hoop) : (s.modHoop c h f).seam = s.seam := rfl
@[simp] theorem State.modHoop_islands (s : State) (c h : Nat) (f : Hoop → Hoop) : (s.modHoop c h f).islands = s.islands := rfl
@[simp] theorem State.modHoop_pwr (s : State) (c h : Nat) (f : Hoop → Hoop) : (s.modHoop c h f).pwr = s.pwr := rfl
@[simp] theorem State.modHoop_cal (s : State) (c h : Nat) (f : Hoop → Hoop) : (s.modHoop c h f).cal = s.cal := rfl
@[simp] theorem State.modHoop_msr (s : State) (c h : Nat) (f : Hoop → Hoop) : (s.modHoop c h f).msr = s.msr := rfl
@[simp] theorem State.modHoop_err (s : State) (c h : Nat) (f : Hoop → Hoop) : (s.modHoop c h f).err = s.err := rfl
@[simp] theorem State.modHoop_boot (s : State) (c h : Nat) (f : Hoop → Hoop) : (s.modHoop c h f).boot = s.boot := rfl
@[simp] theorem State.modHoop_mgmt (s : State) (c h : Nat) (f : Hoop → Hoop) : (s.modHoop c h f).mgmt = s.mgmt := rfl
@[simp] theorem State.modHoop_tap (s : State) (c h : Nat) (f : Hoop → Hoop) : (s.modHoop c h f).tap = s.tap := rfl

@[simp] theorem State.modSub_pending (s : State) (c h n : Nat) (f : SubHoop → SubHoop) : (s.modSub c h n f).pending = s.pending := rfl
@[simp] theorem State.modSub_time (s : State) (c h n : Nat) (f : SubHoop → SubHoop) : (s.modSub c h n f).time = s.time := rfl
@[simp] theorem State.modSub_mem (s : State) (c h n : Nat) (f : SubHoop → SubHoop) : (s.modSub c h n f).mem = s.mem := rfl
@[simp] theorem State.modSub_ob (s : State) (c h n : Nat) (f : SubHoop → SubHoop) : (s.modSub c h n f).ob = s.ob := rfl
@[simp] theorem State.modSub_hif (s : State) (c h n : Nat) (f : SubHoop → SubHoop) : (s.modSub c h n f).hif = s.hif := rfl
@[simp] theorem State.modSub_ptn (s : State) (c h n : Nat) (f : SubHoop → SubHoop) : (s.modSub c h n f).ptn = s.ptn := rfl
@[simp] theorem State.modSub_thm (s : State) (c h n : Nat) (f : SubHoop → SubHoop) : (s.modSub c h n f).thm = s.thm := rfl
@[simp] theorem State.modSub_wlk (s : State) (c h n : Nat) (f : SubHoop → SubHoop) : (s.modSub c h n f).wlk = s.wlk := rfl
@[simp] theorem State.modSub_seam (s : State) (c h n : Nat) (f : SubHoop → SubHoop) : (s.modSub c h n f).seam = s.seam := rfl
@[simp] theorem State.modSub_islands (s : State) (c h n : Nat) (f : SubHoop → SubHoop) : (s.modSub c h n f).islands = s.islands := rfl
@[simp] theorem State.modSub_pwr (s : State) (c h n : Nat) (f : SubHoop → SubHoop) : (s.modSub c h n f).pwr = s.pwr := rfl
@[simp] theorem State.modSub_cal (s : State) (c h n : Nat) (f : SubHoop → SubHoop) : (s.modSub c h n f).cal = s.cal := rfl
@[simp] theorem State.modSub_msr (s : State) (c h n : Nat) (f : SubHoop → SubHoop) : (s.modSub c h n f).msr = s.msr := rfl
@[simp] theorem State.modSub_err (s : State) (c h n : Nat) (f : SubHoop → SubHoop) : (s.modSub c h n f).err = s.err := rfl
@[simp] theorem State.modSub_boot (s : State) (c h n : Nat) (f : SubHoop → SubHoop) : (s.modSub c h n f).boot = s.boot := rfl
@[simp] theorem State.modSub_mgmt (s : State) (c h n : Nat) (f : SubHoop → SubHoop) : (s.modSub c h n f).mgmt = s.mgmt := rfl
@[simp] theorem State.modSub_tap (s : State) (c h n : Nat) (f : SubHoop → SubHoop) : (s.modSub c h n f).tap = s.tap := rfl

@[simp] theorem State.modEngine_pending (s : State) (c e : Nat) (f : Engine → Engine) : (s.modEngine c e f).pending = s.pending := rfl
@[simp] theorem State.modEngine_time (s : State) (c e : Nat) (f : Engine → Engine) : (s.modEngine c e f).time = s.time := rfl
@[simp] theorem State.modEngine_mem (s : State) (c e : Nat) (f : Engine → Engine) : (s.modEngine c e f).mem = s.mem := rfl
@[simp] theorem State.modEngine_ob (s : State) (c e : Nat) (f : Engine → Engine) : (s.modEngine c e f).ob = s.ob := rfl
@[simp] theorem State.modEngine_hif (s : State) (c e : Nat) (f : Engine → Engine) : (s.modEngine c e f).hif = s.hif := rfl
@[simp] theorem State.modEngine_ptn (s : State) (c e : Nat) (f : Engine → Engine) : (s.modEngine c e f).ptn = s.ptn := rfl
@[simp] theorem State.modEngine_thm (s : State) (c e : Nat) (f : Engine → Engine) : (s.modEngine c e f).thm = s.thm := rfl
@[simp] theorem State.modEngine_wlk (s : State) (c e : Nat) (f : Engine → Engine) : (s.modEngine c e f).wlk = s.wlk := rfl
@[simp] theorem State.modEngine_seam (s : State) (c e : Nat) (f : Engine → Engine) : (s.modEngine c e f).seam = s.seam := rfl
@[simp] theorem State.modEngine_islands (s : State) (c e : Nat) (f : Engine → Engine) : (s.modEngine c e f).islands = s.islands := rfl
@[simp] theorem State.modEngine_pwr (s : State) (c e : Nat) (f : Engine → Engine) : (s.modEngine c e f).pwr = s.pwr := rfl
@[simp] theorem State.modEngine_cal (s : State) (c e : Nat) (f : Engine → Engine) : (s.modEngine c e f).cal = s.cal := rfl
@[simp] theorem State.modEngine_msr (s : State) (c e : Nat) (f : Engine → Engine) : (s.modEngine c e f).msr = s.msr := rfl
@[simp] theorem State.modEngine_err (s : State) (c e : Nat) (f : Engine → Engine) : (s.modEngine c e f).err = s.err := rfl
@[simp] theorem State.modEngine_boot (s : State) (c e : Nat) (f : Engine → Engine) : (s.modEngine c e f).boot = s.boot := rfl
@[simp] theorem State.modEngine_mgmt (s : State) (c e : Nat) (f : Engine → Engine) : (s.modEngine c e f).mgmt = s.mgmt := rfl
@[simp] theorem State.modEngine_tap (s : State) (c e : Nat) (f : Engine → Engine) : (s.modEngine c e f).tap = s.tap := rfl

@[simp] theorem State.modQueue_pending (s : State) (c e q : Nat) (f : ShQueue → ShQueue) : (s.modQueue c e q f).pending = s.pending := rfl
@[simp] theorem State.modQueue_time (s : State) (c e q : Nat) (f : ShQueue → ShQueue) : (s.modQueue c e q f).time = s.time := rfl
@[simp] theorem State.modQueue_mem (s : State) (c e q : Nat) (f : ShQueue → ShQueue) : (s.modQueue c e q f).mem = s.mem := rfl
@[simp] theorem State.modQueue_ob (s : State) (c e q : Nat) (f : ShQueue → ShQueue) : (s.modQueue c e q f).ob = s.ob := rfl
@[simp] theorem State.modQueue_hif (s : State) (c e q : Nat) (f : ShQueue → ShQueue) : (s.modQueue c e q f).hif = s.hif := rfl
@[simp] theorem State.modQueue_ptn (s : State) (c e q : Nat) (f : ShQueue → ShQueue) : (s.modQueue c e q f).ptn = s.ptn := rfl
@[simp] theorem State.modQueue_thm (s : State) (c e q : Nat) (f : ShQueue → ShQueue) : (s.modQueue c e q f).thm = s.thm := rfl
@[simp] theorem State.modQueue_wlk (s : State) (c e q : Nat) (f : ShQueue → ShQueue) : (s.modQueue c e q f).wlk = s.wlk := rfl
@[simp] theorem State.modQueue_seam (s : State) (c e q : Nat) (f : ShQueue → ShQueue) : (s.modQueue c e q f).seam = s.seam := rfl
@[simp] theorem State.modQueue_islands (s : State) (c e q : Nat) (f : ShQueue → ShQueue) : (s.modQueue c e q f).islands = s.islands := rfl
@[simp] theorem State.modQueue_pwr (s : State) (c e q : Nat) (f : ShQueue → ShQueue) : (s.modQueue c e q f).pwr = s.pwr := rfl
@[simp] theorem State.modQueue_cal (s : State) (c e q : Nat) (f : ShQueue → ShQueue) : (s.modQueue c e q f).cal = s.cal := rfl
@[simp] theorem State.modQueue_msr (s : State) (c e q : Nat) (f : ShQueue → ShQueue) : (s.modQueue c e q f).msr = s.msr := rfl
@[simp] theorem State.modQueue_err (s : State) (c e q : Nat) (f : ShQueue → ShQueue) : (s.modQueue c e q f).err = s.err := rfl
@[simp] theorem State.modQueue_boot (s : State) (c e q : Nat) (f : ShQueue → ShQueue) : (s.modQueue c e q f).boot = s.boot := rfl
@[simp] theorem State.modQueue_mgmt (s : State) (c e q : Nat) (f : ShQueue → ShQueue) : (s.modQueue c e q f).mgmt = s.mgmt := rfl
@[simp] theorem State.modQueue_tap (s : State) (c e q : Nat) (f : ShQueue → ShQueue) : (s.modQueue c e q f).tap = s.tap := rfl

@[simp] theorem State.modPart_pending (s : State) (p : Nat) (f : Ptn → Ptn) : (s.modPart p f).pending = s.pending := rfl
@[simp] theorem State.modPart_time (s : State) (p : Nat) (f : Ptn → Ptn) : (s.modPart p f).time = s.time := rfl
@[simp] theorem State.modPart_cores (s : State) (p : Nat) (f : Ptn → Ptn) : (s.modPart p f).cores = s.cores := rfl
@[simp] theorem State.modPart_mem (s : State) (p : Nat) (f : Ptn → Ptn) : (s.modPart p f).mem = s.mem := rfl
@[simp] theorem State.modPart_ob (s : State) (p : Nat) (f : Ptn → Ptn) : (s.modPart p f).ob = s.ob := rfl
@[simp] theorem State.modPart_hif (s : State) (p : Nat) (f : Ptn → Ptn) : (s.modPart p f).hif = s.hif := rfl
@[simp] theorem State.modPart_thm (s : State) (p : Nat) (f : Ptn → Ptn) : (s.modPart p f).thm = s.thm := rfl
@[simp] theorem State.modPart_wlk (s : State) (p : Nat) (f : Ptn → Ptn) : (s.modPart p f).wlk = s.wlk := rfl
@[simp] theorem State.modPart_seam (s : State) (p : Nat) (f : Ptn → Ptn) : (s.modPart p f).seam = s.seam := rfl
@[simp] theorem State.modPart_islands (s : State) (p : Nat) (f : Ptn → Ptn) : (s.modPart p f).islands = s.islands := rfl
@[simp] theorem State.modPart_pwr (s : State) (p : Nat) (f : Ptn → Ptn) : (s.modPart p f).pwr = s.pwr := rfl
@[simp] theorem State.modPart_cal (s : State) (p : Nat) (f : Ptn → Ptn) : (s.modPart p f).cal = s.cal := rfl
@[simp] theorem State.modPart_msr (s : State) (p : Nat) (f : Ptn → Ptn) : (s.modPart p f).msr = s.msr := rfl
@[simp] theorem State.modPart_err (s : State) (p : Nat) (f : Ptn → Ptn) : (s.modPart p f).err = s.err := rfl
@[simp] theorem State.modPart_boot (s : State) (p : Nat) (f : Ptn → Ptn) : (s.modPart p f).boot = s.boot := rfl
@[simp] theorem State.modPart_mgmt (s : State) (p : Nat) (f : Ptn → Ptn) : (s.modPart p f).mgmt = s.mgmt := rfl
@[simp] theorem State.modPart_tap (s : State) (p : Nat) (f : Ptn → Ptn) : (s.modPart p f).tap = s.tap := rfl

@[simp] theorem State.modOb_pending (s : State) (f : ObSt → ObSt) : (s.modOb f).pending = s.pending := rfl
@[simp] theorem State.modOb_time (s : State) (f : ObSt → ObSt) : (s.modOb f).time = s.time := rfl
@[simp] theorem State.modOb_cores (s : State) (f : ObSt → ObSt) : (s.modOb f).cores = s.cores := rfl
@[simp] theorem State.modOb_mem (s : State) (f : ObSt → ObSt) : (s.modOb f).mem = s.mem := rfl
@[simp] theorem State.modOb_hif (s : State) (f : ObSt → ObSt) : (s.modOb f).hif = s.hif := rfl
@[simp] theorem State.modOb_ptn (s : State) (f : ObSt → ObSt) : (s.modOb f).ptn = s.ptn := rfl
@[simp] theorem State.modOb_thm (s : State) (f : ObSt → ObSt) : (s.modOb f).thm = s.thm := rfl
@[simp] theorem State.modOb_wlk (s : State) (f : ObSt → ObSt) : (s.modOb f).wlk = s.wlk := rfl
@[simp] theorem State.modOb_seam (s : State) (f : ObSt → ObSt) : (s.modOb f).seam = s.seam := rfl
@[simp] theorem State.modOb_islands (s : State) (f : ObSt → ObSt) : (s.modOb f).islands = s.islands := rfl
@[simp] theorem State.modOb_pwr (s : State) (f : ObSt → ObSt) : (s.modOb f).pwr = s.pwr := rfl
@[simp] theorem State.modOb_cal (s : State) (f : ObSt → ObSt) : (s.modOb f).cal = s.cal := rfl
@[simp] theorem State.modOb_msr (s : State) (f : ObSt → ObSt) : (s.modOb f).msr = s.msr := rfl
@[simp] theorem State.modOb_err (s : State) (f : ObSt → ObSt) : (s.modOb f).err = s.err := rfl
@[simp] theorem State.modOb_boot (s : State) (f : ObSt → ObSt) : (s.modOb f).boot = s.boot := rfl
@[simp] theorem State.modOb_mgmt (s : State) (f : ObSt → ObSt) : (s.modOb f).mgmt = s.mgmt := rfl
@[simp] theorem State.modOb_tap (s : State) (f : ObSt → ObSt) : (s.modOb f).tap = s.tap := rfl

@[simp] theorem State.modObPart_pending (s : State) (p : Nat) (f : PtnOb → PtnOb) : (s.modObPart p f).pending = s.pending := rfl
@[simp] theorem State.modObPart_time (s : State) (p : Nat) (f : PtnOb → PtnOb) : (s.modObPart p f).time = s.time := rfl
@[simp] theorem State.modObPart_cores (s : State) (p : Nat) (f : PtnOb → PtnOb) : (s.modObPart p f).cores = s.cores := rfl
@[simp] theorem State.modObPart_mem (s : State) (p : Nat) (f : PtnOb → PtnOb) : (s.modObPart p f).mem = s.mem := rfl
@[simp] theorem State.modObPart_hif (s : State) (p : Nat) (f : PtnOb → PtnOb) : (s.modObPart p f).hif = s.hif := rfl
@[simp] theorem State.modObPart_ptn (s : State) (p : Nat) (f : PtnOb → PtnOb) : (s.modObPart p f).ptn = s.ptn := rfl
@[simp] theorem State.modObPart_thm (s : State) (p : Nat) (f : PtnOb → PtnOb) : (s.modObPart p f).thm = s.thm := rfl
@[simp] theorem State.modObPart_wlk (s : State) (p : Nat) (f : PtnOb → PtnOb) : (s.modObPart p f).wlk = s.wlk := rfl
@[simp] theorem State.modObPart_seam (s : State) (p : Nat) (f : PtnOb → PtnOb) : (s.modObPart p f).seam = s.seam := rfl
@[simp] theorem State.modObPart_islands (s : State) (p : Nat) (f : PtnOb → PtnOb) : (s.modObPart p f).islands = s.islands := rfl
@[simp] theorem State.modObPart_pwr (s : State) (p : Nat) (f : PtnOb → PtnOb) : (s.modObPart p f).pwr = s.pwr := rfl
@[simp] theorem State.modObPart_cal (s : State) (p : Nat) (f : PtnOb → PtnOb) : (s.modObPart p f).cal = s.cal := rfl
@[simp] theorem State.modObPart_msr (s : State) (p : Nat) (f : PtnOb → PtnOb) : (s.modObPart p f).msr = s.msr := rfl
@[simp] theorem State.modObPart_err (s : State) (p : Nat) (f : PtnOb → PtnOb) : (s.modObPart p f).err = s.err := rfl
@[simp] theorem State.modObPart_boot (s : State) (p : Nat) (f : PtnOb → PtnOb) : (s.modObPart p f).boot = s.boot := rfl
@[simp] theorem State.modObPart_mgmt (s : State) (p : Nat) (f : PtnOb → PtnOb) : (s.modObPart p f).mgmt = s.mgmt := rfl
@[simp] theorem State.modObPart_tap (s : State) (p : Nat) (f : PtnOb → PtnOb) : (s.modObPart p f).tap = s.tap := rfl

@[simp] theorem State.modEntry_pending (s : State) (q : Nat) (f : Entry → Entry) : (s.modEntry q f).pending = s.pending := rfl
@[simp] theorem State.modEntry_time (s : State) (q : Nat) (f : Entry → Entry) : (s.modEntry q f).time = s.time := rfl
@[simp] theorem State.modEntry_cores (s : State) (q : Nat) (f : Entry → Entry) : (s.modEntry q f).cores = s.cores := rfl
@[simp] theorem State.modEntry_mem (s : State) (q : Nat) (f : Entry → Entry) : (s.modEntry q f).mem = s.mem := rfl
@[simp] theorem State.modEntry_hif (s : State) (q : Nat) (f : Entry → Entry) : (s.modEntry q f).hif = s.hif := rfl
@[simp] theorem State.modEntry_ptn (s : State) (q : Nat) (f : Entry → Entry) : (s.modEntry q f).ptn = s.ptn := rfl
@[simp] theorem State.modEntry_thm (s : State) (q : Nat) (f : Entry → Entry) : (s.modEntry q f).thm = s.thm := rfl
@[simp] theorem State.modEntry_wlk (s : State) (q : Nat) (f : Entry → Entry) : (s.modEntry q f).wlk = s.wlk := rfl
@[simp] theorem State.modEntry_seam (s : State) (q : Nat) (f : Entry → Entry) : (s.modEntry q f).seam = s.seam := rfl
@[simp] theorem State.modEntry_islands (s : State) (q : Nat) (f : Entry → Entry) : (s.modEntry q f).islands = s.islands := rfl
@[simp] theorem State.modEntry_pwr (s : State) (q : Nat) (f : Entry → Entry) : (s.modEntry q f).pwr = s.pwr := rfl
@[simp] theorem State.modEntry_cal (s : State) (q : Nat) (f : Entry → Entry) : (s.modEntry q f).cal = s.cal := rfl
@[simp] theorem State.modEntry_msr (s : State) (q : Nat) (f : Entry → Entry) : (s.modEntry q f).msr = s.msr := rfl
@[simp] theorem State.modEntry_err (s : State) (q : Nat) (f : Entry → Entry) : (s.modEntry q f).err = s.err := rfl
@[simp] theorem State.modEntry_boot (s : State) (q : Nat) (f : Entry → Entry) : (s.modEntry q f).boot = s.boot := rfl
@[simp] theorem State.modEntry_mgmt (s : State) (q : Nat) (f : Entry → Entry) : (s.modEntry q f).mgmt = s.mgmt := rfl
@[simp] theorem State.modEntry_tap (s : State) (q : Nat) (f : Entry → Entry) : (s.modEntry q f).tap = s.tap := rfl

@[simp] theorem State.modSeamPart_pending (s : State) (p : Nat) (f : PtnSeam → PtnSeam) : (s.modSeamPart p f).pending = s.pending := rfl
@[simp] theorem State.modSeamPart_time (s : State) (p : Nat) (f : PtnSeam → PtnSeam) : (s.modSeamPart p f).time = s.time := rfl
@[simp] theorem State.modSeamPart_cores (s : State) (p : Nat) (f : PtnSeam → PtnSeam) : (s.modSeamPart p f).cores = s.cores := rfl
@[simp] theorem State.modSeamPart_mem (s : State) (p : Nat) (f : PtnSeam → PtnSeam) : (s.modSeamPart p f).mem = s.mem := rfl
@[simp] theorem State.modSeamPart_ob (s : State) (p : Nat) (f : PtnSeam → PtnSeam) : (s.modSeamPart p f).ob = s.ob := rfl
@[simp] theorem State.modSeamPart_hif (s : State) (p : Nat) (f : PtnSeam → PtnSeam) : (s.modSeamPart p f).hif = s.hif := rfl
@[simp] theorem State.modSeamPart_ptn (s : State) (p : Nat) (f : PtnSeam → PtnSeam) : (s.modSeamPart p f).ptn = s.ptn := rfl
@[simp] theorem State.modSeamPart_thm (s : State) (p : Nat) (f : PtnSeam → PtnSeam) : (s.modSeamPart p f).thm = s.thm := rfl
@[simp] theorem State.modSeamPart_wlk (s : State) (p : Nat) (f : PtnSeam → PtnSeam) : (s.modSeamPart p f).wlk = s.wlk := rfl
@[simp] theorem State.modSeamPart_islands (s : State) (p : Nat) (f : PtnSeam → PtnSeam) : (s.modSeamPart p f).islands = s.islands := rfl
@[simp] theorem State.modSeamPart_pwr (s : State) (p : Nat) (f : PtnSeam → PtnSeam) : (s.modSeamPart p f).pwr = s.pwr := rfl
@[simp] theorem State.modSeamPart_cal (s : State) (p : Nat) (f : PtnSeam → PtnSeam) : (s.modSeamPart p f).cal = s.cal := rfl
@[simp] theorem State.modSeamPart_msr (s : State) (p : Nat) (f : PtnSeam → PtnSeam) : (s.modSeamPart p f).msr = s.msr := rfl
@[simp] theorem State.modSeamPart_err (s : State) (p : Nat) (f : PtnSeam → PtnSeam) : (s.modSeamPart p f).err = s.err := rfl
@[simp] theorem State.modSeamPart_boot (s : State) (p : Nat) (f : PtnSeam → PtnSeam) : (s.modSeamPart p f).boot = s.boot := rfl
@[simp] theorem State.modSeamPart_mgmt (s : State) (p : Nat) (f : PtnSeam → PtnSeam) : (s.modSeamPart p f).mgmt = s.mgmt := rfl
@[simp] theorem State.modSeamPart_tap (s : State) (p : Nat) (f : PtnSeam → PtnSeam) : (s.modSeamPart p f).tap = s.tap := rfl

@[simp] theorem State.modHif_pending (s : State) (f : HifSt → HifSt) : (s.modHif f).pending = s.pending := rfl
@[simp] theorem State.modHif_time (s : State) (f : HifSt → HifSt) : (s.modHif f).time = s.time := rfl
@[simp] theorem State.modHif_cores (s : State) (f : HifSt → HifSt) : (s.modHif f).cores = s.cores := rfl
@[simp] theorem State.modHif_mem (s : State) (f : HifSt → HifSt) : (s.modHif f).mem = s.mem := rfl
@[simp] theorem State.modHif_ob (s : State) (f : HifSt → HifSt) : (s.modHif f).ob = s.ob := rfl
@[simp] theorem State.modHif_ptn (s : State) (f : HifSt → HifSt) : (s.modHif f).ptn = s.ptn := rfl
@[simp] theorem State.modHif_thm (s : State) (f : HifSt → HifSt) : (s.modHif f).thm = s.thm := rfl
@[simp] theorem State.modHif_wlk (s : State) (f : HifSt → HifSt) : (s.modHif f).wlk = s.wlk := rfl
@[simp] theorem State.modHif_seam (s : State) (f : HifSt → HifSt) : (s.modHif f).seam = s.seam := rfl
@[simp] theorem State.modHif_islands (s : State) (f : HifSt → HifSt) : (s.modHif f).islands = s.islands := rfl
@[simp] theorem State.modHif_pwr (s : State) (f : HifSt → HifSt) : (s.modHif f).pwr = s.pwr := rfl
@[simp] theorem State.modHif_cal (s : State) (f : HifSt → HifSt) : (s.modHif f).cal = s.cal := rfl
@[simp] theorem State.modHif_msr (s : State) (f : HifSt → HifSt) : (s.modHif f).msr = s.msr := rfl
@[simp] theorem State.modHif_err (s : State) (f : HifSt → HifSt) : (s.modHif f).err = s.err := rfl
@[simp] theorem State.modHif_boot (s : State) (f : HifSt → HifSt) : (s.modHif f).boot = s.boot := rfl
@[simp] theorem State.modHif_mgmt (s : State) (f : HifSt → HifSt) : (s.modHif f).mgmt = s.mgmt := rfl
@[simp] theorem State.modHif_tap (s : State) (f : HifSt → HifSt) : (s.modHif f).tap = s.tap := rfl

@[simp] theorem State.modFn_pending (s : State) (n : Nat) (f : FnSt → FnSt) : (s.modFn n f).pending = s.pending := rfl
@[simp] theorem State.modFn_time (s : State) (n : Nat) (f : FnSt → FnSt) : (s.modFn n f).time = s.time := rfl
@[simp] theorem State.modFn_cores (s : State) (n : Nat) (f : FnSt → FnSt) : (s.modFn n f).cores = s.cores := rfl
@[simp] theorem State.modFn_mem (s : State) (n : Nat) (f : FnSt → FnSt) : (s.modFn n f).mem = s.mem := rfl
@[simp] theorem State.modFn_ob (s : State) (n : Nat) (f : FnSt → FnSt) : (s.modFn n f).ob = s.ob := rfl
@[simp] theorem State.modFn_ptn (s : State) (n : Nat) (f : FnSt → FnSt) : (s.modFn n f).ptn = s.ptn := rfl
@[simp] theorem State.modFn_thm (s : State) (n : Nat) (f : FnSt → FnSt) : (s.modFn n f).thm = s.thm := rfl
@[simp] theorem State.modFn_wlk (s : State) (n : Nat) (f : FnSt → FnSt) : (s.modFn n f).wlk = s.wlk := rfl
@[simp] theorem State.modFn_seam (s : State) (n : Nat) (f : FnSt → FnSt) : (s.modFn n f).seam = s.seam := rfl
@[simp] theorem State.modFn_islands (s : State) (n : Nat) (f : FnSt → FnSt) : (s.modFn n f).islands = s.islands := rfl
@[simp] theorem State.modFn_pwr (s : State) (n : Nat) (f : FnSt → FnSt) : (s.modFn n f).pwr = s.pwr := rfl
@[simp] theorem State.modFn_cal (s : State) (n : Nat) (f : FnSt → FnSt) : (s.modFn n f).cal = s.cal := rfl
@[simp] theorem State.modFn_msr (s : State) (n : Nat) (f : FnSt → FnSt) : (s.modFn n f).msr = s.msr := rfl
@[simp] theorem State.modFn_err (s : State) (n : Nat) (f : FnSt → FnSt) : (s.modFn n f).err = s.err := rfl
@[simp] theorem State.modFn_boot (s : State) (n : Nat) (f : FnSt → FnSt) : (s.modFn n f).boot = s.boot := rfl
@[simp] theorem State.modFn_mgmt (s : State) (n : Nat) (f : FnSt → FnSt) : (s.modFn n f).mgmt = s.mgmt := rfl
@[simp] theorem State.modFn_tap (s : State) (n : Nat) (f : FnSt → FnSt) : (s.modFn n f).tap = s.tap := rfl

@[simp] theorem State.modWlk_pending (s : State) (f : WlkSt → WlkSt) : (s.modWlk f).pending = s.pending := rfl
@[simp] theorem State.modWlk_time (s : State) (f : WlkSt → WlkSt) : (s.modWlk f).time = s.time := rfl
@[simp] theorem State.modWlk_cores (s : State) (f : WlkSt → WlkSt) : (s.modWlk f).cores = s.cores := rfl
@[simp] theorem State.modWlk_mem (s : State) (f : WlkSt → WlkSt) : (s.modWlk f).mem = s.mem := rfl
@[simp] theorem State.modWlk_ob (s : State) (f : WlkSt → WlkSt) : (s.modWlk f).ob = s.ob := rfl
@[simp] theorem State.modWlk_hif (s : State) (f : WlkSt → WlkSt) : (s.modWlk f).hif = s.hif := rfl
@[simp] theorem State.modWlk_ptn (s : State) (f : WlkSt → WlkSt) : (s.modWlk f).ptn = s.ptn := rfl
@[simp] theorem State.modWlk_thm (s : State) (f : WlkSt → WlkSt) : (s.modWlk f).thm = s.thm := rfl
@[simp] theorem State.modWlk_seam (s : State) (f : WlkSt → WlkSt) : (s.modWlk f).seam = s.seam := rfl
@[simp] theorem State.modWlk_islands (s : State) (f : WlkSt → WlkSt) : (s.modWlk f).islands = s.islands := rfl
@[simp] theorem State.modWlk_pwr (s : State) (f : WlkSt → WlkSt) : (s.modWlk f).pwr = s.pwr := rfl
@[simp] theorem State.modWlk_cal (s : State) (f : WlkSt → WlkSt) : (s.modWlk f).cal = s.cal := rfl
@[simp] theorem State.modWlk_msr (s : State) (f : WlkSt → WlkSt) : (s.modWlk f).msr = s.msr := rfl
@[simp] theorem State.modWlk_err (s : State) (f : WlkSt → WlkSt) : (s.modWlk f).err = s.err := rfl
@[simp] theorem State.modWlk_boot (s : State) (f : WlkSt → WlkSt) : (s.modWlk f).boot = s.boot := rfl
@[simp] theorem State.modWlk_mgmt (s : State) (f : WlkSt → WlkSt) : (s.modWlk f).mgmt = s.mgmt := rfl
@[simp] theorem State.modWlk_tap (s : State) (f : WlkSt → WlkSt) : (s.modWlk f).tap = s.tap := rfl

@[simp] theorem State.modPort_pending (s : State) (p : Nat) (f : Port → Port) : (s.modPort p f).pending = s.pending := rfl
@[simp] theorem State.modPort_time (s : State) (p : Nat) (f : Port → Port) : (s.modPort p f).time = s.time := rfl
@[simp] theorem State.modPort_cores (s : State) (p : Nat) (f : Port → Port) : (s.modPort p f).cores = s.cores := rfl
@[simp] theorem State.modPort_mem (s : State) (p : Nat) (f : Port → Port) : (s.modPort p f).mem = s.mem := rfl
@[simp] theorem State.modPort_ob (s : State) (p : Nat) (f : Port → Port) : (s.modPort p f).ob = s.ob := rfl
@[simp] theorem State.modPort_hif (s : State) (p : Nat) (f : Port → Port) : (s.modPort p f).hif = s.hif := rfl
@[simp] theorem State.modPort_ptn (s : State) (p : Nat) (f : Port → Port) : (s.modPort p f).ptn = s.ptn := rfl
@[simp] theorem State.modPort_thm (s : State) (p : Nat) (f : Port → Port) : (s.modPort p f).thm = s.thm := rfl
@[simp] theorem State.modPort_seam (s : State) (p : Nat) (f : Port → Port) : (s.modPort p f).seam = s.seam := rfl
@[simp] theorem State.modPort_islands (s : State) (p : Nat) (f : Port → Port) : (s.modPort p f).islands = s.islands := rfl
@[simp] theorem State.modPort_pwr (s : State) (p : Nat) (f : Port → Port) : (s.modPort p f).pwr = s.pwr := rfl
@[simp] theorem State.modPort_cal (s : State) (p : Nat) (f : Port → Port) : (s.modPort p f).cal = s.cal := rfl
@[simp] theorem State.modPort_msr (s : State) (p : Nat) (f : Port → Port) : (s.modPort p f).msr = s.msr := rfl
@[simp] theorem State.modPort_err (s : State) (p : Nat) (f : Port → Port) : (s.modPort p f).err = s.err := rfl
@[simp] theorem State.modPort_boot (s : State) (p : Nat) (f : Port → Port) : (s.modPort p f).boot = s.boot := rfl
@[simp] theorem State.modPort_mgmt (s : State) (p : Nat) (f : Port → Port) : (s.modPort p f).mgmt = s.mgmt := rfl
@[simp] theorem State.modPort_tap (s : State) (p : Nat) (f : Port → Port) : (s.modPort p f).tap = s.tap := rfl

@[simp] theorem State.modIsland_pending (s : State) (i : Nat) (f : Island → Island) : (s.modIsland i f).pending = s.pending := rfl
@[simp] theorem State.modIsland_time (s : State) (i : Nat) (f : Island → Island) : (s.modIsland i f).time = s.time := rfl
@[simp] theorem State.modIsland_cores (s : State) (i : Nat) (f : Island → Island) : (s.modIsland i f).cores = s.cores := rfl
@[simp] theorem State.modIsland_mem (s : State) (i : Nat) (f : Island → Island) : (s.modIsland i f).mem = s.mem := rfl
@[simp] theorem State.modIsland_ob (s : State) (i : Nat) (f : Island → Island) : (s.modIsland i f).ob = s.ob := rfl
@[simp] theorem State.modIsland_hif (s : State) (i : Nat) (f : Island → Island) : (s.modIsland i f).hif = s.hif := rfl
@[simp] theorem State.modIsland_ptn (s : State) (i : Nat) (f : Island → Island) : (s.modIsland i f).ptn = s.ptn := rfl
@[simp] theorem State.modIsland_thm (s : State) (i : Nat) (f : Island → Island) : (s.modIsland i f).thm = s.thm := rfl
@[simp] theorem State.modIsland_wlk (s : State) (i : Nat) (f : Island → Island) : (s.modIsland i f).wlk = s.wlk := rfl
@[simp] theorem State.modIsland_seam (s : State) (i : Nat) (f : Island → Island) : (s.modIsland i f).seam = s.seam := rfl
@[simp] theorem State.modIsland_pwr (s : State) (i : Nat) (f : Island → Island) : (s.modIsland i f).pwr = s.pwr := rfl
@[simp] theorem State.modIsland_cal (s : State) (i : Nat) (f : Island → Island) : (s.modIsland i f).cal = s.cal := rfl
@[simp] theorem State.modIsland_msr (s : State) (i : Nat) (f : Island → Island) : (s.modIsland i f).msr = s.msr := rfl
@[simp] theorem State.modIsland_err (s : State) (i : Nat) (f : Island → Island) : (s.modIsland i f).err = s.err := rfl
@[simp] theorem State.modIsland_boot (s : State) (i : Nat) (f : Island → Island) : (s.modIsland i f).boot = s.boot := rfl
@[simp] theorem State.modIsland_mgmt (s : State) (i : Nat) (f : Island → Island) : (s.modIsland i f).mgmt = s.mgmt := rfl
@[simp] theorem State.modIsland_tap (s : State) (i : Nat) (f : Island → Island) : (s.modIsland i f).tap = s.tap := rfl

@[simp] theorem State.modMem_pending (s : State) (f : MemSt → MemSt) : (s.modMem f).pending = s.pending := rfl
@[simp] theorem State.modMem_time (s : State) (f : MemSt → MemSt) : (s.modMem f).time = s.time := rfl
@[simp] theorem State.modMem_cores (s : State) (f : MemSt → MemSt) : (s.modMem f).cores = s.cores := rfl
@[simp] theorem State.modMem_ob (s : State) (f : MemSt → MemSt) : (s.modMem f).ob = s.ob := rfl
@[simp] theorem State.modMem_hif (s : State) (f : MemSt → MemSt) : (s.modMem f).hif = s.hif := rfl
@[simp] theorem State.modMem_ptn (s : State) (f : MemSt → MemSt) : (s.modMem f).ptn = s.ptn := rfl
@[simp] theorem State.modMem_thm (s : State) (f : MemSt → MemSt) : (s.modMem f).thm = s.thm := rfl
@[simp] theorem State.modMem_wlk (s : State) (f : MemSt → MemSt) : (s.modMem f).wlk = s.wlk := rfl
@[simp] theorem State.modMem_seam (s : State) (f : MemSt → MemSt) : (s.modMem f).seam = s.seam := rfl
@[simp] theorem State.modMem_islands (s : State) (f : MemSt → MemSt) : (s.modMem f).islands = s.islands := rfl
@[simp] theorem State.modMem_pwr (s : State) (f : MemSt → MemSt) : (s.modMem f).pwr = s.pwr := rfl
@[simp] theorem State.modMem_cal (s : State) (f : MemSt → MemSt) : (s.modMem f).cal = s.cal := rfl
@[simp] theorem State.modMem_msr (s : State) (f : MemSt → MemSt) : (s.modMem f).msr = s.msr := rfl
@[simp] theorem State.modMem_err (s : State) (f : MemSt → MemSt) : (s.modMem f).err = s.err := rfl
@[simp] theorem State.modMem_boot (s : State) (f : MemSt → MemSt) : (s.modMem f).boot = s.boot := rfl
@[simp] theorem State.modMem_mgmt (s : State) (f : MemSt → MemSt) : (s.modMem f).mgmt = s.mgmt := rfl
@[simp] theorem State.modMem_tap (s : State) (f : MemSt → MemSt) : (s.modMem f).tap = s.tap := rfl

@[simp] theorem State.modStrand_pending (s : State) (n : Nat) (f : Strand → Strand) : (s.modStrand n f).pending = s.pending := rfl
@[simp] theorem State.modStrand_time (s : State) (n : Nat) (f : Strand → Strand) : (s.modStrand n f).time = s.time := rfl
@[simp] theorem State.modStrand_cores (s : State) (n : Nat) (f : Strand → Strand) : (s.modStrand n f).cores = s.cores := rfl
@[simp] theorem State.modStrand_ob (s : State) (n : Nat) (f : Strand → Strand) : (s.modStrand n f).ob = s.ob := rfl
@[simp] theorem State.modStrand_hif (s : State) (n : Nat) (f : Strand → Strand) : (s.modStrand n f).hif = s.hif := rfl
@[simp] theorem State.modStrand_ptn (s : State) (n : Nat) (f : Strand → Strand) : (s.modStrand n f).ptn = s.ptn := rfl
@[simp] theorem State.modStrand_thm (s : State) (n : Nat) (f : Strand → Strand) : (s.modStrand n f).thm = s.thm := rfl
@[simp] theorem State.modStrand_wlk (s : State) (n : Nat) (f : Strand → Strand) : (s.modStrand n f).wlk = s.wlk := rfl
@[simp] theorem State.modStrand_seam (s : State) (n : Nat) (f : Strand → Strand) : (s.modStrand n f).seam = s.seam := rfl
@[simp] theorem State.modStrand_islands (s : State) (n : Nat) (f : Strand → Strand) : (s.modStrand n f).islands = s.islands := rfl
@[simp] theorem State.modStrand_pwr (s : State) (n : Nat) (f : Strand → Strand) : (s.modStrand n f).pwr = s.pwr := rfl
@[simp] theorem State.modStrand_cal (s : State) (n : Nat) (f : Strand → Strand) : (s.modStrand n f).cal = s.cal := rfl
@[simp] theorem State.modStrand_msr (s : State) (n : Nat) (f : Strand → Strand) : (s.modStrand n f).msr = s.msr := rfl
@[simp] theorem State.modStrand_err (s : State) (n : Nat) (f : Strand → Strand) : (s.modStrand n f).err = s.err := rfl
@[simp] theorem State.modStrand_boot (s : State) (n : Nat) (f : Strand → Strand) : (s.modStrand n f).boot = s.boot := rfl
@[simp] theorem State.modStrand_mgmt (s : State) (n : Nat) (f : Strand → Strand) : (s.modStrand n f).mgmt = s.mgmt := rfl
@[simp] theorem State.modStrand_tap (s : State) (n : Nat) (f : Strand → Strand) : (s.modStrand n f).tap = s.tap := rfl

@[simp] theorem State.modThm_pending (s : State) (f : ThmSt → ThmSt) : (s.modThm f).pending = s.pending := rfl
@[simp] theorem State.modThm_time (s : State) (f : ThmSt → ThmSt) : (s.modThm f).time = s.time := rfl
@[simp] theorem State.modThm_cores (s : State) (f : ThmSt → ThmSt) : (s.modThm f).cores = s.cores := rfl
@[simp] theorem State.modThm_mem (s : State) (f : ThmSt → ThmSt) : (s.modThm f).mem = s.mem := rfl
@[simp] theorem State.modThm_ob (s : State) (f : ThmSt → ThmSt) : (s.modThm f).ob = s.ob := rfl
@[simp] theorem State.modThm_hif (s : State) (f : ThmSt → ThmSt) : (s.modThm f).hif = s.hif := rfl
@[simp] theorem State.modThm_ptn (s : State) (f : ThmSt → ThmSt) : (s.modThm f).ptn = s.ptn := rfl
@[simp] theorem State.modThm_wlk (s : State) (f : ThmSt → ThmSt) : (s.modThm f).wlk = s.wlk := rfl
@[simp] theorem State.modThm_seam (s : State) (f : ThmSt → ThmSt) : (s.modThm f).seam = s.seam := rfl
@[simp] theorem State.modThm_islands (s : State) (f : ThmSt → ThmSt) : (s.modThm f).islands = s.islands := rfl
@[simp] theorem State.modThm_pwr (s : State) (f : ThmSt → ThmSt) : (s.modThm f).pwr = s.pwr := rfl
@[simp] theorem State.modThm_cal (s : State) (f : ThmSt → ThmSt) : (s.modThm f).cal = s.cal := rfl
@[simp] theorem State.modThm_msr (s : State) (f : ThmSt → ThmSt) : (s.modThm f).msr = s.msr := rfl
@[simp] theorem State.modThm_err (s : State) (f : ThmSt → ThmSt) : (s.modThm f).err = s.err := rfl
@[simp] theorem State.modThm_boot (s : State) (f : ThmSt → ThmSt) : (s.modThm f).boot = s.boot := rfl
@[simp] theorem State.modThm_mgmt (s : State) (f : ThmSt → ThmSt) : (s.modThm f).mgmt = s.mgmt := rfl
@[simp] theorem State.modThm_tap (s : State) (f : ThmSt → ThmSt) : (s.modThm f).tap = s.tap := rfl

@[simp] theorem State.modMsr_pending (s : State) (f : MsrSt → MsrSt) : (s.modMsr f).pending = s.pending := rfl
@[simp] theorem State.modMsr_time (s : State) (f : MsrSt → MsrSt) : (s.modMsr f).time = s.time := rfl
@[simp] theorem State.modMsr_cores (s : State) (f : MsrSt → MsrSt) : (s.modMsr f).cores = s.cores := rfl
@[simp] theorem State.modMsr_mem (s : State) (f : MsrSt → MsrSt) : (s.modMsr f).mem = s.mem := rfl
@[simp] theorem State.modMsr_ob (s : State) (f : MsrSt → MsrSt) : (s.modMsr f).ob = s.ob := rfl
@[simp] theorem State.modMsr_hif (s : State) (f : MsrSt → MsrSt) : (s.modMsr f).hif = s.hif := rfl
@[simp] theorem State.modMsr_ptn (s : State) (f : MsrSt → MsrSt) : (s.modMsr f).ptn = s.ptn := rfl
@[simp] theorem State.modMsr_thm (s : State) (f : MsrSt → MsrSt) : (s.modMsr f).thm = s.thm := rfl
@[simp] theorem State.modMsr_wlk (s : State) (f : MsrSt → MsrSt) : (s.modMsr f).wlk = s.wlk := rfl
@[simp] theorem State.modMsr_seam (s : State) (f : MsrSt → MsrSt) : (s.modMsr f).seam = s.seam := rfl
@[simp] theorem State.modMsr_islands (s : State) (f : MsrSt → MsrSt) : (s.modMsr f).islands = s.islands := rfl
@[simp] theorem State.modMsr_pwr (s : State) (f : MsrSt → MsrSt) : (s.modMsr f).pwr = s.pwr := rfl
@[simp] theorem State.modMsr_cal (s : State) (f : MsrSt → MsrSt) : (s.modMsr f).cal = s.cal := rfl
@[simp] theorem State.modMsr_err (s : State) (f : MsrSt → MsrSt) : (s.modMsr f).err = s.err := rfl
@[simp] theorem State.modMsr_boot (s : State) (f : MsrSt → MsrSt) : (s.modMsr f).boot = s.boot := rfl
@[simp] theorem State.modMsr_mgmt (s : State) (f : MsrSt → MsrSt) : (s.modMsr f).mgmt = s.mgmt := rfl
@[simp] theorem State.modMsr_tap (s : State) (f : MsrSt → MsrSt) : (s.modMsr f).tap = s.tap := rfl

@[simp] theorem State.modErr_pending (s : State) (f : ErrSt → ErrSt) : (s.modErr f).pending = s.pending := rfl
@[simp] theorem State.modErr_time (s : State) (f : ErrSt → ErrSt) : (s.modErr f).time = s.time := rfl
@[simp] theorem State.modErr_cores (s : State) (f : ErrSt → ErrSt) : (s.modErr f).cores = s.cores := rfl
@[simp] theorem State.modErr_mem (s : State) (f : ErrSt → ErrSt) : (s.modErr f).mem = s.mem := rfl
@[simp] theorem State.modErr_ob (s : State) (f : ErrSt → ErrSt) : (s.modErr f).ob = s.ob := rfl
@[simp] theorem State.modErr_hif (s : State) (f : ErrSt → ErrSt) : (s.modErr f).hif = s.hif := rfl
@[simp] theorem State.modErr_ptn (s : State) (f : ErrSt → ErrSt) : (s.modErr f).ptn = s.ptn := rfl
@[simp] theorem State.modErr_thm (s : State) (f : ErrSt → ErrSt) : (s.modErr f).thm = s.thm := rfl
@[simp] theorem State.modErr_wlk (s : State) (f : ErrSt → ErrSt) : (s.modErr f).wlk = s.wlk := rfl
@[simp] theorem State.modErr_seam (s : State) (f : ErrSt → ErrSt) : (s.modErr f).seam = s.seam := rfl
@[simp] theorem State.modErr_islands (s : State) (f : ErrSt → ErrSt) : (s.modErr f).islands = s.islands := rfl
@[simp] theorem State.modErr_pwr (s : State) (f : ErrSt → ErrSt) : (s.modErr f).pwr = s.pwr := rfl
@[simp] theorem State.modErr_cal (s : State) (f : ErrSt → ErrSt) : (s.modErr f).cal = s.cal := rfl
@[simp] theorem State.modErr_msr (s : State) (f : ErrSt → ErrSt) : (s.modErr f).msr = s.msr := rfl
@[simp] theorem State.modErr_boot (s : State) (f : ErrSt → ErrSt) : (s.modErr f).boot = s.boot := rfl
@[simp] theorem State.modErr_mgmt (s : State) (f : ErrSt → ErrSt) : (s.modErr f).mgmt = s.mgmt := rfl
@[simp] theorem State.modErr_tap (s : State) (f : ErrSt → ErrSt) : (s.modErr f).tap = s.tap := rfl

@[simp] theorem State.modBoot_pending (s : State) (f : BootSt → BootSt) : (s.modBoot f).pending = s.pending := rfl
@[simp] theorem State.modBoot_time (s : State) (f : BootSt → BootSt) : (s.modBoot f).time = s.time := rfl
@[simp] theorem State.modBoot_cores (s : State) (f : BootSt → BootSt) : (s.modBoot f).cores = s.cores := rfl
@[simp] theorem State.modBoot_mem (s : State) (f : BootSt → BootSt) : (s.modBoot f).mem = s.mem := rfl
@[simp] theorem State.modBoot_ob (s : State) (f : BootSt → BootSt) : (s.modBoot f).ob = s.ob := rfl
@[simp] theorem State.modBoot_hif (s : State) (f : BootSt → BootSt) : (s.modBoot f).hif = s.hif := rfl
@[simp] theorem State.modBoot_ptn (s : State) (f : BootSt → BootSt) : (s.modBoot f).ptn = s.ptn := rfl
@[simp] theorem State.modBoot_thm (s : State) (f : BootSt → BootSt) : (s.modBoot f).thm = s.thm := rfl
@[simp] theorem State.modBoot_wlk (s : State) (f : BootSt → BootSt) : (s.modBoot f).wlk = s.wlk := rfl
@[simp] theorem State.modBoot_seam (s : State) (f : BootSt → BootSt) : (s.modBoot f).seam = s.seam := rfl
@[simp] theorem State.modBoot_islands (s : State) (f : BootSt → BootSt) : (s.modBoot f).islands = s.islands := rfl
@[simp] theorem State.modBoot_pwr (s : State) (f : BootSt → BootSt) : (s.modBoot f).pwr = s.pwr := rfl
@[simp] theorem State.modBoot_cal (s : State) (f : BootSt → BootSt) : (s.modBoot f).cal = s.cal := rfl
@[simp] theorem State.modBoot_msr (s : State) (f : BootSt → BootSt) : (s.modBoot f).msr = s.msr := rfl
@[simp] theorem State.modBoot_err (s : State) (f : BootSt → BootSt) : (s.modBoot f).err = s.err := rfl
@[simp] theorem State.modBoot_mgmt (s : State) (f : BootSt → BootSt) : (s.modBoot f).mgmt = s.mgmt := rfl
@[simp] theorem State.modBoot_tap (s : State) (f : BootSt → BootSt) : (s.modBoot f).tap = s.tap := rfl

@[simp] theorem State.modMgmt_pending (s : State) (f : MgmtSt → MgmtSt) : (s.modMgmt f).pending = s.pending := rfl
@[simp] theorem State.modMgmt_time (s : State) (f : MgmtSt → MgmtSt) : (s.modMgmt f).time = s.time := rfl
@[simp] theorem State.modMgmt_cores (s : State) (f : MgmtSt → MgmtSt) : (s.modMgmt f).cores = s.cores := rfl
@[simp] theorem State.modMgmt_mem (s : State) (f : MgmtSt → MgmtSt) : (s.modMgmt f).mem = s.mem := rfl
@[simp] theorem State.modMgmt_ob (s : State) (f : MgmtSt → MgmtSt) : (s.modMgmt f).ob = s.ob := rfl
@[simp] theorem State.modMgmt_hif (s : State) (f : MgmtSt → MgmtSt) : (s.modMgmt f).hif = s.hif := rfl
@[simp] theorem State.modMgmt_ptn (s : State) (f : MgmtSt → MgmtSt) : (s.modMgmt f).ptn = s.ptn := rfl
@[simp] theorem State.modMgmt_thm (s : State) (f : MgmtSt → MgmtSt) : (s.modMgmt f).thm = s.thm := rfl
@[simp] theorem State.modMgmt_wlk (s : State) (f : MgmtSt → MgmtSt) : (s.modMgmt f).wlk = s.wlk := rfl
@[simp] theorem State.modMgmt_seam (s : State) (f : MgmtSt → MgmtSt) : (s.modMgmt f).seam = s.seam := rfl
@[simp] theorem State.modMgmt_islands (s : State) (f : MgmtSt → MgmtSt) : (s.modMgmt f).islands = s.islands := rfl
@[simp] theorem State.modMgmt_pwr (s : State) (f : MgmtSt → MgmtSt) : (s.modMgmt f).pwr = s.pwr := rfl
@[simp] theorem State.modMgmt_cal (s : State) (f : MgmtSt → MgmtSt) : (s.modMgmt f).cal = s.cal := rfl
@[simp] theorem State.modMgmt_msr (s : State) (f : MgmtSt → MgmtSt) : (s.modMgmt f).msr = s.msr := rfl
@[simp] theorem State.modMgmt_err (s : State) (f : MgmtSt → MgmtSt) : (s.modMgmt f).err = s.err := rfl
@[simp] theorem State.modMgmt_boot (s : State) (f : MgmtSt → MgmtSt) : (s.modMgmt f).boot = s.boot := rfl
@[simp] theorem State.modMgmt_tap (s : State) (f : MgmtSt → MgmtSt) : (s.modMgmt f).tap = s.tap := rfl

@[simp] theorem State.modPwr_pending (s : State) (f : PwrSt → PwrSt) : (s.modPwr f).pending = s.pending := rfl
@[simp] theorem State.modPwr_time (s : State) (f : PwrSt → PwrSt) : (s.modPwr f).time = s.time := rfl
@[simp] theorem State.modPwr_cores (s : State) (f : PwrSt → PwrSt) : (s.modPwr f).cores = s.cores := rfl
@[simp] theorem State.modPwr_mem (s : State) (f : PwrSt → PwrSt) : (s.modPwr f).mem = s.mem := rfl
@[simp] theorem State.modPwr_ob (s : State) (f : PwrSt → PwrSt) : (s.modPwr f).ob = s.ob := rfl
@[simp] theorem State.modPwr_hif (s : State) (f : PwrSt → PwrSt) : (s.modPwr f).hif = s.hif := rfl
@[simp] theorem State.modPwr_ptn (s : State) (f : PwrSt → PwrSt) : (s.modPwr f).ptn = s.ptn := rfl
@[simp] theorem State.modPwr_thm (s : State) (f : PwrSt → PwrSt) : (s.modPwr f).thm = s.thm := rfl
@[simp] theorem State.modPwr_wlk (s : State) (f : PwrSt → PwrSt) : (s.modPwr f).wlk = s.wlk := rfl
@[simp] theorem State.modPwr_seam (s : State) (f : PwrSt → PwrSt) : (s.modPwr f).seam = s.seam := rfl
@[simp] theorem State.modPwr_islands (s : State) (f : PwrSt → PwrSt) : (s.modPwr f).islands = s.islands := rfl
@[simp] theorem State.modPwr_cal (s : State) (f : PwrSt → PwrSt) : (s.modPwr f).cal = s.cal := rfl
@[simp] theorem State.modPwr_msr (s : State) (f : PwrSt → PwrSt) : (s.modPwr f).msr = s.msr := rfl
@[simp] theorem State.modPwr_err (s : State) (f : PwrSt → PwrSt) : (s.modPwr f).err = s.err := rfl
@[simp] theorem State.modPwr_boot (s : State) (f : PwrSt → PwrSt) : (s.modPwr f).boot = s.boot := rfl
@[simp] theorem State.modPwr_mgmt (s : State) (f : PwrSt → PwrSt) : (s.modPwr f).mgmt = s.mgmt := rfl
@[simp] theorem State.modPwr_tap (s : State) (f : PwrSt → PwrSt) : (s.modPwr f).tap = s.tap := rfl

@[simp] theorem State.bump_pending (s : State) : (s.bump).pending = s.pending := rfl
@[simp] theorem State.bump_cores (s : State) : (s.bump).cores = s.cores := rfl
@[simp] theorem State.bump_mem (s : State) : (s.bump).mem = s.mem := rfl
@[simp] theorem State.bump_ob (s : State) : (s.bump).ob = s.ob := rfl
@[simp] theorem State.bump_hif (s : State) : (s.bump).hif = s.hif := rfl
@[simp] theorem State.bump_ptn (s : State) : (s.bump).ptn = s.ptn := rfl
@[simp] theorem State.bump_thm (s : State) : (s.bump).thm = s.thm := rfl
@[simp] theorem State.bump_wlk (s : State) : (s.bump).wlk = s.wlk := rfl
@[simp] theorem State.bump_seam (s : State) : (s.bump).seam = s.seam := rfl
@[simp] theorem State.bump_islands (s : State) : (s.bump).islands = s.islands := rfl
@[simp] theorem State.bump_pwr (s : State) : (s.bump).pwr = s.pwr := rfl
@[simp] theorem State.bump_cal (s : State) : (s.bump).cal = s.cal := rfl
@[simp] theorem State.bump_msr (s : State) : (s.bump).msr = s.msr := rfl
@[simp] theorem State.bump_err (s : State) : (s.bump).err = s.err := rfl
@[simp] theorem State.bump_boot (s : State) : (s.bump).boot = s.boot := rfl
@[simp] theorem State.bump_mgmt (s : State) : (s.bump).mgmt = s.mgmt := rfl
@[simp] theorem State.bump_tap (s : State) : (s.bump).tap = s.tap := rfl

@[simp] theorem State.poke_pending (s : State) (a : Nat) (bs : List Byte) : (s.poke a bs).pending = s.pending := rfl
@[simp] theorem State.poke_time (s : State) (a : Nat) (bs : List Byte) : (s.poke a bs).time = s.time := rfl
@[simp] theorem State.poke_cores (s : State) (a : Nat) (bs : List Byte) : (s.poke a bs).cores = s.cores := rfl
@[simp] theorem State.poke_ob (s : State) (a : Nat) (bs : List Byte) : (s.poke a bs).ob = s.ob := rfl
@[simp] theorem State.poke_hif (s : State) (a : Nat) (bs : List Byte) : (s.poke a bs).hif = s.hif := rfl
@[simp] theorem State.poke_ptn (s : State) (a : Nat) (bs : List Byte) : (s.poke a bs).ptn = s.ptn := rfl
@[simp] theorem State.poke_thm (s : State) (a : Nat) (bs : List Byte) : (s.poke a bs).thm = s.thm := rfl
@[simp] theorem State.poke_wlk (s : State) (a : Nat) (bs : List Byte) : (s.poke a bs).wlk = s.wlk := rfl
@[simp] theorem State.poke_seam (s : State) (a : Nat) (bs : List Byte) : (s.poke a bs).seam = s.seam := rfl
@[simp] theorem State.poke_islands (s : State) (a : Nat) (bs : List Byte) : (s.poke a bs).islands = s.islands := rfl
@[simp] theorem State.poke_pwr (s : State) (a : Nat) (bs : List Byte) : (s.poke a bs).pwr = s.pwr := rfl
@[simp] theorem State.poke_cal (s : State) (a : Nat) (bs : List Byte) : (s.poke a bs).cal = s.cal := rfl
@[simp] theorem State.poke_msr (s : State) (a : Nat) (bs : List Byte) : (s.poke a bs).msr = s.msr := rfl
@[simp] theorem State.poke_err (s : State) (a : Nat) (bs : List Byte) : (s.poke a bs).err = s.err := rfl
@[simp] theorem State.poke_boot (s : State) (a : Nat) (bs : List Byte) : (s.poke a bs).boot = s.boot := rfl
@[simp] theorem State.poke_mgmt (s : State) (a : Nat) (bs : List Byte) : (s.poke a bs).mgmt = s.mgmt := rfl
@[simp] theorem State.poke_tap (s : State) (a : Nat) (bs : List Byte) : (s.poke a bs).tap = s.tap := rfl

@[simp] theorem State.setBytes_pending (s : State) (a : Nat) (bs : List Byte) : (s.setBytes a bs).pending = s.pending := rfl
@[simp] theorem State.setBytes_time (s : State) (a : Nat) (bs : List Byte) : (s.setBytes a bs).time = s.time := rfl
@[simp] theorem State.setBytes_cores (s : State) (a : Nat) (bs : List Byte) : (s.setBytes a bs).cores = s.cores := rfl
@[simp] theorem State.setBytes_ob (s : State) (a : Nat) (bs : List Byte) : (s.setBytes a bs).ob = s.ob := rfl
@[simp] theorem State.setBytes_hif (s : State) (a : Nat) (bs : List Byte) : (s.setBytes a bs).hif = s.hif := rfl
@[simp] theorem State.setBytes_ptn (s : State) (a : Nat) (bs : List Byte) : (s.setBytes a bs).ptn = s.ptn := rfl
@[simp] theorem State.setBytes_thm (s : State) (a : Nat) (bs : List Byte) : (s.setBytes a bs).thm = s.thm := rfl
@[simp] theorem State.setBytes_wlk (s : State) (a : Nat) (bs : List Byte) : (s.setBytes a bs).wlk = s.wlk := rfl
@[simp] theorem State.setBytes_seam (s : State) (a : Nat) (bs : List Byte) : (s.setBytes a bs).seam = s.seam := rfl
@[simp] theorem State.setBytes_islands (s : State) (a : Nat) (bs : List Byte) : (s.setBytes a bs).islands = s.islands := rfl
@[simp] theorem State.setBytes_pwr (s : State) (a : Nat) (bs : List Byte) : (s.setBytes a bs).pwr = s.pwr := rfl
@[simp] theorem State.setBytes_cal (s : State) (a : Nat) (bs : List Byte) : (s.setBytes a bs).cal = s.cal := rfl
@[simp] theorem State.setBytes_msr (s : State) (a : Nat) (bs : List Byte) : (s.setBytes a bs).msr = s.msr := rfl
@[simp] theorem State.setBytes_err (s : State) (a : Nat) (bs : List Byte) : (s.setBytes a bs).err = s.err := rfl
@[simp] theorem State.setBytes_boot (s : State) (a : Nat) (bs : List Byte) : (s.setBytes a bs).boot = s.boot := rfl
@[simp] theorem State.setBytes_mgmt (s : State) (a : Nat) (bs : List Byte) : (s.setBytes a bs).mgmt = s.mgmt := rfl
@[simp] theorem State.setBytes_tap (s : State) (a : Nat) (bs : List Byte) : (s.setBytes a bs).tap = s.tap := rfl

@[simp] theorem State.zeroRange_pending (s : State) (a n : Nat) : (s.zeroRange a n).pending = s.pending := rfl
@[simp] theorem State.zeroRange_time (s : State) (a n : Nat) : (s.zeroRange a n).time = s.time := rfl
@[simp] theorem State.zeroRange_cores (s : State) (a n : Nat) : (s.zeroRange a n).cores = s.cores := rfl
@[simp] theorem State.zeroRange_ob (s : State) (a n : Nat) : (s.zeroRange a n).ob = s.ob := rfl
@[simp] theorem State.zeroRange_hif (s : State) (a n : Nat) : (s.zeroRange a n).hif = s.hif := rfl
@[simp] theorem State.zeroRange_ptn (s : State) (a n : Nat) : (s.zeroRange a n).ptn = s.ptn := rfl
@[simp] theorem State.zeroRange_thm (s : State) (a n : Nat) : (s.zeroRange a n).thm = s.thm := rfl
@[simp] theorem State.zeroRange_wlk (s : State) (a n : Nat) : (s.zeroRange a n).wlk = s.wlk := rfl
@[simp] theorem State.zeroRange_seam (s : State) (a n : Nat) : (s.zeroRange a n).seam = s.seam := rfl
@[simp] theorem State.zeroRange_islands (s : State) (a n : Nat) : (s.zeroRange a n).islands = s.islands := rfl
@[simp] theorem State.zeroRange_pwr (s : State) (a n : Nat) : (s.zeroRange a n).pwr = s.pwr := rfl
@[simp] theorem State.zeroRange_cal (s : State) (a n : Nat) : (s.zeroRange a n).cal = s.cal := rfl
@[simp] theorem State.zeroRange_msr (s : State) (a n : Nat) : (s.zeroRange a n).msr = s.msr := rfl
@[simp] theorem State.zeroRange_err (s : State) (a n : Nat) : (s.zeroRange a n).err = s.err := rfl
@[simp] theorem State.zeroRange_boot (s : State) (a n : Nat) : (s.zeroRange a n).boot = s.boot := rfl
@[simp] theorem State.zeroRange_mgmt (s : State) (a n : Nat) : (s.zeroRange a n).mgmt = s.mgmt := rfl
@[simp] theorem State.zeroRange_tap (s : State) (a n : Nat) : (s.zeroRange a n).tap = s.tap := rfl

@[simp] theorem State.damage_pending (s : State) (a : Nat) : (s.damage a).pending = s.pending := rfl
@[simp] theorem State.damage_time (s : State) (a : Nat) : (s.damage a).time = s.time := rfl
@[simp] theorem State.damage_cores (s : State) (a : Nat) : (s.damage a).cores = s.cores := rfl
@[simp] theorem State.damage_ob (s : State) (a : Nat) : (s.damage a).ob = s.ob := rfl
@[simp] theorem State.damage_hif (s : State) (a : Nat) : (s.damage a).hif = s.hif := rfl
@[simp] theorem State.damage_ptn (s : State) (a : Nat) : (s.damage a).ptn = s.ptn := rfl
@[simp] theorem State.damage_thm (s : State) (a : Nat) : (s.damage a).thm = s.thm := rfl
@[simp] theorem State.damage_wlk (s : State) (a : Nat) : (s.damage a).wlk = s.wlk := rfl
@[simp] theorem State.damage_seam (s : State) (a : Nat) : (s.damage a).seam = s.seam := rfl
@[simp] theorem State.damage_islands (s : State) (a : Nat) : (s.damage a).islands = s.islands := rfl
@[simp] theorem State.damage_pwr (s : State) (a : Nat) : (s.damage a).pwr = s.pwr := rfl
@[simp] theorem State.damage_cal (s : State) (a : Nat) : (s.damage a).cal = s.cal := rfl
@[simp] theorem State.damage_msr (s : State) (a : Nat) : (s.damage a).msr = s.msr := rfl
@[simp] theorem State.damage_err (s : State) (a : Nat) : (s.damage a).err = s.err := rfl
@[simp] theorem State.damage_boot (s : State) (a : Nat) : (s.damage a).boot = s.boot := rfl
@[simp] theorem State.damage_mgmt (s : State) (a : Nat) : (s.damage a).mgmt = s.mgmt := rfl
@[simp] theorem State.damage_tap (s : State) (a : Nat) : (s.damage a).tap = s.tap := rfl

@[simp] theorem State.aonAdd_pending (s : State) (rec slot k : Nat) : (s.aonAdd rec slot k).pending = s.pending := rfl
@[simp] theorem State.aonAdd_time (s : State) (rec slot k : Nat) : (s.aonAdd rec slot k).time = s.time := rfl
@[simp] theorem State.aonAdd_cores (s : State) (rec slot k : Nat) : (s.aonAdd rec slot k).cores = s.cores := rfl
@[simp] theorem State.aonAdd_mem (s : State) (rec slot k : Nat) : (s.aonAdd rec slot k).mem = s.mem := rfl
@[simp] theorem State.aonAdd_ob (s : State) (rec slot k : Nat) : (s.aonAdd rec slot k).ob = s.ob := rfl
@[simp] theorem State.aonAdd_hif (s : State) (rec slot k : Nat) : (s.aonAdd rec slot k).hif = s.hif := rfl
@[simp] theorem State.aonAdd_ptn (s : State) (rec slot k : Nat) : (s.aonAdd rec slot k).ptn = s.ptn := rfl
@[simp] theorem State.aonAdd_thm (s : State) (rec slot k : Nat) : (s.aonAdd rec slot k).thm = s.thm := rfl
@[simp] theorem State.aonAdd_wlk (s : State) (rec slot k : Nat) : (s.aonAdd rec slot k).wlk = s.wlk := rfl
@[simp] theorem State.aonAdd_seam (s : State) (rec slot k : Nat) : (s.aonAdd rec slot k).seam = s.seam := rfl
@[simp] theorem State.aonAdd_islands (s : State) (rec slot k : Nat) : (s.aonAdd rec slot k).islands = s.islands := rfl
@[simp] theorem State.aonAdd_pwr (s : State) (rec slot k : Nat) : (s.aonAdd rec slot k).pwr = s.pwr := rfl
@[simp] theorem State.aonAdd_cal (s : State) (rec slot k : Nat) : (s.aonAdd rec slot k).cal = s.cal := rfl
@[simp] theorem State.aonAdd_err (s : State) (rec slot k : Nat) : (s.aonAdd rec slot k).err = s.err := rfl
@[simp] theorem State.aonAdd_boot (s : State) (rec slot k : Nat) : (s.aonAdd rec slot k).boot = s.boot := rfl
@[simp] theorem State.aonAdd_mgmt (s : State) (rec slot k : Nat) : (s.aonAdd rec slot k).mgmt = s.mgmt := rfl
@[simp] theorem State.aonAdd_tap (s : State) (rec slot k : Nat) : (s.aonAdd rec slot k).tap = s.tap := rfl

@[simp] theorem State.hostWrite_pending (s : State) (fn : Nat) (addr : Dword) (bs : List Byte) : (s.hostWrite fn addr bs).pending = s.pending := rfl
@[simp] theorem State.hostWrite_time (s : State) (fn : Nat) (addr : Dword) (bs : List Byte) : (s.hostWrite fn addr bs).time = s.time := rfl
@[simp] theorem State.hostWrite_cores (s : State) (fn : Nat) (addr : Dword) (bs : List Byte) : (s.hostWrite fn addr bs).cores = s.cores := rfl
@[simp] theorem State.hostWrite_mem (s : State) (fn : Nat) (addr : Dword) (bs : List Byte) : (s.hostWrite fn addr bs).mem = s.mem := rfl
@[simp] theorem State.hostWrite_ob (s : State) (fn : Nat) (addr : Dword) (bs : List Byte) : (s.hostWrite fn addr bs).ob = s.ob := rfl
@[simp] theorem State.hostWrite_ptn (s : State) (fn : Nat) (addr : Dword) (bs : List Byte) : (s.hostWrite fn addr bs).ptn = s.ptn := rfl
@[simp] theorem State.hostWrite_thm (s : State) (fn : Nat) (addr : Dword) (bs : List Byte) : (s.hostWrite fn addr bs).thm = s.thm := rfl
@[simp] theorem State.hostWrite_wlk (s : State) (fn : Nat) (addr : Dword) (bs : List Byte) : (s.hostWrite fn addr bs).wlk = s.wlk := rfl
@[simp] theorem State.hostWrite_seam (s : State) (fn : Nat) (addr : Dword) (bs : List Byte) : (s.hostWrite fn addr bs).seam = s.seam := rfl
@[simp] theorem State.hostWrite_islands (s : State) (fn : Nat) (addr : Dword) (bs : List Byte) : (s.hostWrite fn addr bs).islands = s.islands := rfl
@[simp] theorem State.hostWrite_pwr (s : State) (fn : Nat) (addr : Dword) (bs : List Byte) : (s.hostWrite fn addr bs).pwr = s.pwr := rfl
@[simp] theorem State.hostWrite_cal (s : State) (fn : Nat) (addr : Dword) (bs : List Byte) : (s.hostWrite fn addr bs).cal = s.cal := rfl
@[simp] theorem State.hostWrite_msr (s : State) (fn : Nat) (addr : Dword) (bs : List Byte) : (s.hostWrite fn addr bs).msr = s.msr := rfl
@[simp] theorem State.hostWrite_err (s : State) (fn : Nat) (addr : Dword) (bs : List Byte) : (s.hostWrite fn addr bs).err = s.err := rfl
@[simp] theorem State.hostWrite_boot (s : State) (fn : Nat) (addr : Dword) (bs : List Byte) : (s.hostWrite fn addr bs).boot = s.boot := rfl
@[simp] theorem State.hostWrite_mgmt (s : State) (fn : Nat) (addr : Dword) (bs : List Byte) : (s.hostWrite fn addr bs).mgmt = s.mgmt := rfl
@[simp] theorem State.hostWrite_tap (s : State) (fn : Nat) (addr : Dword) (bs : List Byte) : (s.hostWrite fn addr bs).tap = s.tap := rfl

@[simp] theorem State.complete_pending (s : State) (fn status : Nat) (bs : List Byte) : (s.complete fn status bs).pending = s.pending := rfl
@[simp] theorem State.complete_time (s : State) (fn status : Nat) (bs : List Byte) : (s.complete fn status bs).time = s.time := rfl
@[simp] theorem State.complete_cores (s : State) (fn status : Nat) (bs : List Byte) : (s.complete fn status bs).cores = s.cores := rfl
@[simp] theorem State.complete_mem (s : State) (fn status : Nat) (bs : List Byte) : (s.complete fn status bs).mem = s.mem := rfl
@[simp] theorem State.complete_ob (s : State) (fn status : Nat) (bs : List Byte) : (s.complete fn status bs).ob = s.ob := rfl
@[simp] theorem State.complete_ptn (s : State) (fn status : Nat) (bs : List Byte) : (s.complete fn status bs).ptn = s.ptn := rfl
@[simp] theorem State.complete_thm (s : State) (fn status : Nat) (bs : List Byte) : (s.complete fn status bs).thm = s.thm := rfl
@[simp] theorem State.complete_wlk (s : State) (fn status : Nat) (bs : List Byte) : (s.complete fn status bs).wlk = s.wlk := rfl
@[simp] theorem State.complete_seam (s : State) (fn status : Nat) (bs : List Byte) : (s.complete fn status bs).seam = s.seam := rfl
@[simp] theorem State.complete_islands (s : State) (fn status : Nat) (bs : List Byte) : (s.complete fn status bs).islands = s.islands := rfl
@[simp] theorem State.complete_pwr (s : State) (fn status : Nat) (bs : List Byte) : (s.complete fn status bs).pwr = s.pwr := rfl
@[simp] theorem State.complete_cal (s : State) (fn status : Nat) (bs : List Byte) : (s.complete fn status bs).cal = s.cal := rfl
@[simp] theorem State.complete_msr (s : State) (fn status : Nat) (bs : List Byte) : (s.complete fn status bs).msr = s.msr := rfl
@[simp] theorem State.complete_err (s : State) (fn status : Nat) (bs : List Byte) : (s.complete fn status bs).err = s.err := rfl
@[simp] theorem State.complete_boot (s : State) (fn status : Nat) (bs : List Byte) : (s.complete fn status bs).boot = s.boot := rfl
@[simp] theorem State.complete_mgmt (s : State) (fn status : Nat) (bs : List Byte) : (s.complete fn status bs).mgmt = s.mgmt := rfl
@[simp] theorem State.complete_tap (s : State) (fn status : Nat) (bs : List Byte) : (s.complete fn status bs).tap = s.tap := rfl

@[simp] theorem State.setIsland_pending (s : State) (i : Nat) (st : CSt) : (s.setIsland i st).pending = s.pending := rfl
@[simp] theorem State.setIsland_time (s : State) (i : Nat) (st : CSt) : (s.setIsland i st).time = s.time := rfl
@[simp] theorem State.setIsland_cores (s : State) (i : Nat) (st : CSt) : (s.setIsland i st).cores = s.cores := rfl
@[simp] theorem State.setIsland_mem (s : State) (i : Nat) (st : CSt) : (s.setIsland i st).mem = s.mem := rfl
@[simp] theorem State.setIsland_ob (s : State) (i : Nat) (st : CSt) : (s.setIsland i st).ob = s.ob := rfl
@[simp] theorem State.setIsland_hif (s : State) (i : Nat) (st : CSt) : (s.setIsland i st).hif = s.hif := rfl
@[simp] theorem State.setIsland_ptn (s : State) (i : Nat) (st : CSt) : (s.setIsland i st).ptn = s.ptn := rfl
@[simp] theorem State.setIsland_thm (s : State) (i : Nat) (st : CSt) : (s.setIsland i st).thm = s.thm := rfl
@[simp] theorem State.setIsland_wlk (s : State) (i : Nat) (st : CSt) : (s.setIsland i st).wlk = s.wlk := rfl
@[simp] theorem State.setIsland_seam (s : State) (i : Nat) (st : CSt) : (s.setIsland i st).seam = s.seam := rfl
@[simp] theorem State.setIsland_pwr (s : State) (i : Nat) (st : CSt) : (s.setIsland i st).pwr = s.pwr := rfl
@[simp] theorem State.setIsland_cal (s : State) (i : Nat) (st : CSt) : (s.setIsland i st).cal = s.cal := rfl
@[simp] theorem State.setIsland_msr (s : State) (i : Nat) (st : CSt) : (s.setIsland i st).msr = s.msr := rfl
@[simp] theorem State.setIsland_err (s : State) (i : Nat) (st : CSt) : (s.setIsland i st).err = s.err := rfl
@[simp] theorem State.setIsland_boot (s : State) (i : Nat) (st : CSt) : (s.setIsland i st).boot = s.boot := rfl
@[simp] theorem State.setIsland_mgmt (s : State) (i : Nat) (st : CSt) : (s.setIsland i st).mgmt = s.mgmt := rfl
@[simp] theorem State.setIsland_tap (s : State) (i : Nat) (st : CSt) : (s.setIsland i st).tap = s.tap := rfl

@[simp] theorem State.modOb_ob (s : State) (f : ObSt → ObSt) : (s.modOb f).ob = f s.ob := rfl
@[simp] theorem State.modHif_hif (s : State) (f : HifSt → HifSt) : (s.modHif f).hif = f s.hif := rfl
@[simp] theorem State.modWlk_wlk (s : State) (f : WlkSt → WlkSt) : (s.modWlk f).wlk = f s.wlk := rfl
@[simp] theorem State.modMem_mem (s : State) (f : MemSt → MemSt) : (s.modMem f).mem = f s.mem := rfl
@[simp] theorem State.modThm_thm (s : State) (f : ThmSt → ThmSt) : (s.modThm f).thm = f s.thm := rfl
@[simp] theorem State.modMsr_msr (s : State) (f : MsrSt → MsrSt) : (s.modMsr f).msr = f s.msr := rfl
@[simp] theorem State.modErr_err (s : State) (f : ErrSt → ErrSt) : (s.modErr f).err = f s.err := rfl
@[simp] theorem State.modBoot_boot (s : State) (f : BootSt → BootSt) : (s.modBoot f).boot = f s.boot := rfl
@[simp] theorem State.modMgmt_mgmt (s : State) (f : MgmtSt → MgmtSt) : (s.modMgmt f).mgmt = f s.mgmt := rfl
@[simp] theorem State.modPwr_pwr (s : State) (f : PwrSt → PwrSt) : (s.modPwr f).pwr = f s.pwr := rfl
@[simp] theorem State.setBytes_bytes (s : State) (a : Nat) (bs : List Byte) : (s.setBytes a bs).mem.bytes = writeList s.mem.bytes a bs := rfl
@[simp] theorem State.poke_bytes (s : State) (a : Nat) (bs : List Byte) : (s.poke a bs).mem.bytes = writeList s.mem.bytes a bs := rfl
@[simp] theorem State.damage_bytes (s : State) (a : Nat) : (s.damage a).mem.bytes = s.mem.bytes := rfl
@[simp] theorem State.modPart_ptn (s : State) (p : Nat) (f : Ptn → Ptn) : (s.modPart p f).ptn = upd s.ptn p f := rfl
@[simp] theorem State.modCore_cores (s : State) (c : Nat) (f : Core → Core) : (s.modCore c f).cores = tmod {} s.cores c f := rfl
@[simp] theorem State.modIsland_islands (s : State) (i : Nat) (f : Island → Island) : (s.modIsland i f).islands = tmod {} s.islands i f := rfl
@[simp] theorem State.bump_now (s : State) : s.bump.time.now = s.time.now := rfl
@[simp] theorem State.bump_running (s : State) : s.bump.time.running = s.time.running := rfl

/-! ### Global time: only `now` moves -/

/-- A command's time changes the clock alone, and neither whether it runs nor the free values taken. -/
theorem State.at_cases (s : State) (t : Dword) :
    ∃ x : TimeSt, s.at_ t = { s with time := x } ∧ x.running = s.time.running ∧ x.free = s.time.free := by
  unfold State.at_ State.moveTime; split
  · exact ⟨_, rfl, rfl, rfl⟩
  · exact ⟨_, rfl, rfl, rfl⟩

@[simp] theorem State.at_pending (s : State) (t : Dword) : (s.at_ t).pending = s.pending := by obtain ⟨x, h, hr, hf⟩ := s.at_cases t; simp [h]
@[simp] theorem State.at_cores (s : State) (t : Dword) : (s.at_ t).cores = s.cores := by obtain ⟨x, h, hr, hf⟩ := s.at_cases t; simp [h]
@[simp] theorem State.at_mem (s : State) (t : Dword) : (s.at_ t).mem = s.mem := by obtain ⟨x, h, hr, hf⟩ := s.at_cases t; simp [h]
@[simp] theorem State.at_ob (s : State) (t : Dword) : (s.at_ t).ob = s.ob := by obtain ⟨x, h, hr, hf⟩ := s.at_cases t; simp [h]
@[simp] theorem State.at_hif (s : State) (t : Dword) : (s.at_ t).hif = s.hif := by obtain ⟨x, h, hr, hf⟩ := s.at_cases t; simp [h]
@[simp] theorem State.at_ptn (s : State) (t : Dword) : (s.at_ t).ptn = s.ptn := by obtain ⟨x, h, hr, hf⟩ := s.at_cases t; simp [h]
@[simp] theorem State.at_thm (s : State) (t : Dword) : (s.at_ t).thm = s.thm := by obtain ⟨x, h, hr, hf⟩ := s.at_cases t; simp [h]
@[simp] theorem State.at_wlk (s : State) (t : Dword) : (s.at_ t).wlk = s.wlk := by obtain ⟨x, h, hr, hf⟩ := s.at_cases t; simp [h]
@[simp] theorem State.at_seam (s : State) (t : Dword) : (s.at_ t).seam = s.seam := by obtain ⟨x, h, hr, hf⟩ := s.at_cases t; simp [h]
@[simp] theorem State.at_islands (s : State) (t : Dword) : (s.at_ t).islands = s.islands := by obtain ⟨x, h, hr, hf⟩ := s.at_cases t; simp [h]
@[simp] theorem State.at_pwr (s : State) (t : Dword) : (s.at_ t).pwr = s.pwr := by obtain ⟨x, h, hr, hf⟩ := s.at_cases t; simp [h]
@[simp] theorem State.at_cal (s : State) (t : Dword) : (s.at_ t).cal = s.cal := by obtain ⟨x, h, hr, hf⟩ := s.at_cases t; simp [h]
@[simp] theorem State.at_msr (s : State) (t : Dword) : (s.at_ t).msr = s.msr := by obtain ⟨x, h, hr, hf⟩ := s.at_cases t; simp [h]
@[simp] theorem State.at_err (s : State) (t : Dword) : (s.at_ t).err = s.err := by obtain ⟨x, h, hr, hf⟩ := s.at_cases t; simp [h]
@[simp] theorem State.at_boot (s : State) (t : Dword) : (s.at_ t).boot = s.boot := by obtain ⟨x, h, hr, hf⟩ := s.at_cases t; simp [h]
@[simp] theorem State.at_mgmt (s : State) (t : Dword) : (s.at_ t).mgmt = s.mgmt := by obtain ⟨x, h, hr, hf⟩ := s.at_cases t; simp [h]
@[simp] theorem State.at_tap (s : State) (t : Dword) : (s.at_ t).tap = s.tap := by obtain ⟨x, h, hr, hf⟩ := s.at_cases t; simp [h]
@[simp] theorem State.at_running (s : State) (t : Dword) : (s.at_ t).time.running = s.time.running := by
  obtain ⟨x, h, hr, hf⟩ := s.at_cases t; simp [h, hr]
@[simp] theorem State.at_free (s : State) (t : Dword) : (s.at_ t).time.free = s.time.free := by
  obtain ⟨x, h, hr, hf⟩ := s.at_cases t; simp [h, hf]

end Sys2Proof.Machine
end

