-- ==== Sys2Proof/Laws/Tables.lean ====
section
/-! SUPPORT. Sparse tables and lists with an element replaced: reading after writing, and the canonical form. -/

namespace Sys2Proof.Machine

section Tables
variable {α : Type}

theorem tget_terase_same (d : α) (m : SMap α) (k : Nat) : tget d (terase m k) k = d := by
  induction m with
  | nil => rfl
  | cons e r ih =>
    obtain ⟨j, w⟩ := e
    by_cases h : j = k
    · simpa [terase, h] using ih
    · simpa [terase, h, tget] using ih

theorem tget_terase_other (d : α) (m : SMap α) {k j : Nat} (h : j ≠ k) : tget d (terase m k) j = tget d m j := by
  induction m with
  | nil => rfl
  | cons e r ih =>
    obtain ⟨i, w⟩ := e
    by_cases hi : i = k
    · subst hi
      have : (i == j) = false := by simpa using fun e => h e.symm
      simpa [terase, tget, this] using ih
    · have he : terase ((i, w) :: r) k = (i, w) :: terase r k := by simp [terase, hi]
      rw [he]
      by_cases hj : i = j
      · simp [tget, hj]
      · simpa [tget, hj] using ih

theorem tget_tinsert_other (d : α) (m : SMap α) {k j : Nat} (v : α) (h : j ≠ k) : tget d (tinsert m k v) j = tget d m j := by
  have hk : (k == j) = false := by simpa using fun e => h e.symm
  induction m with
  | nil => simp [tinsert, tget, hk]
  | cons e r ih =>
    obtain ⟨i, w⟩ := e
    unfold tinsert
    split
    · simp [tget, hk]
    · by_cases hj : i = j
      · simp [tget, hj]
      · simp [tget, hj, ih]

theorem tget_tinsert_erased (d : α) (m : SMap α) (k : Nat) (v : α) : tget d (tinsert (terase m k) k v) k = v := by
  induction m with
  | nil => simp [terase, tinsert, tget]
  | cons e r ih =>
    obtain ⟨i, w⟩ := e
    by_cases hi : i = k
    · simpa [terase, hi] using ih
    · have he : terase ((i, w) :: r) k = (i, w) :: terase r k := by simp [terase, hi]
      rw [he]
      unfold tinsert
      split
      · simp [tget]
      · simpa [tget, hi] using ih

theorem terase_tinsert (m : SMap α) (k : Nat) (v : α) : terase (tinsert m k v) k = terase m k := by
  induction m with
  | nil => simp [terase, tinsert]
  | cons e r ih =>
    obtain ⟨i, w⟩ := e
    unfold tinsert
    split
    · simp [terase]
    · by_cases hi : i = k
      · simpa [terase, hi] using ih
      · simpa [terase, hi] using ih

theorem terase_terase (m : SMap α) (k : Nat) : terase (terase m k) k = terase m k := by simp [terase]

theorem mem_tinsert (m : SMap α) (k : Nat) (v : α) (e : Nat × α) : e ∈ tinsert m k v ↔ e = (k, v) ∨ e ∈ m := by
  induction m with
  | nil => simp [tinsert]
  | cons x r ih =>
    obtain ⟨j, w⟩ := x
    unfold tinsert
    split
    · simp
    · simp only [List.mem_cons, ih]
      exact or_left_comm

variable [DecidableEq α]

@[simp] theorem tget_tset_same (d : α) (m : SMap α) (k : Nat) (v : α) : tget d (tset d m k v) k = v := by
  unfold tset
  split
  · next h => rw [tget_terase_same, h]
  · exact tget_tinsert_erased d m k v

theorem tget_tset_other (d : α) (m : SMap α) {k j : Nat} (v : α) (h : j ≠ k) : tget d (tset d m k v) j = tget d m j := by
  unfold tset
  split
  · exact tget_terase_other d m h
  · rw [tget_tinsert_other d _ v h, tget_terase_other d m h]

theorem tget_tset (d : α) (m : SMap α) (k j : Nat) (v : α) : tget d (tset d m k v) j = if j = k then v else tget d m j := by
  split
  · next h => rw [h, tget_tset_same]
  · next h => exact tget_tset_other d m v h

@[simp] theorem tset_tset (d : α) (m : SMap α) (k : Nat) (v w : α) : tset d (tset d m k v) k w = tset d m k w := by
  have h : terase (tset d m k v) k = terase m k := by
    unfold tset
    split
    · exact terase_terase m k
    · rw [terase_tinsert, terase_terase]
  unfold tset at h ⊢
  rw [h]

@[simp] theorem tget_tmod_same (d : α) (m : SMap α) (k : Nat) (f : α → α) : tget d (tmod d m k f) k = f (tget d m k) :=
  tget_tset_same d m k _

theorem tget_tmod_other (d : α) (m : SMap α) {k j : Nat} (f : α → α) (h : j ≠ k) : tget d (tmod d m k f) j = tget d m j :=
  tget_tset_other d m _ h

@[simp] theorem tmod_tmod (d : α) (m : SMap α) (k : Nat) (f g : α → α) : tmod d (tmod d m k f) k g = tmod d m k (fun x => g (f x)) := by
  simp [tmod]

/-! ### The canonical form -/

theorem TWf_nil (d : α) : TWf d ([] : SMap α) = true := rfl

theorem TWf_cons (d : α) (k : Nat) (v : α) (r : SMap α) :
    TWf d ((k, v) :: r) = true ↔ v ≠ d ∧ (∀ e ∈ r, k < e.1) ∧ TWf d r = true := by
  simp [TWf, and_assoc]

/-- Some entries of a canonical table are a canonical table. -/
theorem TWf_filter (d : α) (m : SMap α) (p : Nat × α → Bool) (h : TWf d m = true) : TWf d (m.filter p) = true := by
  induction m with
  | nil => rfl
  | cons e r ih =>
    obtain ⟨k, v⟩ := e
    obtain ⟨h1, h2, h3⟩ := (TWf_cons d k v r).1 h
    by_cases hp : p (k, v)
    · rw [List.filter_cons_of_pos hp]
      exact (TWf_cons d k v _).2 ⟨h1, fun e he => h2 e (List.mem_filter.1 he).1, ih h3⟩
    · rw [List.filter_cons_of_neg hp]
      exact ih h3

/-- A key that is absent, put in with a value that is not the default, keeps the form. -/
theorem TWf_tinsert (d : α) (m : SMap α) (k : Nat) (v : α) (h : TWf d m = true) (hv : v ≠ d) (hk : ∀ e ∈ m, e.1 ≠ k) :
    TWf d (tinsert m k v) = true := by
  induction m with
  | nil => simp [tinsert, TWf, hv]
  | cons x r ih =>
    obtain ⟨j, w⟩ := x
    obtain ⟨h1, h2, h3⟩ := (TWf_cons d j w r).1 h
    have hj : j ≠ k := hk (j, w) (List.mem_cons_self ..)
    unfold tinsert
    split
    · next lt =>
      refine (TWf_cons d k v _).2 ⟨hv, ?_, h⟩
      intro e he
      rcases List.mem_cons.1 he with rfl | he
      · exact lt
      · exact Nat.lt_trans lt (h2 e he)
    · next ge =>
      refine (TWf_cons d j w _).2 ⟨h1, ?_, ih h3 fun e he => hk e (List.mem_cons_of_mem _ he)⟩
      intro e he
      rcases (mem_tinsert r k v e).1 he with rfl | he
      · exact Nat.lt_of_le_of_ne (Nat.not_lt.1 ge) hj
      · exact h2 e he

/-- A write keeps the canonical form. -/
theorem TWf_tset (d : α) (m : SMap α) (k : Nat) (v : α) (h : TWf d m = true) : TWf d (tset d m k v) = true := by
  unfold tset
  split
  · exact TWf_filter d m _ h
  · next hv =>
    refine TWf_tinsert d _ k v (TWf_filter d m _ h) hv ?_
    intro e he
    have := (List.mem_filter.1 he).2
    simpa using this

theorem TWf_tmod (d : α) (m : SMap α) (k : Nat) (f : α → α) (h : TWf d m = true) : TWf d (tmod d m k f) = true :=
  TWf_tset d m k _ h

end Tables

/-! ### Lists with one element replaced -/

section Lists
variable {α : Type}

@[simp] theorem upd_length (l : List α) (i : Nat) (f : α → α) : (upd l i f).length = l.length := by
  induction l generalizing i with
  | nil => rfl
  | cons a r ih => cases i <;> simp [upd, ih]

theorem upd_getElem?_same (l : List α) (i : Nat) (f : α → α) : (upd l i f)[i]? = l[i]?.map f := by
  induction l generalizing i with
  | nil => simp [upd]
  | cons a r ih => cases i <;> simp [upd, ih]

theorem upd_getElem?_other (l : List α) {i j : Nat} (f : α → α) (h : j ≠ i) : (upd l i f)[j]? = l[j]? := by
  induction l generalizing i j with
  | nil => simp [upd]
  | cons a r ih =>
    cases i with
    | zero => cases j with
      | zero => exact absurd rfl h
      | succ j => simp [upd]
    | succ i => cases j with
      | zero => simp [upd]
      | succ j => simpa [upd] using ih (by omega)

theorem nth_upd_same (d : α) (l : List α) (i : Nat) (f : α → α) (h : i < l.length) : nth d (upd l i f) i = f (nth d l i) := by
  simp [nth, upd_getElem?_same, List.getElem?_eq_getElem h]

theorem nth_upd_other (d : α) (l : List α) {i j : Nat} (f : α → α) (h : j ≠ i) : nth d (upd l i f) j = nth d l j := by
  simp [nth, upd_getElem?_other l f h]

/-- Whatever the list, the element is changed where it exists. -/
theorem nth_upd_fix (d : α) (l : List α) (i : Nat) (f : α → α) (h : f d = d) : nth d (upd l i f) i = f (nth d l i) := by
  by_cases hi : i < l.length
  · exact nth_upd_same d l i f hi
  · have : l[i]? = none := List.getElem?_eq_none (Nat.not_lt.1 hi)
    simp [nth, upd_getElem?_same, this, h]

end Lists

/-! ### Cores, skeins, islands -/

@[simp] theorem State.core_modCore (s : State) (c : Nat) (f : Core → Core) : (s.modCore c f).core c = f (s.core c) :=
  tget_tmod_same _ _ _ _
theorem State.core_modCore_other (s : State) {c d : Nat} (f : Core → Core) (h : d ≠ c) : (s.modCore c f).core d = s.core d :=
  tget_tmod_other _ _ _ h
@[simp] theorem State.modCore_modCore (s : State) (c : Nat) (f g : Core → Core) :
    (s.modCore c f).modCore c g = s.modCore c fun k => g (f k) := by simp [State.modCore]
@[simp] theorem Core.skein_modSkein (k : Core) (n : Nat) (f : Skein → Skein) : (k.modSkein n f).skein n = f (k.skein n) :=
  tget_tmod_same _ _ _ _
theorem Core.skein_modSkein_other (k : Core) {n m : Nat} (f : Skein → Skein) (h : m ≠ n) : (k.modSkein n f).skein m = k.skein m :=
  tget_tmod_other _ _ _ h
@[simp] theorem Core.modSkein_modSkein (k : Core) (n : Nat) (f g : Skein → Skein) :
    (k.modSkein n f).modSkein n g = k.modSkein n fun x => g (f x) := by simp [Core.modSkein]
@[simp] theorem Core.bundle_modBundle (k : Core) (n : Nat) (f : Bundle → Bundle) : (k.modBundle n f).bundle n = f (k.bundle n) :=
  tget_tmod_same _ _ _ _
@[simp] theorem State.skein_modSkein (s : State) (c n : Nat) (f : Skein → Skein) : (s.modSkein c n f).skein c n = f (s.skein c n) := by
  simp [State.skein, State.modSkein]
@[simp] theorem State.modSkein_modSkein (s : State) (c n : Nat) (f g : Skein → Skein) :
    (s.modSkein c n f).modSkein c n g = s.modSkein c n fun x => g (f x) := by simp [State.modSkein]
@[simp] theorem State.island_modIsland (s : State) (i : Nat) (f : Island → Island) : (s.modIsland i f).island i = f (s.island i) :=
  tget_tmod_same _ _ _ _
theorem State.island_modIsland_other (s : State) {i j : Nat} (f : Island → Island) (h : j ≠ i) :
    (s.modIsland i f).island j = s.island j := tget_tmod_other _ _ _ h
@[simp] theorem State.entry_modEntry (s : State) (q : Nat) (f : Entry → Entry) : (s.modEntry q f).entry q = f (s.entry q) :=
  tget_tmod_same _ _ _ _
theorem State.entry_modEntry_other (s : State) {q r : Nat} (f : Entry → Entry) (h : r ≠ q) : (s.modEntry q f).entry r = s.entry r :=
  tget_tmod_other _ _ _ h

end Sys2Proof.Machine
end

