-- ==== Sys2Proof/Laws/Memory.lean ====
section
/-! SUPPORT. The bytes of memory: every operation that changes them keeps the canonical form; a byte read after a write. -/

namespace Sys2Proof.Machine

/-! ### The canonical form -/

theorem writeList_wf (m : SMap Byte) (a : Nat) (bs : List Byte) (h : Memory.wf m = true) : Memory.wf (writeList m a bs) = true := by
  induction bs generalizing m a with
  | nil => exact h
  | cons b r ih => exact ih _ _ (TWf_tset unlisted m a b h)

theorem State.poke_wf (s : State) (a : Nat) (bs : List Byte) (h : Memory.wf s.mem.bytes = true) :
    Memory.wf (s.poke a bs).mem.bytes = true := writeList_wf _ _ _ h

theorem State.setBytes_wf (s : State) (a : Nat) (bs : List Byte) (h : Memory.wf s.mem.bytes = true) :
    Memory.wf (s.setBytes a bs).mem.bytes = true := writeList_wf _ _ _ h

theorem State.zeroRange_wf (s : State) (a n : Nat) (h : Memory.wf s.mem.bytes = true) :
    Memory.wf (s.zeroRange a n).mem.bytes = true := TWf_filter unlisted _ _ h

theorem ite_keeps {α : Type} {P : α → Prop} {c : Prop} [Decidable c] {a b : α} (ha : P a) (hb : P b) : P (if c then a else b) := by
  split <;> assumption

theorem State.rekeyLine_bytes (s : State) (key line : Nat) : (s.rekeyLine key line).mem.bytes =
    if tget 0 s.mem.lineKey line == key then s.mem.bytes else (s.poke (line * 128) (s.keyBytes key (line * 128) 128)).mem.bytes := by
  unfold State.rekeyLine
  generalize s.keyBytes key (line * 128) 128 = bs
  split <;> rfl

theorem State.rekeyLine_wf (s : State) (key line : Nat) (h : Memory.wf s.mem.bytes = true) :
    Memory.wf (s.rekeyLine key line).mem.bytes = true := by
  rw [State.rekeyLine_bytes]
  exact ite_keeps (P := fun m => Memory.wf m = true) h (State.poke_wf s _ _ h)

/-- What holds of a state, and is kept by each step of a walk over a list, holds at its end. -/
theorem State.each_induct {α : Type} {P : State → Prop} (l : List α) (f : State → α → State) (hf : ∀ s a, P s → P (f s a)) :
    ∀ s, P s → P (s.each l f) := by
  unfold State.each
  induction l with
  | nil => exact fun _ h => h
  | cons a r ih => exact fun s h => ih _ (hf s a h)

theorem State.keyPoke_wf (s : State) (key a : Nat) (bs : List Byte) (h : Memory.wf s.mem.bytes = true) :
    Memory.wf (s.keyPoke key a bs).mem.bytes = true :=
  ite_keeps (P := fun t : State => Memory.wf t.mem.bytes = true) (State.poke_wf s a bs h)
    (State.poke_wf _ a bs (State.each_induct (P := fun t => Memory.wf t.mem.bytes = true) _ _
      (fun t l h => State.rekeyLine_wf t key l h) s h))

/-- The memory of a reset module is in the form: nothing is listed. -/
theorem State.reset_wf : Memory.wf State.reset.mem.bytes = true := rfl

/-! ### Reading after writing -/

theorem tget_writeList_other (m : SMap Byte) (a : Nat) (bs : List Byte) {x : Nat} (h : x < a ∨ a + bs.length ≤ x) :
    tget unlisted (writeList m a bs) x = tget unlisted m x := by
  induction bs generalizing m a with
  | nil => rfl
  | cons b r ih =>
    have hl : (b :: r).length = r.length + 1 := rfl
    unfold writeList
    rw [ih _ _ (by omega), tget_tset_other unlisted m b (by omega)]

theorem tget_writeList (m : SMap Byte) (a : Nat) (bs : List Byte) (i : Nat) (h : i < bs.length) :
    tget unlisted (writeList m a bs) (a + i) = bs[i] := by
  induction bs generalizing m a i with
  | nil => exact absurd h (Nat.not_lt_zero i)
  | cons b r ih =>
    unfold writeList
    cases i with
    | zero => rw [tget_writeList_other _ _ _ (by omega)]; exact tget_tset_same unlisted m a b
    | succ i =>
      have := ih (tset unlisted m a b) (a + 1) i (Nat.lt_of_succ_lt_succ h)
      rwa [show a + 1 + i = a + (i + 1) from by omega] at this

/-- Every address outside a write reads as before, where the scratch it lies in holds a defined state. -/
theorem State.byteAt_poke_other (s : State) (a : Nat) (bs : List Byte) {x : Nat} (h : x < a ∨ a + bs.length ≤ x)
    (hs : isScratch x = true → (s.core (scratchCore x)).lostScratch = none) : (s.poke a bs).byteAt x = s.byteAt x := by
  have hc : (s.poke a bs).core (scratchCore x) = s.core (scratchCore x) := rfl
  unfold State.byteAt
  rw [hc]
  have e : (if isScratch x = true then (s.core (scratchCore x)).lostScratch else none) = none := by
    split
    · next h => exact hs h
    · rfl
  rw [e]
  exact tget_writeList_other _ _ _ h

end Sys2Proof.Machine
end

