-- ==== Sys2Proof/Laws/Ops.lean ====
section
/-! SUPPORT. What the shared operations of Machine/Ops.lean leave: an error record touches the logs, the counters of records, and
what leaves the module; an MSI-X event only what leaves through the host interface. -/

namespace Sys2Proof.Machine

@[simp] theorem State.when_true (s : State) (f : State → State) : s.when true f = f s := rfl
@[simp] theorem State.when_false (s : State) (f : State → State) : s.when false f = s := rfl

/-- A guarded change keeps what the change keeps. -/
theorem State.when_keeps {α : Type} (p : State → α) (s : State) (b : Bool) (f : State → State) (h : p (f s) = p s) :
    p (s.when b f) = p s := by cases b <;> simp [h]

/-- Changes made for every element of a list keep what each keeps. -/
theorem State.each_keeps {α β : Type} (p : State → β) (l : List α) (f : State → α → State) (h : ∀ s a, p (f s a) = p s) (s : State) :
    p (s.each l f) = p s := by
  unfold State.each
  induction l generalizing s with
  | nil => rfl
  | cons a r ih => rw [List.foldl_cons, ih, h]

/-! ## MSI-X messages: out of the module, and their hold-off -/

theorem State.msix_changes (s : State) (fn v : Nat) :
    ∃ o m, s.msix fn v = { s with hif := { s.hif with out := o, msix := m } } := by
  unfold State.msix
  dsimp only
  repeat' split
  all_goals exact ⟨_, _, rfl⟩

@[simp] theorem State.msix_pending (s : State) (fn v : Nat) : (s.msix fn v).pending = s.pending := by
  obtain ⟨_, _, h⟩ := s.msix_changes fn v; rw [h]
@[simp] theorem State.msix_time (s : State) (fn v : Nat) : (s.msix fn v).time = s.time := by
  obtain ⟨_, _, h⟩ := s.msix_changes fn v; rw [h]
@[simp] theorem State.msix_cores (s : State) (fn v : Nat) : (s.msix fn v).cores = s.cores := by
  obtain ⟨_, _, h⟩ := s.msix_changes fn v; rw [h]
@[simp] theorem State.msix_mem (s : State) (fn v : Nat) : (s.msix fn v).mem = s.mem := by
  obtain ⟨_, _, h⟩ := s.msix_changes fn v; rw [h]
@[simp] theorem State.msix_ob (s : State) (fn v : Nat) : (s.msix fn v).ob = s.ob := by
  obtain ⟨_, _, h⟩ := s.msix_changes fn v; rw [h]
@[simp] theorem State.msix_ptn (s : State) (fn v : Nat) : (s.msix fn v).ptn = s.ptn := by
  obtain ⟨_, _, h⟩ := s.msix_changes fn v; rw [h]
@[simp] theorem State.msix_thm (s : State) (fn v : Nat) : (s.msix fn v).thm = s.thm := by
  obtain ⟨_, _, h⟩ := s.msix_changes fn v; rw [h]
@[simp] theorem State.msix_wlk (s : State) (fn v : Nat) : (s.msix fn v).wlk = s.wlk := by
  obtain ⟨_, _, h⟩ := s.msix_changes fn v; rw [h]
@[simp] theorem State.msix_seam (s : State) (fn v : Nat) : (s.msix fn v).seam = s.seam := by
  obtain ⟨_, _, h⟩ := s.msix_changes fn v; rw [h]
@[simp] theorem State.msix_islands (s : State) (fn v : Nat) : (s.msix fn v).islands = s.islands := by
  obtain ⟨_, _, h⟩ := s.msix_changes fn v; rw [h]
@[simp] theorem State.msix_pwr (s : State) (fn v : Nat) : (s.msix fn v).pwr = s.pwr := by
  obtain ⟨_, _, h⟩ := s.msix_changes fn v; rw [h]
@[simp] theorem State.msix_cal (s : State) (fn v : Nat) : (s.msix fn v).cal = s.cal := by
  obtain ⟨_, _, h⟩ := s.msix_changes fn v; rw [h]
@[simp] theorem State.msix_msr (s : State) (fn v : Nat) : (s.msix fn v).msr = s.msr := by
  obtain ⟨_, _, h⟩ := s.msix_changes fn v; rw [h]
@[simp] theorem State.msix_err (s : State) (fn v : Nat) : (s.msix fn v).err = s.err := by
  obtain ⟨_, _, h⟩ := s.msix_changes fn v; rw [h]
@[simp] theorem State.msix_boot (s : State) (fn v : Nat) : (s.msix fn v).boot = s.boot := by
  obtain ⟨_, _, h⟩ := s.msix_changes fn v; rw [h]
@[simp] theorem State.msix_mgmt (s : State) (fn v : Nat) : (s.msix fn v).mgmt = s.mgmt := by
  obtain ⟨_, _, h⟩ := s.msix_changes fn v; rw [h]
@[simp] theorem State.msix_tap (s : State) (fn v : Nat) : (s.msix fn v).tap = s.tap := by
  obtain ⟨_, _, h⟩ := s.msix_changes fn v; rw [h]
@[simp] theorem State.msix_hif_fns (s : State) (fn v : Nat) : (s.msix fn v).hif.fns = s.hif.fns := by
  obtain ⟨_, _, h⟩ := s.msix_changes fn v; rw [h]
@[simp] theorem State.msix_hif_win (s : State) (fn v : Nat) : (s.msix fn v).hif.win = s.hif.win := by
  obtain ⟨_, _, h⟩ := s.msix_changes fn v; rw [h]
@[simp] theorem State.msix_hif_bar2Base (s : State) (fn v : Nat) : (s.msix fn v).hif.bar2Base = s.hif.bar2Base := by
  obtain ⟨_, _, h⟩ := s.msix_changes fn v; rw [h]
@[simp] theorem State.msix_hif_bar2Size (s : State) (fn v : Nat) : (s.msix fn v).hif.bar2Size = s.hif.bar2Size := by
  obtain ⟨_, _, h⟩ := s.msix_changes fn v; rw [h]
@[simp] theorem State.msix_hif_vfBar2Size (s : State) (fn v : Nat) : (s.msix fn v).hif.vfBar2Size = s.hif.vfBar2Size := by
  obtain ⟨_, _, h⟩ := s.msix_changes fn v; rw [h]
@[simp] theorem State.msix_hif_inbox (s : State) (fn v : Nat) : (s.msix fn v).hif.inbox = s.hif.inbox := by
  obtain ⟨_, _, h⟩ := s.msix_changes fn v; rw [h]
@[simp] theorem State.msix_hif_cmds (s : State) (fn v : Nat) : (s.msix fn v).hif.cmds = s.hif.cmds := by
  obtain ⟨_, _, h⟩ := s.msix_changes fn v; rw [h]
@[simp] theorem State.msix_hif_ide (s : State) (fn v : Nat) : (s.msix fn v).hif.ide = s.hif.ide := by
  obtain ⟨_, _, h⟩ := s.msix_changes fn v; rw [h]
@[simp] theorem State.msix_hif_configReady (s : State) (fn v : Nat) : (s.msix fn v).hif.configReady = s.hif.configReady := by
  obtain ⟨_, _, h⟩ := s.msix_changes fn v; rw [h]

theorem State.bitMsix_changes (s : State) (fn : Nat) :
    ∃ o m, s.bitMsix fn = { s with hif := { s.hif with out := o, msix := m } } := by
  obtain ⟨o, m, h⟩ := s.msix_changes 0 7
  unfold State.bitMsix
  rw [h]
  dsimp only
  split
  · exact ⟨_, _, rfl⟩
  · unfold State.when
    split
    · obtain ⟨o', m', h'⟩ := State.msix_changes { s with hif := { s.hif with out := o, msix := m } } fn 0
      exact ⟨o', m', h'⟩
    · exact ⟨_, _, rfl⟩

theorem State.fnEvent_changes (s : State) (fn : Nat) (b : FnBit) :
    ∃ f o m, s.fnEvent fn b = { s with hif := { s.hif with fns := f, out := o, msix := m } } := by
  unfold State.fnEvent
  split
  · exact ⟨_, _, _, rfl⟩
  · obtain ⟨o, m, h⟩ := State.bitMsix_changes (s.modFn fn fun f => f.setBit b) fn
    exact ⟨_, o, m, h⟩

theorem State.partEvent_changes (s : State) (p : Nat) (b : FnBit) :
    ∃ f o m, s.partEvent p b = { s with hif := { s.hif with fns := f, out := o, msix := m } } := by
  unfold State.partEvent
  obtain ⟨f, o, m, h⟩ := s.fnEvent_changes (p + 1) b
  obtain ⟨f', o', m', h'⟩ := State.fnEvent_changes (s.fnEvent (p + 1) b) 0 b
  rw [h', h]
  exact ⟨f', o', m', rfl⟩

@[simp] theorem State.bitMsix_pending (s : State) (fn : Nat) : (s.bitMsix fn).pending = s.pending := by
  obtain ⟨_, _, h⟩ := s.bitMsix_changes fn; rw [h]
@[simp] theorem State.bitMsix_time (s : State) (fn : Nat) : (s.bitMsix fn).time = s.time := by
  obtain ⟨_, _, h⟩ := s.bitMsix_changes fn; rw [h]
@[simp] theorem State.bitMsix_cores (s : State) (fn : Nat) : (s.bitMsix fn).cores = s.cores := by
  obtain ⟨_, _, h⟩ := s.bitMsix_changes fn; rw [h]
@[simp] theorem State.bitMsix_mem (s : State) (fn : Nat) : (s.bitMsix fn).mem = s.mem := by
  obtain ⟨_, _, h⟩ := s.bitMsix_changes fn; rw [h]
@[simp] theorem State.bitMsix_ob (s : State) (fn : Nat) : (s.bitMsix fn).ob = s.ob := by
  obtain ⟨_, _, h⟩ := s.bitMsix_changes fn; rw [h]
@[simp] theorem State.bitMsix_ptn (s : State) (fn : Nat) : (s.bitMsix fn).ptn = s.ptn := by
  obtain ⟨_, _, h⟩ := s.bitMsix_changes fn; rw [h]
@[simp] theorem State.bitMsix_thm (s : State) (fn : Nat) : (s.bitMsix fn).thm = s.thm := by
  obtain ⟨_, _, h⟩ := s.bitMsix_changes fn; rw [h]
@[simp] theorem State.bitMsix_wlk (s : State) (fn : Nat) : (s.bitMsix fn).wlk = s.wlk := by
  obtain ⟨_, _, h⟩ := s.bitMsix_changes fn; rw [h]
@[simp] theorem State.bitMsix_seam (s : State) (fn : Nat) : (s.bitMsix fn).seam = s.seam := by
  obtain ⟨_, _, h⟩ := s.bitMsix_changes fn; rw [h]
@[simp] theorem State.bitMsix_islands (s : State) (fn : Nat) : (s.bitMsix fn).islands = s.islands := by
  obtain ⟨_, _, h⟩ := s.bitMsix_changes fn; rw [h]
@[simp] theorem State.bitMsix_pwr (s : State) (fn : Nat) : (s.bitMsix fn).pwr = s.pwr := by
  obtain ⟨_, _, h⟩ := s.bitMsix_changes fn; rw [h]
@[simp] theorem State.bitMsix_cal (s : State) (fn : Nat) : (s.bitMsix fn).cal = s.cal := by
  obtain ⟨_, _, h⟩ := s.bitMsix_changes fn; rw [h]
@[simp] theorem State.bitMsix_msr (s : State) (fn : Nat) : (s.bitMsix fn).msr = s.msr := by
  obtain ⟨_, _, h⟩ := s.bitMsix_changes fn; rw [h]
@[simp] theorem State.bitMsix_err (s : State) (fn : Nat) : (s.bitMsix fn).err = s.err := by
  obtain ⟨_, _, h⟩ := s.bitMsix_changes fn; rw [h]
@[simp] theorem State.bitMsix_boot (s : State) (fn : Nat) : (s.bitMsix fn).boot = s.boot := by
  obtain ⟨_, _, h⟩ := s.bitMsix_changes fn; rw [h]
@[simp] theorem State.bitMsix_mgmt (s : State) (fn : Nat) : (s.bitMsix fn).mgmt = s.mgmt := by
  obtain ⟨_, _, h⟩ := s.bitMsix_changes fn; rw [h]
@[simp] theorem State.bitMsix_tap (s : State) (fn : Nat) : (s.bitMsix fn).tap = s.tap := by
  obtain ⟨_, _, h⟩ := s.bitMsix_changes fn; rw [h]
@[simp] theorem State.bitMsix_hif_fns (s : State) (fn : Nat) : (s.bitMsix fn).hif.fns = s.hif.fns := by
  obtain ⟨_, _, h⟩ := s.bitMsix_changes fn; rw [h]
@[simp] theorem State.bitMsix_hif_win (s : State) (fn : Nat) : (s.bitMsix fn).hif.win = s.hif.win := by
  obtain ⟨_, _, h⟩ := s.bitMsix_changes fn; rw [h]
@[simp] theorem State.bitMsix_hif_bar2Base (s : State) (fn : Nat) : (s.bitMsix fn).hif.bar2Base = s.hif.bar2Base := by
  obtain ⟨_, _, h⟩ := s.bitMsix_changes fn; rw [h]
@[simp] theorem State.bitMsix_hif_bar2Size (s : State) (fn : Nat) : (s.bitMsix fn).hif.bar2Size = s.hif.bar2Size := by
  obtain ⟨_, _, h⟩ := s.bitMsix_changes fn; rw [h]
@[simp] theorem State.bitMsix_hif_vfBar2Size (s : State) (fn : Nat) : (s.bitMsix fn).hif.vfBar2Size = s.hif.vfBar2Size := by
  obtain ⟨_, _, h⟩ := s.bitMsix_changes fn; rw [h]
@[simp] theorem State.bitMsix_hif_inbox (s : State) (fn : Nat) : (s.bitMsix fn).hif.inbox = s.hif.inbox := by
  obtain ⟨_, _, h⟩ := s.bitMsix_changes fn; rw [h]
@[simp] theorem State.bitMsix_hif_cmds (s : State) (fn : Nat) : (s.bitMsix fn).hif.cmds = s.hif.cmds := by
  obtain ⟨_, _, h⟩ := s.bitMsix_changes fn; rw [h]
@[simp] theorem State.bitMsix_hif_ide (s : State) (fn : Nat) : (s.bitMsix fn).hif.ide = s.hif.ide := by
  obtain ⟨_, _, h⟩ := s.bitMsix_changes fn; rw [h]
@[simp] theorem State.bitMsix_hif_configReady (s : State) (fn : Nat) : (s.bitMsix fn).hif.configReady = s.hif.configReady := by
  obtain ⟨_, _, h⟩ := s.bitMsix_changes fn; rw [h]

@[simp] theorem State.fnEvent_pending (s : State) (fn : Nat) (b : FnBit) : (s.fnEvent fn b).pending = s.pending := by
  obtain ⟨_, _, _, h⟩ := s.fnEvent_changes fn b; rw [h]
@[simp] theorem State.fnEvent_time (s : State) (fn : Nat) (b : FnBit) : (s.fnEvent fn b).time = s.time := by
  obtain ⟨_, _, _, h⟩ := s.fnEvent_changes fn b; rw [h]
@[simp] theorem State.fnEvent_cores (s : State) (fn : Nat) (b : FnBit) : (s.fnEvent fn b).cores = s.cores := by
  obtain ⟨_, _, _, h⟩ := s.fnEvent_changes fn b; rw [h]
@[simp] theorem State.fnEvent_mem (s : State) (fn : Nat) (b : FnBit) : (s.fnEvent fn b).mem = s.mem := by
  obtain ⟨_, _, _, h⟩ := s.fnEvent_changes fn b; rw [h]
@[simp] theorem State.fnEvent_ob (s : State) (fn : Nat) (b : FnBit) : (s.fnEvent fn b).ob = s.ob := by
  obtain ⟨_, _, _, h⟩ := s.fnEvent_changes fn b; rw [h]
@[simp] theorem State.fnEvent_ptn (s : State) (fn : Nat) (b : FnBit) : (s.fnEvent fn b).ptn = s.ptn := by
  obtain ⟨_, _, _, h⟩ := s.fnEvent_changes fn b; rw [h]
@[simp] theorem State.fnEvent_thm (s : State) (fn : Nat) (b : FnBit) : (s.fnEvent fn b).thm = s.thm := by
  obtain ⟨_, _, _, h⟩ := s.fnEvent_changes fn b; rw [h]
@[simp] theorem State.fnEvent_wlk (s : State) (fn : Nat) (b : FnBit) : (s.fnEvent fn b).wlk = s.wlk := by
  obtain ⟨_, _, _, h⟩ := s.fnEvent_changes fn b; rw [h]
@[simp] theorem State.fnEvent_seam (s : State) (fn : Nat) (b : FnBit) : (s.fnEvent fn b).seam = s.seam := by
  obtain ⟨_, _, _, h⟩ := s.fnEvent_changes fn b; rw [h]
@[simp] theorem State.fnEvent_islands (s : State) (fn : Nat) (b : FnBit) : (s.fnEvent fn b).islands = s.islands := by
  obtain ⟨_, _, _, h⟩ := s.fnEvent_changes fn b; rw [h]
@[simp] theorem State.fnEvent_pwr (s : State) (fn : Nat) (b : FnBit) : (s.fnEvent fn b).pwr = s.pwr := by
  obtain ⟨_, _, _, h⟩ := s.fnEvent_changes fn b; rw [h]
@[simp] theorem State.fnEvent_cal (s : State) (fn : Nat) (b : FnBit) : (s.fnEvent fn b).cal = s.cal := by
  obtain ⟨_, _, _, h⟩ := s.fnEvent_changes fn b; rw [h]
@[simp] theorem State.fnEvent_msr (s : State) (fn : Nat) (b : FnBit) : (s.fnEvent fn b).msr = s.msr := by
  obtain ⟨_, _, _, h⟩ := s.fnEvent_changes fn b; rw [h]
@[simp] theorem State.fnEvent_err (s : State) (fn : Nat) (b : FnBit) : (s.fnEvent fn b).err = s.err := by
  obtain ⟨_, _, _, h⟩ := s.fnEvent_changes fn b; rw [h]
@[simp] theorem State.fnEvent_boot (s : State) (fn : Nat) (b : FnBit) : (s.fnEvent fn b).boot = s.boot := by
  obtain ⟨_, _, _, h⟩ := s.fnEvent_changes fn b; rw [h]
@[simp] theorem State.fnEvent_mgmt (s : State) (fn : Nat) (b : FnBit) : (s.fnEvent fn b).mgmt = s.mgmt := by
  obtain ⟨_, _, _, h⟩ := s.fnEvent_changes fn b; rw [h]
@[simp] theorem State.fnEvent_tap (s : State) (fn : Nat) (b : FnBit) : (s.fnEvent fn b).tap = s.tap := by
  obtain ⟨_, _, _, h⟩ := s.fnEvent_changes fn b; rw [h]
@[simp] theorem State.fnEvent_hif_win (s : State) (fn : Nat) (b : FnBit) : (s.fnEvent fn b).hif.win = s.hif.win := by
  obtain ⟨_, _, _, h⟩ := s.fnEvent_changes fn b; rw [h]
@[simp] theorem State.fnEvent_hif_bar2Base (s : State) (fn : Nat) (b : FnBit) : (s.fnEvent fn b).hif.bar2Base = s.hif.bar2Base := by
  obtain ⟨_, _, _, h⟩ := s.fnEvent_changes fn b; rw [h]
@[simp] theorem State.fnEvent_hif_bar2Size (s : State) (fn : Nat) (b : FnBit) : (s.fnEvent fn b).hif.bar2Size = s.hif.bar2Size := by
  obtain ⟨_, _, _, h⟩ := s.fnEvent_changes fn b; rw [h]
@[simp] theorem State.fnEvent_hif_vfBar2Size (s : State) (fn : Nat) (b : FnBit) : (s.fnEvent fn b).hif.vfBar2Size = s.hif.vfBar2Size := by
  obtain ⟨_, _, _, h⟩ := s.fnEvent_changes fn b; rw [h]
@[simp] theorem State.fnEvent_hif_inbox (s : State) (fn : Nat) (b : FnBit) : (s.fnEvent fn b).hif.inbox = s.hif.inbox := by
  obtain ⟨_, _, _, h⟩ := s.fnEvent_changes fn b; rw [h]
@[simp] theorem State.fnEvent_hif_cmds (s : State) (fn : Nat) (b : FnBit) : (s.fnEvent fn b).hif.cmds = s.hif.cmds := by
  obtain ⟨_, _, _, h⟩ := s.fnEvent_changes fn b; rw [h]
@[simp] theorem State.fnEvent_hif_ide (s : State) (fn : Nat) (b : FnBit) : (s.fnEvent fn b).hif.ide = s.hif.ide := by
  obtain ⟨_, _, _, h⟩ := s.fnEvent_changes fn b; rw [h]
@[simp] theorem State.fnEvent_hif_configReady (s : State) (fn : Nat) (b : FnBit) : (s.fnEvent fn b).hif.configReady = s.hif.configReady := by
  obtain ⟨_, _, _, h⟩ := s.fnEvent_changes fn b; rw [h]

@[simp] theorem State.partEvent_pending (s : State) (p : Nat) (b : FnBit) : (s.partEvent p b).pending = s.pending := by
  obtain ⟨_, _, _, h⟩ := s.partEvent_changes p b; rw [h]
@[simp] theorem State.partEvent_time (s : State) (p : Nat) (b : FnBit) : (s.partEvent p b).time = s.time := by
  obtain ⟨_, _, _, h⟩ := s.partEvent_changes p b; rw [h]
@[simp] theorem State.partEvent_cores (s : State) (p : Nat) (b : FnBit) : (s.partEvent p b).cores = s.cores := by
  obtain ⟨_, _, _, h⟩ := s.partEvent_changes p b; rw [h]
@[simp] theorem State.partEvent_mem (s : State) (p : Nat) (b : FnBit) : (s.partEvent p b).mem = s.mem := by
  obtain ⟨_, _, _, h⟩ := s.partEvent_changes p b; rw [h]
@[simp] theorem State.partEvent_ob (s : State) (p : Nat) (b : FnBit) : (s.partEvent p b).ob = s.ob := by
  obtain ⟨_, _, _, h⟩ := s.partEvent_changes p b; rw [h]
@[simp] theorem State.partEvent_ptn (s : State) (p : Nat) (b : FnBit) : (s.partEvent p b).ptn = s.ptn := by
  obtain ⟨_, _, _, h⟩ := s.partEvent_changes p b; rw [h]
@[simp] theorem State.partEvent_thm (s : State) (p : Nat) (b : FnBit) : (s.partEvent p b).thm = s.thm := by
  obtain ⟨_, _, _, h⟩ := s.partEvent_changes p b; rw [h]
@[simp] theorem State.partEvent_wlk (s : State) (p : Nat) (b : FnBit) : (s.partEvent p b).wlk = s.wlk := by
  obtain ⟨_, _, _, h⟩ := s.partEvent_changes p b; rw [h]
@[simp] theorem State.partEvent_seam (s : State) (p : Nat) (b : FnBit) : (s.partEvent p b).seam = s.seam := by
  obtain ⟨_, _, _, h⟩ := s.partEvent_changes p b; rw [h]
@[simp] theorem State.partEvent_islands (s : State) (p : Nat) (b : FnBit) : (s.partEvent p b).islands = s.islands := by
  obtain ⟨_, _, _, h⟩ := s.partEvent_changes p b; rw [h]
@[simp] theorem State.partEvent_pwr (s : State) (p : Nat) (b : FnBit) : (s.partEvent p b).pwr = s.pwr := by
  obtain ⟨_, _, _, h⟩ := s.partEvent_changes p b; rw [h]
@[simp] theorem State.partEvent_cal (s : State) (p : Nat) (b : FnBit) : (s.partEvent p b).cal = s.cal := by
  obtain ⟨_, _, _, h⟩ := s.partEvent_changes p b; rw [h]
@[simp] theorem State.partEvent_msr (s : State) (p : Nat) (b : FnBit) : (s.partEvent p b).msr = s.msr := by
  obtain ⟨_, _, _, h⟩ := s.partEvent_changes p b; rw [h]
@[simp] theorem State.partEvent_err (s : State) (p : Nat) (b : FnBit) : (s.partEvent p b).err = s.err := by
  obtain ⟨_, _, _, h⟩ := s.partEvent_changes p b; rw [h]
@[simp] theorem State.partEvent_boot (s : State) (p : Nat) (b : FnBit) : (s.partEvent p b).boot = s.boot := by
  obtain ⟨_, _, _, h⟩ := s.partEvent_changes p b; rw [h]
@[simp] theorem State.partEvent_mgmt (s : State) (p : Nat) (b : FnBit) : (s.partEvent p b).mgmt = s.mgmt := by
  obtain ⟨_, _, _, h⟩ := s.partEvent_changes p b; rw [h]
@[simp] theorem State.partEvent_tap (s : State) (p : Nat) (b : FnBit) : (s.partEvent p b).tap = s.tap := by
  obtain ⟨_, _, _, h⟩ := s.partEvent_changes p b; rw [h]
@[simp] theorem State.partEvent_hif_win (s : State) (p : Nat) (b : FnBit) : (s.partEvent p b).hif.win = s.hif.win := by
  obtain ⟨_, _, _, h⟩ := s.partEvent_changes p b; rw [h]
@[simp] theorem State.partEvent_hif_bar2Base (s : State) (p : Nat) (b : FnBit) : (s.partEvent p b).hif.bar2Base = s.hif.bar2Base := by
  obtain ⟨_, _, _, h⟩ := s.partEvent_changes p b; rw [h]
@[simp] theorem State.partEvent_hif_bar2Size (s : State) (p : Nat) (b : FnBit) : (s.partEvent p b).hif.bar2Size = s.hif.bar2Size := by
  obtain ⟨_, _, _, h⟩ := s.partEvent_changes p b; rw [h]
@[simp] theorem State.partEvent_hif_vfBar2Size (s : State) (p : Nat) (b : FnBit) : (s.partEvent p b).hif.vfBar2Size = s.hif.vfBar2Size := by
  obtain ⟨_, _, _, h⟩ := s.partEvent_changes p b; rw [h]
@[simp] theorem State.partEvent_hif_inbox (s : State) (p : Nat) (b : FnBit) : (s.partEvent p b).hif.inbox = s.hif.inbox := by
  obtain ⟨_, _, _, h⟩ := s.partEvent_changes p b; rw [h]
@[simp] theorem State.partEvent_hif_cmds (s : State) (p : Nat) (b : FnBit) : (s.partEvent p b).hif.cmds = s.hif.cmds := by
  obtain ⟨_, _, _, h⟩ := s.partEvent_changes p b; rw [h]
@[simp] theorem State.partEvent_hif_ide (s : State) (p : Nat) (b : FnBit) : (s.partEvent p b).hif.ide = s.hif.ide := by
  obtain ⟨_, _, _, h⟩ := s.partEvent_changes p b; rw [h]
@[simp] theorem State.partEvent_hif_configReady (s : State) (p : Nat) (b : FnBit) : (s.partEvent p b).hif.configReady = s.hif.configReady := by
  obtain ⟨_, _, _, h⟩ := s.partEvent_changes p b; rw [h]

/-! ## Error records -/

theorem State.platformEvent_changes (s : State) (n : Nat) (r : Int) :
    ∃ o, s.platformEvent n r = { s with mgmt := { s.mgmt with out := o } } := by
  unfold State.platformEvent
  split
  · exact ⟨_, rfl⟩
  · exact ⟨_, rfl⟩

@[simp] theorem State.platformEvent_pending (s : State) (n : Nat) (r : Int) : (s.platformEvent n r).pending = s.pending := by
  obtain ⟨_, h⟩ := s.platformEvent_changes n r; rw [h]
@[simp] theorem State.platformEvent_time (s : State) (n : Nat) (r : Int) : (s.platformEvent n r).time = s.time := by
  obtain ⟨_, h⟩ := s.platformEvent_changes n r; rw [h]
@[simp] theorem State.platformEvent_cores (s : State) (n : Nat) (r : Int) : (s.platformEvent n r).cores = s.cores := by
  obtain ⟨_, h⟩ := s.platformEvent_changes n r; rw [h]
@[simp] theorem State.platformEvent_mem (s : State) (n : Nat) (r : Int) : (s.platformEvent n r).mem = s.mem := by
  obtain ⟨_, h⟩ := s.platformEvent_changes n r; rw [h]
@[simp] theorem State.platformEvent_ob (s : State) (n : Nat) (r : Int) : (s.platformEvent n r).ob = s.ob := by
  obtain ⟨_, h⟩ := s.platformEvent_changes n r; rw [h]
@[simp] theorem State.platformEvent_hif (s : State) (n : Nat) (r : Int) : (s.platformEvent n r).hif = s.hif := by
  obtain ⟨_, h⟩ := s.platformEvent_changes n r; rw [h]
@[simp] theorem State.platformEvent_ptn (s : State) (n : Nat) (r : Int) : (s.platformEvent n r).ptn = s.ptn := by
  obtain ⟨_, h⟩ := s.platformEvent_changes n r; rw [h]
@[simp] theorem State.platformEvent_thm (s : State) (n : Nat) (r : Int) : (s.platformEvent n r).thm = s.thm := by
  obtain ⟨_, h⟩ := s.platformEvent_changes n r; rw [h]
@[simp] theorem State.platformEvent_wlk (s : State) (n : Nat) (r : Int) : (s.platformEvent n r).wlk = s.wlk := by
  obtain ⟨_, h⟩ := s.platformEvent_changes n r; rw [h]
@[simp] theorem State.platformEvent_seam (s : State) (n : Nat) (r : Int) : (s.platformEvent n r).seam = s.seam := by
  obtain ⟨_, h⟩ := s.platformEvent_changes n r; rw [h]
@[simp] theorem State.platformEvent_islands (s : State) (n : Nat) (r : Int) : (s.platformEvent n r).islands = s.islands := by
  obtain ⟨_, h⟩ := s.platformEvent_changes n r; rw [h]
@[simp] theorem State.platformEvent_pwr (s : State) (n : Nat) (r : Int) : (s.platformEvent n r).pwr = s.pwr := by
  obtain ⟨_, h⟩ := s.platformEvent_changes n r; rw [h]
@[simp] theorem State.platformEvent_cal (s : State) (n : Nat) (r : Int) : (s.platformEvent n r).cal = s.cal := by
  obtain ⟨_, h⟩ := s.platformEvent_changes n r; rw [h]
@[simp] theorem State.platformEvent_msr (s : State) (n : Nat) (r : Int) : (s.platformEvent n r).msr = s.msr := by
  obtain ⟨_, h⟩ := s.platformEvent_changes n r; rw [h]
@[simp] theorem State.platformEvent_err (s : State) (n : Nat) (r : Int) : (s.platformEvent n r).err = s.err := by
  obtain ⟨_, h⟩ := s.platformEvent_changes n r; rw [h]
@[simp] theorem State.platformEvent_boot (s : State) (n : Nat) (r : Int) : (s.platformEvent n r).boot = s.boot := by
  obtain ⟨_, h⟩ := s.platformEvent_changes n r; rw [h]
@[simp] theorem State.platformEvent_tap (s : State) (n : Nat) (r : Int) : (s.platformEvent n r).tap = s.tap := by
  obtain ⟨_, h⟩ := s.platformEvent_changes n r; rw [h]
@[simp] theorem State.platformEvent_mgmt_dynAddr (s : State) (n : Nat) (r : Int) : (s.platformEvent n r).mgmt.dynAddr = s.mgmt.dynAddr := by
  obtain ⟨_, h⟩ := s.platformEvent_changes n r; rw [h]
@[simp] theorem State.platformEvent_mgmt_strap (s : State) (n : Nat) (r : Int) : (s.platformEvent n r).mgmt.strap = s.mgmt.strap := by
  obtain ⟨_, h⟩ := s.platformEvent_changes n r; rw [h]
@[simp] theorem State.platformEvent_mgmt_eid (s : State) (n : Nat) (r : Int) : (s.platformEvent n r).mgmt.eid = s.mgmt.eid := by
  obtain ⟨_, h⟩ := s.platformEvent_changes n r; rw [h]
@[simp] theorem State.platformEvent_mgmt_receiver (s : State) (n : Nat) (r : Int) : (s.platformEvent n r).mgmt.receiver = s.mgmt.receiver := by
  obtain ⟨_, h⟩ := s.platformEvent_changes n r; rw [h]
@[simp] theorem State.platformEvent_mgmt_update (s : State) (n : Nat) (r : Int) : (s.platformEvent n r).mgmt.update = s.mgmt.update := by
  obtain ⟨_, h⟩ := s.platformEvent_changes n r; rw [h]
@[simp] theorem State.platformEvent_mgmt_second (s : State) (n : Nat) (r : Int) : (s.platformEvent n r).mgmt.second = s.mgmt.second := by
  obtain ⟨_, h⟩ := s.platformEvent_changes n r; rw [h]
@[simp] theorem State.platformEvent_mgmt_count (s : State) (n : Nat) (r : Int) : (s.platformEvent n r).mgmt.count = s.mgmt.count := by
  obtain ⟨_, h⟩ := s.platformEvent_changes n r; rw [h]
@[simp] theorem State.platformEvent_mgmt_readings (s : State) (n : Nat) (r : Int) : (s.platformEvent n r).mgmt.readings = s.mgmt.readings := by
  obtain ⟨_, h⟩ := s.platformEvent_changes n r; rw [h]
@[simp] theorem State.platformEvent_mgmt_bands (s : State) (n : Nat) (r : Int) : (s.platformEvent n r).mgmt.bands = s.mgmt.bands := by
  obtain ⟨_, h⟩ := s.platformEvent_changes n r; rw [h]

/-- What writing a record can change: the logs, the always-on counters of records, what the partitions and the host interface
keep of it, and what the management controller sends. -/
def State.Recorded (s t : State) : Prop :=
  ∃ e a p o m g, t = { s with
    err := e, msr := { s.msr with aon := a }, ptn := p, hif := { s.hif with out := o, msix := m }, mgmt := { s.mgmt with out := g } }

theorem State.Recorded.rfl' (s : State) : s.Recorded s := ⟨_, _, _, _, _, _, rfl⟩

theorem State.Recorded.trans {s t u : State} (h : s.Recorded t) (k : t.Recorded u) : s.Recorded u := by
  obtain ⟨e, a, p, o, m, g, rfl⟩ := h
  obtain ⟨e', a', p', o', m', g', rfl⟩ := k
  exact ⟨e', a', p', o', m', g', rfl⟩

theorem State.recorded_msix (s : State) (fn v : Nat) : s.Recorded (s.msix fn v) := by
  obtain ⟨o, m, h⟩ := s.msix_changes fn v
  exact ⟨_, _, _, o, m, _, h⟩
theorem State.recorded_aon (s : State) (r i k : Nat) : s.Recorded (s.aonAdd r i k) := ⟨_, _, _, _, _, _, rfl⟩
theorem State.recorded_err (s : State) (f : ErrSt → ErrSt) : s.Recorded (s.modErr f) := ⟨_, _, _, _, _, _, rfl⟩
theorem State.recorded_part (s : State) (p : Nat) (f : Ptn → Ptn) : s.Recorded (s.modPart p f) := ⟨_, _, _, _, _, _, rfl⟩
theorem State.recorded_event (s : State) (n : Nat) (r : Int) : s.Recorded (s.platformEvent n r) := by
  obtain ⟨o, h⟩ := s.platformEvent_changes n r
  exact ⟨_, _, _, _, _, o, h⟩
theorem State.recorded_when (s : State) (b : Bool) (f : State → State) (h : s.Recorded (f s)) : s.Recorded (s.when b f) := by
  cases b
  · exact State.Recorded.rfl' s
  · exact h

/-- The messages of a record's class. -/
theorem State.recorded_messages (s : State) (cls : RecCls) (r : ErrRec) : s.Recorded (match cls with
    | .corrected => s
    | .absorbed | .contained => s.msix 0 1
    | .partition =>
      let s := s.msix 0 0
      if r.part < 16 then
        (s.modPart r.part fun x => { x with ptnRecords := satAdd x.ptnRecords 1 }).when (s.fn (r.part + 1)).enabled fun s => s.msix (r.part + 1) 1
      else s
    | .module => s.msix 0 0) := by
  cases cls
  · exact State.Recorded.rfl' _
  · exact State.recorded_msix _ _ _
  · exact State.recorded_msix _ _ _
  · dsimp only
    refine (State.recorded_msix s 0 0).trans ?_
    split
    · exact (State.recorded_part _ _ _).trans (State.recorded_when _ _ _ (State.recorded_msix _ _ _))
    · exact State.Recorded.rfl' _
  · exact State.recorded_msix _ _ _

/-- The partition log's copy. -/
theorem State.recorded_copy (s : State) (r : ErrRec) (l : Option Nat) : s.Recorded (match l with
    | some p =>
      let k := p * 64 + (s.part p).written.toNat % 64
      (s.modErr fun e => { e with plog := tinsert (terase e.plog k) k r }).modPart p fun x => { x with written := x.written + 1 }
    | none => s) := by
  cases l
  · exact State.Recorded.rfl' _
  · exact (State.recorded_err _ _).trans (State.recorded_part _ _ _)

theorem State.writeRecord_changes (s : State) (cls : RecCls) (acct : Acct) (r : ErrRec) : s.Recorded (s.writeRecord cls acct r) := by
  unfold State.writeRecord
  refine State.Recorded.trans ?_ (State.recorded_messages _ cls r)
  refine State.Recorded.trans ?_ (State.recorded_copy _ r _)
  refine State.Recorded.trans ?_ (State.recorded_aon _ _ _ _)
  refine State.Recorded.trans ?_ (State.recorded_err _ _)
  exact (State.recorded_err s _).trans (State.recorded_when _ _ _ (State.recorded_event _ _ _))

/-- A record within its limit of the second, or counted as suppressed. -/
theorem State.recorded_limited (s : State) (cls : RecCls) (acct : Acct) (r : ErrRec) (l : Option (Nat × Nat)) : s.Recorded (match l with
    | none => s.writeRecord cls acct r
    | some (key, limit) =>
      let n := tget 0 s.err.counts key
      if n < limit then (s.modErr fun e => { e with counts := tset 0 e.counts key (n + 1) }).writeRecord cls acct r
      else s.modErr fun e => { e with suppressed := satAdd e.suppressed 1 }) := by
  cases l
  · exact State.writeRecord_changes _ _ _ _
  · dsimp only
    split
    · exact (State.recorded_err _ _).trans (State.writeRecord_changes _ _ _ _)
    · exact State.recorded_err _ _

theorem State.record_changes (s : State) (cls : RecCls) (acct : Acct) (unit source code part : Nat) (detail : List Byte) :
    s.Recorded (s.record cls acct unit source code part detail) := by
  unfold State.record
  refine State.Recorded.trans ?_ (State.recorded_limited _ cls acct _ _)
  refine State.Recorded.trans ?_ (State.recorded_when _ _ _ (State.recorded_aon _ _ _ _))
  split
  · exact State.Recorded.rfl' s
  · exact State.recorded_err s _

/-! What a record leaves. -/

theorem State.Recorded.pending {s t : State} (h : s.Recorded t) : t.pending = s.pending := by obtain ⟨_, _, _, _, _, _, rfl⟩ := h; rfl
theorem State.Recorded.time {s t : State} (h : s.Recorded t) : t.time = s.time := by obtain ⟨_, _, _, _, _, _, rfl⟩ := h; rfl
theorem State.Recorded.cores {s t : State} (h : s.Recorded t) : t.cores = s.cores := by obtain ⟨_, _, _, _, _, _, rfl⟩ := h; rfl
theorem State.Recorded.mem {s t : State} (h : s.Recorded t) : t.mem = s.mem := by obtain ⟨_, _, _, _, _, _, rfl⟩ := h; rfl
theorem State.Recorded.ob {s t : State} (h : s.Recorded t) : t.ob = s.ob := by obtain ⟨_, _, _, _, _, _, rfl⟩ := h; rfl
theorem State.Recorded.thm {s t : State} (h : s.Recorded t) : t.thm = s.thm := by obtain ⟨_, _, _, _, _, _, rfl⟩ := h; rfl
theorem State.Recorded.wlk {s t : State} (h : s.Recorded t) : t.wlk = s.wlk := by obtain ⟨_, _, _, _, _, _, rfl⟩ := h; rfl
theorem State.Recorded.seam {s t : State} (h : s.Recorded t) : t.seam = s.seam := by obtain ⟨_, _, _, _, _, _, rfl⟩ := h; rfl
theorem State.Recorded.islands {s t : State} (h : s.Recorded t) : t.islands = s.islands := by obtain ⟨_, _, _, _, _, _, rfl⟩ := h; rfl
theorem State.Recorded.pwr {s t : State} (h : s.Recorded t) : t.pwr = s.pwr := by obtain ⟨_, _, _, _, _, _, rfl⟩ := h; rfl
theorem State.Recorded.cal {s t : State} (h : s.Recorded t) : t.cal = s.cal := by obtain ⟨_, _, _, _, _, _, rfl⟩ := h; rfl
theorem State.Recorded.boot {s t : State} (h : s.Recorded t) : t.boot = s.boot := by obtain ⟨_, _, _, _, _, _, rfl⟩ := h; rfl
theorem State.Recorded.tap {s t : State} (h : s.Recorded t) : t.tap = s.tap := by obtain ⟨_, _, _, _, _, _, rfl⟩ := h; rfl
theorem State.Recorded.hif_fns {s t : State} (h : s.Recorded t) : t.hif.fns = s.hif.fns := by obtain ⟨_, _, _, _, _, _, rfl⟩ := h; rfl
theorem State.Recorded.hif_win {s t : State} (h : s.Recorded t) : t.hif.win = s.hif.win := by obtain ⟨_, _, _, _, _, _, rfl⟩ := h; rfl
theorem State.Recorded.hif_bar2Base {s t : State} (h : s.Recorded t) : t.hif.bar2Base = s.hif.bar2Base := by obtain ⟨_, _, _, _, _, _, rfl⟩ := h; rfl
theorem State.Recorded.hif_bar2Size {s t : State} (h : s.Recorded t) : t.hif.bar2Size = s.hif.bar2Size := by obtain ⟨_, _, _, _, _, _, rfl⟩ := h; rfl
theorem State.Recorded.hif_vfBar2Size {s t : State} (h : s.Recorded t) : t.hif.vfBar2Size = s.hif.vfBar2Size := by obtain ⟨_, _, _, _, _, _, rfl⟩ := h; rfl
theorem State.Recorded.hif_inbox {s t : State} (h : s.Recorded t) : t.hif.inbox = s.hif.inbox := by obtain ⟨_, _, _, _, _, _, rfl⟩ := h; rfl
theorem State.Recorded.hif_cmds {s t : State} (h : s.Recorded t) : t.hif.cmds = s.hif.cmds := by obtain ⟨_, _, _, _, _, _, rfl⟩ := h; rfl
theorem State.Recorded.hif_ide {s t : State} (h : s.Recorded t) : t.hif.ide = s.hif.ide := by obtain ⟨_, _, _, _, _, _, rfl⟩ := h; rfl
theorem State.Recorded.hif_configReady {s t : State} (h : s.Recorded t) : t.hif.configReady = s.hif.configReady := by obtain ⟨_, _, _, _, _, _, rfl⟩ := h; rfl
theorem State.Recorded.mgmt_dynAddr {s t : State} (h : s.Recorded t) : t.mgmt.dynAddr = s.mgmt.dynAddr := by obtain ⟨_, _, _, _, _, _, rfl⟩ := h; rfl
theorem State.Recorded.mgmt_strap {s t : State} (h : s.Recorded t) : t.mgmt.strap = s.mgmt.strap := by obtain ⟨_, _, _, _, _, _, rfl⟩ := h; rfl
theorem State.Recorded.mgmt_eid {s t : State} (h : s.Recorded t) : t.mgmt.eid = s.mgmt.eid := by obtain ⟨_, _, _, _, _, _, rfl⟩ := h; rfl
theorem State.Recorded.mgmt_receiver {s t : State} (h : s.Recorded t) : t.mgmt.receiver = s.mgmt.receiver := by obtain ⟨_, _, _, _, _, _, rfl⟩ := h; rfl
theorem State.Recorded.mgmt_update {s t : State} (h : s.Recorded t) : t.mgmt.update = s.mgmt.update := by obtain ⟨_, _, _, _, _, _, rfl⟩ := h; rfl
theorem State.Recorded.mgmt_second {s t : State} (h : s.Recorded t) : t.mgmt.second = s.mgmt.second := by obtain ⟨_, _, _, _, _, _, rfl⟩ := h; rfl
theorem State.Recorded.mgmt_count {s t : State} (h : s.Recorded t) : t.mgmt.count = s.mgmt.count := by obtain ⟨_, _, _, _, _, _, rfl⟩ := h; rfl
theorem State.Recorded.mgmt_readings {s t : State} (h : s.Recorded t) : t.mgmt.readings = s.mgmt.readings := by obtain ⟨_, _, _, _, _, _, rfl⟩ := h; rfl
theorem State.Recorded.mgmt_bands {s t : State} (h : s.Recorded t) : t.mgmt.bands = s.mgmt.bands := by obtain ⟨_, _, _, _, _, _, rfl⟩ := h; rfl
theorem State.Recorded.msr_enable {s t : State} (h : s.Recorded t) : t.msr.enable = s.msr.enable := by obtain ⟨_, _, _, _, _, _, rfl⟩ := h; rfl
theorem State.Recorded.msr_enableOld {s t : State} (h : s.Recorded t) : t.msr.enableOld = s.msr.enableOld := by obtain ⟨_, _, _, _, _, _, rfl⟩ := h; rfl
theorem State.Recorded.msr_enableAt {s t : State} (h : s.Recorded t) : t.msr.enableAt = s.msr.enableAt := by obtain ⟨_, _, _, _, _, _, rfl⟩ := h; rfl
theorem State.Recorded.msr_classes {s t : State} (h : s.Recorded t) : t.msr.classes = s.msr.classes := by obtain ⟨_, _, _, _, _, _, rfl⟩ := h; rfl
theorem State.Recorded.msr_images {s t : State} (h : s.Recorded t) : t.msr.images = s.msr.images := by obtain ⟨_, _, _, _, _, _, rfl⟩ := h; rfl
theorem State.Recorded.msr_jobs {s t : State} (h : s.Recorded t) : t.msr.jobs = s.msr.jobs := by obtain ⟨_, _, _, _, _, _, rfl⟩ := h; rfl
theorem State.Recorded.msr_latches {s t : State} (h : s.Recorded t) : t.msr.latches = s.msr.latches := by obtain ⟨_, _, _, _, _, _, rfl⟩ := h; rfl
theorem State.Recorded.msr_tangle {s t : State} (h : s.Recorded t) : t.msr.tangle = s.msr.tangle := by obtain ⟨_, _, _, _, _, _, rfl⟩ := h; rfl
theorem State.Recorded.msr_tglCycles {s t : State} (h : s.Recorded t) : t.msr.tglCycles = s.msr.tglCycles := by obtain ⟨_, _, _, _, _, _, rfl⟩ := h; rfl
theorem State.Recorded.msr_tglNodes {s t : State} (h : s.Recorded t) : t.msr.tglNodes = s.msr.tglNodes := by obtain ⟨_, _, _, _, _, _, rfl⟩ := h; rfl
theorem State.Recorded.msr_alken {s t : State} (h : s.Recorded t) : t.msr.alken = s.msr.alken := by obtain ⟨_, _, _, _, _, _, rfl⟩ := h; rfl

@[simp] theorem State.record_pending (s : State) (cls : RecCls) (acct : Acct) (unit source code part : Nat) (detail : List Byte) :
    (s.record cls acct unit source code part detail).pending = s.pending := (s.record_changes ..).pending
@[simp] theorem State.record_time (s : State) (cls : RecCls) (acct : Acct) (unit source code part : Nat) (detail : List Byte) :
    (s.record cls acct unit source code part detail).time = s.time := (s.record_changes ..).time
@[simp] theorem State.record_cores (s : State) (cls : RecCls) (acct : Acct) (unit source code part : Nat) (detail : List Byte) :
    (s.record cls acct unit source code part detail).cores = s.cores := (s.record_changes ..).cores
@[simp] theorem State.record_mem (s : State) (cls : RecCls) (acct : Acct) (unit source code part : Nat) (detail : List Byte) :
    (s.record cls acct unit source code part detail).mem = s.mem := (s.record_changes ..).mem
@[simp] theorem State.record_ob (s : State) (cls : RecCls) (acct : Acct) (unit source code part : Nat) (detail : List Byte) :
    (s.record cls acct unit source code part detail).ob = s.ob := (s.record_changes ..).ob
@[simp] theorem State.record_thm (s : State) (cls : RecCls) (acct : Acct) (unit source code part : Nat) (detail : List Byte) :
    (s.record cls acct unit source code part detail).thm = s.thm := (s.record_changes ..).thm
@[simp] theorem State.record_wlk (s : State) (cls : RecCls) (acct : Acct) (unit source code part : Nat) (detail : List Byte) :
    (s.record cls acct unit source code part detail).wlk = s.wlk := (s.record_changes ..).wlk
@[simp] theorem State.record_seam (s : State) (cls : RecCls) (acct : Acct) (unit source code part : Nat) (detail : List Byte) :
    (s.record cls acct unit source code part detail).seam = s.seam := (s.record_changes ..).seam
@[simp] theorem State.record_islands (s : State) (cls : RecCls) (acct : Acct) (unit source code part : Nat) (detail : List Byte) :
    (s.record cls acct unit source code part detail).islands = s.islands := (s.record_changes ..).islands
@[simp] theorem State.record_pwr (s : State) (cls : RecCls) (acct : Acct) (unit source code part : Nat) (detail : List Byte) :
    (s.record cls acct unit source code part detail).pwr = s.pwr := (s.record_changes ..).pwr
@[simp] theorem State.record_cal (s : State) (cls : RecCls) (acct : Acct) (unit source code part : Nat) (detail : List Byte) :
    (s.record cls acct unit source code part detail).cal = s.cal := (s.record_changes ..).cal
@[simp] theorem State.record_boot (s : State) (cls : RecCls) (acct : Acct) (unit source code part : Nat) (detail : List Byte) :
    (s.record cls acct unit source code part detail).boot = s.boot := (s.record_changes ..).boot
@[simp] theorem State.record_tap (s : State) (cls : RecCls) (acct : Acct) (unit source code part : Nat) (detail : List Byte) :
    (s.record cls acct unit source code part detail).tap = s.tap := (s.record_changes ..).tap
@[simp] theorem State.record_hif_fns (s : State) (cls : RecCls) (acct : Acct) (unit source code part : Nat) (detail : List Byte) :
    (s.record cls acct unit source code part detail).hif.fns = s.hif.fns := (s.record_changes ..).hif_fns
@[simp] theorem State.record_hif_win (s : State) (cls : RecCls) (acct : Acct) (unit source code part : Nat) (detail : List Byte) :
    (s.record cls acct unit source code part detail).hif.win = s.hif.win := (s.record_changes ..).hif_win
@[simp] theorem State.record_hif_bar2Base (s : State) (cls : RecCls) (acct : Acct) (unit source code part : Nat) (detail : List Byte) :
    (s.record cls acct unit source code part detail).hif.bar2Base = s.hif.bar2Base := (s.record_changes ..).hif_bar2Base
@[simp] theorem State.record_hif_bar2Size (s : State) (cls : RecCls) (acct : Acct) (unit source code part : Nat) (detail : List Byte) :
    (s.record cls acct unit source code part detail).hif.bar2Size = s.hif.bar2Size := (s.record_changes ..).hif_bar2Size
@[simp] theorem State.record_hif_vfBar2Size (s : State) (cls : RecCls) (acct : Acct) (unit source code part : Nat) (detail : List Byte) :
    (s.record cls acct unit source code part detail).hif.vfBar2Size = s.hif.vfBar2Size := (s.record_changes ..).hif_vfBar2Size
@[simp] theorem State.record_hif_inbox (s : State) (cls : RecCls) (acct : Acct) (unit source code part : Nat) (detail : List Byte) :
    (s.record cls acct unit source code part detail).hif.inbox = s.hif.inbox := (s.record_changes ..).hif_inbox
@[simp] theorem State.record_hif_cmds (s : State) (cls : RecCls) (acct : Acct) (unit source code part : Nat) (detail : List Byte) :
    (s.record cls acct unit source code part detail).hif.cmds = s.hif.cmds := (s.record_changes ..).hif_cmds
@[simp] theorem State.record_hif_ide (s : State) (cls : RecCls) (acct : Acct) (unit source code part : Nat) (detail : List Byte) :
    (s.record cls acct unit source code part detail).hif.ide = s.hif.ide := (s.record_changes ..).hif_ide
@[simp] theorem State.record_hif_configReady (s : State) (cls : RecCls) (acct : Acct) (unit source code part : Nat) (detail : List Byte) :
    (s.record cls acct unit source code part detail).hif.configReady = s.hif.configReady := (s.record_changes ..).hif_configReady
@[simp] theorem State.record_mgmt_dynAddr (s : State) (cls : RecCls) (acct : Acct) (unit source code part : Nat) (detail : List Byte) :
    (s.record cls acct unit source code part detail).mgmt.dynAddr = s.mgmt.dynAddr := (s.record_changes ..).mgmt_dynAddr
@[simp] theorem State.record_mgmt_strap (s : State) (cls : RecCls) (acct : Acct) (unit source code part : Nat) (detail : List Byte) :
    (s.record cls acct unit source code part detail).mgmt.strap = s.mgmt.strap := (s.record_changes ..).mgmt_strap
@[simp] theorem State.record_mgmt_eid (s : State) (cls : RecCls) (acct : Acct) (unit source code part : Nat) (detail : List Byte) :
    (s.record cls acct unit source code part detail).mgmt.eid = s.mgmt.eid := (s.record_changes ..).mgmt_eid
@[simp] theorem State.record_mgmt_receiver (s : State) (cls : RecCls) (acct : Acct) (unit source code part : Nat) (detail : List Byte) :
    (s.record cls acct unit source code part detail).mgmt.receiver = s.mgmt.receiver := (s.record_changes ..).mgmt_receiver
@[simp] theorem State.record_mgmt_update (s : State) (cls : RecCls) (acct : Acct) (unit source code part : Nat) (detail : List Byte) :
    (s.record cls acct unit source code part detail).mgmt.update = s.mgmt.update := (s.record_changes ..).mgmt_update
@[simp] theorem State.record_mgmt_second (s : State) (cls : RecCls) (acct : Acct) (unit source code part : Nat) (detail : List Byte) :
    (s.record cls acct unit source code part detail).mgmt.second = s.mgmt.second := (s.record_changes ..).mgmt_second
@[simp] theorem State.record_mgmt_count (s : State) (cls : RecCls) (acct : Acct) (unit source code part : Nat) (detail : List Byte) :
    (s.record cls acct unit source code part detail).mgmt.count = s.mgmt.count := (s.record_changes ..).mgmt_count
@[simp] theorem State.record_mgmt_readings (s : State) (cls : RecCls) (acct : Acct) (unit source code part : Nat) (detail : List Byte) :
    (s.record cls acct unit source code part detail).mgmt.readings = s.mgmt.readings := (s.record_changes ..).mgmt_readings
@[simp] theorem State.record_mgmt_bands (s : State) (cls : RecCls) (acct : Acct) (unit source code part : Nat) (detail : List Byte) :
    (s.record cls acct unit source code part detail).mgmt.bands = s.mgmt.bands := (s.record_changes ..).mgmt_bands
@[simp] theorem State.record_msr_enable (s : State) (cls : RecCls) (acct : Acct) (unit source code part : Nat) (detail : List Byte) :
    (s.record cls acct unit source code part detail).msr.enable = s.msr.enable := (s.record_changes ..).msr_enable
@[simp] theorem State.record_msr_enableOld (s : State) (cls : RecCls) (acct : Acct) (unit source code part : Nat) (detail : List Byte) :
    (s.record cls acct unit source code part detail).msr.enableOld = s.msr.enableOld := (s.record_changes ..).msr_enableOld
@[simp] theorem State.record_msr_enableAt (s : State) (cls : RecCls) (acct : Acct) (unit source code part : Nat) (detail : List Byte) :
    (s.record cls acct unit source code part detail).msr.enableAt = s.msr.enableAt := (s.record_changes ..).msr_enableAt
@[simp] theorem State.record_msr_classes (s : State) (cls : RecCls) (acct : Acct) (unit source code part : Nat) (detail : List Byte) :
    (s.record cls acct unit source code part detail).msr.classes = s.msr.classes := (s.record_changes ..).msr_classes
@[simp] theorem State.record_msr_images (s : State) (cls : RecCls) (acct : Acct) (unit source code part : Nat) (detail : List Byte) :
    (s.record cls acct unit source code part detail).msr.images = s.msr.images := (s.record_changes ..).msr_images
@[simp] theorem State.record_msr_jobs (s : State) (cls : RecCls) (acct : Acct) (unit source code part : Nat) (detail : List Byte) :
    (s.record cls acct unit source code part detail).msr.jobs = s.msr.jobs := (s.record_changes ..).msr_jobs
@[simp] theorem State.record_msr_latches (s : State) (cls : RecCls) (acct : Acct) (unit source code part : Nat) (detail : List Byte) :
    (s.record cls acct unit source code part detail).msr.latches = s.msr.latches := (s.record_changes ..).msr_latches
@[simp] theorem State.record_msr_tangle (s : State) (cls : RecCls) (acct : Acct) (unit source code part : Nat) (detail : List Byte) :
    (s.record cls acct unit source code part detail).msr.tangle = s.msr.tangle := (s.record_changes ..).msr_tangle
@[simp] theorem State.record_msr_tglCycles (s : State) (cls : RecCls) (acct : Acct) (unit source code part : Nat) (detail : List Byte) :
    (s.record cls acct unit source code part detail).msr.tglCycles = s.msr.tglCycles := (s.record_changes ..).msr_tglCycles
@[simp] theorem State.record_msr_tglNodes (s : State) (cls : RecCls) (acct : Acct) (unit source code part : Nat) (detail : List Byte) :
    (s.record cls acct unit source code part detail).msr.tglNodes = s.msr.tglNodes := (s.record_changes ..).msr_tglNodes
@[simp] theorem State.record_msr_alken (s : State) (cls : RecCls) (acct : Acct) (unit source code part : Nat) (detail : List Byte) :
    (s.record cls acct unit source code part detail).msr.alken = s.msr.alken := (s.record_changes ..).msr_alken

@[simp] theorem State.refusedWrite_pending (s : State) (u p a : Nat) (c : Acct) : (s.refusedWrite u p a c).pending = s.pending :=
  (s.record_changes ..).pending
@[simp] theorem State.refusedWrite_time (s : State) (u p a : Nat) (c : Acct) : (s.refusedWrite u p a c).time = s.time :=
  (s.record_changes ..).time
@[simp] theorem State.refusedWrite_cores (s : State) (u p a : Nat) (c : Acct) : (s.refusedWrite u p a c).cores = s.cores :=
  (s.record_changes ..).cores
@[simp] theorem State.refusedWrite_mem (s : State) (u p a : Nat) (c : Acct) : (s.refusedWrite u p a c).mem = s.mem :=
  (s.record_changes ..).mem
@[simp] theorem State.refusedWrite_ob (s : State) (u p a : Nat) (c : Acct) : (s.refusedWrite u p a c).ob = s.ob :=
  (s.record_changes ..).ob
@[simp] theorem State.refusedWrite_thm (s : State) (u p a : Nat) (c : Acct) : (s.refusedWrite u p a c).thm = s.thm :=
  (s.record_changes ..).thm
@[simp] theorem State.refusedWrite_wlk (s : State) (u p a : Nat) (c : Acct) : (s.refusedWrite u p a c).wlk = s.wlk :=
  (s.record_changes ..).wlk
@[simp] theorem State.refusedWrite_seam (s : State) (u p a : Nat) (c : Acct) : (s.refusedWrite u p a c).seam = s.seam :=
  (s.record_changes ..).seam
@[simp] theorem State.refusedWrite_islands (s : State) (u p a : Nat) (c : Acct) : (s.refusedWrite u p a c).islands = s.islands :=
  (s.record_changes ..).islands
@[simp] theorem State.refusedWrite_pwr (s : State) (u p a : Nat) (c : Acct) : (s.refusedWrite u p a c).pwr = s.pwr :=
  (s.record_changes ..).pwr
@[simp] theorem State.refusedWrite_cal (s : State) (u p a : Nat) (c : Acct) : (s.refusedWrite u p a c).cal = s.cal :=
  (s.record_changes ..).cal
@[simp] theorem State.refusedWrite_boot (s : State) (u p a : Nat) (c : Acct) : (s.refusedWrite u p a c).boot = s.boot :=
  (s.record_changes ..).boot
@[simp] theorem State.refusedWrite_tap (s : State) (u p a : Nat) (c : Acct) : (s.refusedWrite u p a c).tap = s.tap :=
  (s.record_changes ..).tap
@[simp] theorem State.refusedWrite_hif_fns (s : State) (u p a : Nat) (c : Acct) : (s.refusedWrite u p a c).hif.fns = s.hif.fns :=
  (s.record_changes ..).hif_fns
@[simp] theorem State.refusedWrite_hif_win (s : State) (u p a : Nat) (c : Acct) : (s.refusedWrite u p a c).hif.win = s.hif.win :=
  (s.record_changes ..).hif_win
@[simp] theorem State.refusedWrite_hif_bar2Base (s : State) (u p a : Nat) (c : Acct) : (s.refusedWrite u p a c).hif.bar2Base = s.hif.bar2Base :=
  (s.record_changes ..).hif_bar2Base
@[simp] theorem State.refusedWrite_hif_bar2Size (s : State) (u p a : Nat) (c : Acct) : (s.refusedWrite u p a c).hif.bar2Size = s.hif.bar2Size :=
  (s.record_changes ..).hif_bar2Size
@[simp] theorem State.refusedWrite_hif_vfBar2Size (s : State) (u p a : Nat) (c : Acct) : (s.refusedWrite u p a c).hif.vfBar2Size = s.hif.vfBar2Size :=
  (s.record_changes ..).hif_vfBar2Size
@[simp] theorem State.refusedWrite_hif_inbox (s : State) (u p a : Nat) (c : Acct) : (s.refusedWrite u p a c).hif.inbox = s.hif.inbox :=
  (s.record_changes ..).hif_inbox
@[simp] theorem State.refusedWrite_hif_cmds (s : State) (u p a : Nat) (c : Acct) : (s.refusedWrite u p a c).hif.cmds = s.hif.cmds :=
  (s.record_changes ..).hif_cmds
@[simp] theorem State.refusedWrite_hif_ide (s : State) (u p a : Nat) (c : Acct) : (s.refusedWrite u p a c).hif.ide = s.hif.ide :=
  (s.record_changes ..).hif_ide
@[simp] theorem State.refusedWrite_hif_configReady (s : State) (u p a : Nat) (c : Acct) : (s.refusedWrite u p a c).hif.configReady = s.hif.configReady :=
  (s.record_changes ..).hif_configReady
@[simp] theorem State.refusedWrite_mgmt_dynAddr (s : State) (u p a : Nat) (c : Acct) : (s.refusedWrite u p a c).mgmt.dynAddr = s.mgmt.dynAddr :=
  (s.record_changes ..).mgmt_dynAddr
@[simp] theorem State.refusedWrite_mgmt_strap (s : State) (u p a : Nat) (c : Acct) : (s.refusedWrite u p a c).mgmt.strap = s.mgmt.strap :=
  (s.record_changes ..).mgmt_strap
@[simp] theorem State.refusedWrite_mgmt_eid (s : State) (u p a : Nat) (c : Acct) : (s.refusedWrite u p a c).mgmt.eid = s.mgmt.eid :=
  (s.record_changes ..).mgmt_eid
@[simp] theorem State.refusedWrite_mgmt_receiver (s : State) (u p a : Nat) (c : Acct) : (s.refusedWrite u p a c).mgmt.receiver = s.mgmt.receiver :=
  (s.record_changes ..).mgmt_receiver
@[simp] theorem State.refusedWrite_mgmt_update (s : State) (u p a : Nat) (c : Acct) : (s.refusedWrite u p a c).mgmt.update = s.mgmt.update :=
  (s.record_changes ..).mgmt_update
@[simp] theorem State.refusedWrite_mgmt_second (s : State) (u p a : Nat) (c : Acct) : (s.refusedWrite u p a c).mgmt.second = s.mgmt.second :=
  (s.record_changes ..).mgmt_second
@[simp] theorem State.refusedWrite_mgmt_count (s : State) (u p a : Nat) (c : Acct) : (s.refusedWrite u p a c).mgmt.count = s.mgmt.count :=
  (s.record_changes ..).mgmt_count
@[simp] theorem State.refusedWrite_mgmt_readings (s : State) (u p a : Nat) (c : Acct) : (s.refusedWrite u p a c).mgmt.readings = s.mgmt.readings :=
  (s.record_changes ..).mgmt_readings
@[simp] theorem State.refusedWrite_mgmt_bands (s : State) (u p a : Nat) (c : Acct) : (s.refusedWrite u p a c).mgmt.bands = s.mgmt.bands :=
  (s.record_changes ..).mgmt_bands
@[simp] theorem State.refusedWrite_msr_enable (s : State) (u p a : Nat) (c : Acct) : (s.refusedWrite u p a c).msr.enable = s.msr.enable :=
  (s.record_changes ..).msr_enable
@[simp] theorem State.refusedWrite_msr_enableOld (s : State) (u p a : Nat) (c : Acct) : (s.refusedWrite u p a c).msr.enableOld = s.msr.enableOld :=
  (s.record_changes ..).msr_enableOld
@[simp] theorem State.refusedWrite_msr_enableAt (s : State) (u p a : Nat) (c : Acct) : (s.refusedWrite u p a c).msr.enableAt = s.msr.enableAt :=
  (s.record_changes ..).msr_enableAt
@[simp] theorem State.refusedWrite_msr_classes (s : State) (u p a : Nat) (c : Acct) : (s.refusedWrite u p a c).msr.classes = s.msr.classes :=
  (s.record_changes ..).msr_classes
@[simp] theorem State.refusedWrite_msr_images (s : State) (u p a : Nat) (c : Acct) : (s.refusedWrite u p a c).msr.images = s.msr.images :=
  (s.record_changes ..).msr_images
@[simp] theorem State.refusedWrite_msr_jobs (s : State) (u p a : Nat) (c : Acct) : (s.refusedWrite u p a c).msr.jobs = s.msr.jobs :=
  (s.record_changes ..).msr_jobs
@[simp] theorem State.refusedWrite_msr_latches (s : State) (u p a : Nat) (c : Acct) : (s.refusedWrite u p a c).msr.latches = s.msr.latches :=
  (s.record_changes ..).msr_latches
@[simp] theorem State.refusedWrite_msr_tangle (s : State) (u p a : Nat) (c : Acct) : (s.refusedWrite u p a c).msr.tangle = s.msr.tangle :=
  (s.record_changes ..).msr_tangle
@[simp] theorem State.refusedWrite_msr_tglCycles (s : State) (u p a : Nat) (c : Acct) : (s.refusedWrite u p a c).msr.tglCycles = s.msr.tglCycles :=
  (s.record_changes ..).msr_tglCycles
@[simp] theorem State.refusedWrite_msr_tglNodes (s : State) (u p a : Nat) (c : Acct) : (s.refusedWrite u p a c).msr.tglNodes = s.msr.tglNodes :=
  (s.record_changes ..).msr_tglNodes
@[simp] theorem State.refusedWrite_msr_alken (s : State) (u p a : Nat) (c : Acct) : (s.refusedWrite u p a c).msr.alken = s.msr.alken :=
  (s.record_changes ..).msr_alken

@[simp] theorem State.hostViolation_pending (s : State) (fn row cls a : Nat) : (s.hostViolation fn row cls a).pending = s.pending := by
  unfold State.hostViolation; simp [State.modFn]
@[simp] theorem State.hostViolation_time (s : State) (fn row cls a : Nat) : (s.hostViolation fn row cls a).time = s.time := by
  unfold State.hostViolation; simp [State.modFn]
@[simp] theorem State.hostViolation_cores (s : State) (fn row cls a : Nat) : (s.hostViolation fn row cls a).cores = s.cores := by
  unfold State.hostViolation; simp [State.modFn]
@[simp] theorem State.hostViolation_mem (s : State) (fn row cls a : Nat) : (s.hostViolation fn row cls a).mem = s.mem := by
  unfold State.hostViolation; simp [State.modFn]
@[simp] theorem State.hostViolation_ob (s : State) (fn row cls a : Nat) : (s.hostViolation fn row cls a).ob = s.ob := by
  unfold State.hostViolation; simp [State.modFn]
@[simp] theorem State.hostViolation_thm (s : State) (fn row cls a : Nat) : (s.hostViolation fn row cls a).thm = s.thm := by
  unfold State.hostViolation; simp [State.modFn]
@[simp] theorem State.hostViolation_wlk (s : State) (fn row cls a : Nat) : (s.hostViolation fn row cls a).wlk = s.wlk := by
  unfold State.hostViolation; simp [State.modFn]
@[simp] theorem State.hostViolation_seam (s : State) (fn row cls a : Nat) : (s.hostViolation fn row cls a).seam = s.seam := by
  unfold State.hostViolation; simp [State.modFn]
@[simp] theorem State.hostViolation_islands (s : State) (fn row cls a : Nat) : (s.hostViolation fn row cls a).islands = s.islands := by
  unfold State.hostViolation; simp [State.modFn]
@[simp] theorem State.hostViolation_pwr (s : State) (fn row cls a : Nat) : (s.hostViolation fn row cls a).pwr = s.pwr := by
  unfold State.hostViolation; simp [State.modFn]
@[simp] theorem State.hostViolation_cal (s : State) (fn row cls a : Nat) : (s.hostViolation fn row cls a).cal = s.cal := by
  unfold State.hostViolation; simp [State.modFn]
@[simp] theorem State.hostViolation_boot (s : State) (fn row cls a : Nat) : (s.hostViolation fn row cls a).boot = s.boot := by
  unfold State.hostViolation; simp [State.modFn]
@[simp] theorem State.hostViolation_tap (s : State) (fn row cls a : Nat) : (s.hostViolation fn row cls a).tap = s.tap := by
  unfold State.hostViolation; simp [State.modFn]
@[simp] theorem State.hostViolation_hif_win (s : State) (fn row cls a : Nat) : (s.hostViolation fn row cls a).hif.win = s.hif.win := by
  unfold State.hostViolation; simp [State.modFn]
@[simp] theorem State.hostViolation_hif_bar2Base (s : State) (fn row cls a : Nat) : (s.hostViolation fn row cls a).hif.bar2Base = s.hif.bar2Base := by
  unfold State.hostViolation; simp [State.modFn]
@[simp] theorem State.hostViolation_hif_bar2Size (s : State) (fn row cls a : Nat) : (s.hostViolation fn row cls a).hif.bar2Size = s.hif.bar2Size := by
  unfold State.hostViolation; simp [State.modFn]
@[simp] theorem State.hostViolation_hif_vfBar2Size (s : State) (fn row cls a : Nat) : (s.hostViolation fn row cls a).hif.vfBar2Size = s.hif.vfBar2Size := by
  unfold State.hostViolation; simp [State.modFn]
@[simp] theorem State.hostViolation_hif_inbox (s : State) (fn row cls a : Nat) : (s.hostViolation fn row cls a).hif.inbox = s.hif.inbox := by
  unfold State.hostViolation; simp [State.modFn]
@[simp] theorem State.hostViolation_hif_cmds (s : State) (fn row cls a : Nat) : (s.hostViolation fn row cls a).hif.cmds = s.hif.cmds := by
  unfold State.hostViolation; simp [State.modFn]
@[simp] theorem State.hostViolation_hif_ide (s : State) (fn row cls a : Nat) : (s.hostViolation fn row cls a).hif.ide = s.hif.ide := by
  unfold State.hostViolation; simp [State.modFn]
@[simp] theorem State.hostViolation_hif_configReady (s : State) (fn row cls a : Nat) : (s.hostViolation fn row cls a).hif.configReady = s.hif.configReady := by
  unfold State.hostViolation; simp [State.modFn]
@[simp] theorem State.hostViolation_mgmt_dynAddr (s : State) (fn row cls a : Nat) : (s.hostViolation fn row cls a).mgmt.dynAddr = s.mgmt.dynAddr := by
  unfold State.hostViolation; simp [State.modFn]
@[simp] theorem State.hostViolation_mgmt_strap (s : State) (fn row cls a : Nat) : (s.hostViolation fn row cls a).mgmt.strap = s.mgmt.strap := by
  unfold State.hostViolation; simp [State.modFn]
@[simp] theorem State.hostViolation_mgmt_eid (s : State) (fn row cls a : Nat) : (s.hostViolation fn row cls a).mgmt.eid = s.mgmt.eid := by
  unfold State.hostViolation; simp [State.modFn]
@[simp] theorem State.hostViolation_mgmt_receiver (s : State) (fn row cls a : Nat) : (s.hostViolation fn row cls a).mgmt.receiver = s.mgmt.receiver := by
  unfold State.hostViolation; simp [State.modFn]
@[simp] theorem State.hostViolation_mgmt_update (s : State) (fn row cls a : Nat) : (s.hostViolation fn row cls a).mgmt.update = s.mgmt.update := by
  unfold State.hostViolation; simp [State.modFn]
@[simp] theorem State.hostViolation_mgmt_second (s : State) (fn row cls a : Nat) : (s.hostViolation fn row cls a).mgmt.second = s.mgmt.second := by
  unfold State.hostViolation; simp [State.modFn]
@[simp] theorem State.hostViolation_mgmt_count (s : State) (fn row cls a : Nat) : (s.hostViolation fn row cls a).mgmt.count = s.mgmt.count := by
  unfold State.hostViolation; simp [State.modFn]
@[simp] theorem State.hostViolation_mgmt_readings (s : State) (fn row cls a : Nat) : (s.hostViolation fn row cls a).mgmt.readings = s.mgmt.readings := by
  unfold State.hostViolation; simp [State.modFn]
@[simp] theorem State.hostViolation_mgmt_bands (s : State) (fn row cls a : Nat) : (s.hostViolation fn row cls a).mgmt.bands = s.mgmt.bands := by
  unfold State.hostViolation; simp [State.modFn]
@[simp] theorem State.hostViolation_msr_enable (s : State) (fn row cls a : Nat) : (s.hostViolation fn row cls a).msr.enable = s.msr.enable := by
  unfold State.hostViolation; simp [State.modFn]
@[simp] theorem State.hostViolation_msr_enableOld (s : State) (fn row cls a : Nat) : (s.hostViolation fn row cls a).msr.enableOld = s.msr.enableOld := by
  unfold State.hostViolation; simp [State.modFn]
@[simp] theorem State.hostViolation_msr_enableAt (s : State) (fn row cls a : Nat) : (s.hostViolation fn row cls a).msr.enableAt = s.msr.enableAt := by
  unfold State.hostViolation; simp [State.modFn]
@[simp] theorem State.hostViolation_msr_classes (s : State) (fn row cls a : Nat) : (s.hostViolation fn row cls a).msr.classes = s.msr.classes := by
  unfold State.hostViolation; simp [State.modFn]
@[simp] theorem State.hostViolation_msr_images (s : State) (fn row cls a : Nat) : (s.hostViolation fn row cls a).msr.images = s.msr.images := by
  unfold State.hostViolation; simp [State.modFn]
@[simp] theorem State.hostViolation_msr_jobs (s : State) (fn row cls a : Nat) : (s.hostViolation fn row cls a).msr.jobs = s.msr.jobs := by
  unfold State.hostViolation; simp [State.modFn]
@[simp] theorem State.hostViolation_msr_latches (s : State) (fn row cls a : Nat) : (s.hostViolation fn row cls a).msr.latches = s.msr.latches := by
  unfold State.hostViolation; simp [State.modFn]
@[simp] theorem State.hostViolation_msr_tangle (s : State) (fn row cls a : Nat) : (s.hostViolation fn row cls a).msr.tangle = s.msr.tangle := by
  unfold State.hostViolation; simp [State.modFn]
@[simp] theorem State.hostViolation_msr_tglCycles (s : State) (fn row cls a : Nat) : (s.hostViolation fn row cls a).msr.tglCycles = s.msr.tglCycles := by
  unfold State.hostViolation; simp [State.modFn]
@[simp] theorem State.hostViolation_msr_tglNodes (s : State) (fn row cls a : Nat) : (s.hostViolation fn row cls a).msr.tglNodes = s.msr.tglNodes := by
  unfold State.hostViolation; simp [State.modFn]
@[simp] theorem State.hostViolation_msr_alken (s : State) (fn row cls a : Nat) : (s.hostViolation fn row cls a).msr.alken = s.msr.alken := by
  unfold State.hostViolation; simp [State.modFn]

end Sys2Proof.Machine
end

