-- ==== Sys2Proof/Safety.lean ====
section
/-! DEFINITION. What a safe step and a safe run of the block are. -/

namespace Sys2Proof

/-- A step is safe when it answers a next state: neither a fault nor a refusal. -/
def SafeStep (s : Machine.State) : Prop := ∃ t, Machine.step s = .next t

/-- A run of n steps is safe when each of its steps answers a next state. -/
def SafeRun (n : Nat) (s : Machine.State) : Prop := ∃ t, Host.Core.run { State := Machine.State, Fault := Machine.Fault, Refusal := Machine.Refusal, step := Machine.step, reset := Machine.State.reset } n s = .next t

end Sys2Proof
end

