-- ==== Sys2Proof/WellFormed.lean ====
section
/-! DEFINITION. Which commands the table's rows can carry: operands that name a function, partition, port, ring, island or
sequence lie in the ranges the spec numbers them with (R14, R360, R367, R475). -/

namespace Sys2Proof

/-- A VF is named by its number, 1 to 16 (R360). -/
def Agent.wf : Agent → Bool
  | .vf n => decide (1 ≤ n ∧ n ≤ 16)
  | _ => true

/-- An access has a size, and its offset lies in the BAR of its function (R361). -/
def AddrWrite.wf (w : AddrWrite) : Bool :=
  w.agent.wf && decide (1 ≤ w.size) && (match w.agent with
    | .pf0 => decide (w.addr < 0x10000000)
    | .vf _ => decide (w.addr < 0x1000000)
    | .firmware => true)

/-- A packet holds whole 16-byte units after its header, at most 16 (R427). -/
def Packet.wf (p : Packet) : Bool := decide (p.body.length % 16 = 0) && decide (p.body.length ≤ 256)

/-- PAYLOAD has 240 bytes (R422). -/
def Block.wf (b : Block) : Bool := decide (b.payload.length ≤ 240)

/-- Whether the operands of a command lie in their ranges. -/
def Instr.wellFormed : Instr → Bool
  | .registerWrite w => w.wf
  | .msixHoldoffExpiry fn vector _ => decide (fn ≤ 16) && decide (vector < 16)
  | .loadImage fn => decide (fn ≤ 16)
  | .imageStagingComplete _ => true
  | .imageDrainComplete => true
  | .imageDrainLimitExpiry _ => true
  | .imageSwitchComplete => true
  | .coreLaunch _ _ _ => true
  | .launchDescriptorRead _ => true
  | .bundleAdmission _ => true
  | .bundleLoadingComplete _ _ => true
  | .skeinStoresDrained _ _ => true
  | .bundleEnd _ _ => true
  | .yieldBackoffEnd _ _ => true
  | .stallHintEnd _ _ => true
  | .knotWatchdogExpiry _ _ _ => true
  | .skeinAbortStop _ _ => true
  | .coreBundleRelease _ op => op.agent.wf
  | .sknHalt _ _ op => op.agent.wf
  | .sknResume _ _ op => op.agent.wf
  | .coreReset _ => true
  | .coreResetDrainExpiry _ _ => true
  | .instructionFetch _ _ _ => true
  | .resultWriteback _ _ _ => true
  | .nop _ => true
  | .bra _ => true
  | .brx _ => true
  | .bru _ => true
  | .call _ => true
  | .ret _ => true
  | .exit _ => true
  | .knotWait _ => true
  | .knotArrive _ => true
  | .trap _ => true
  | .brk _ => true
  | .add _ => true
  | .sub _ => true
  | .mul _ => true
  | .mulhi _ => true
  | .mad _ => true
  | .min _ => true
  | .max _ => true
  | .abs _ => true
  | .and _ => true
  | .or _ => true
  | .xor _ => true
  | .not _ => true
  | .shl _ => true
  | .shr _ => true
  | .popc _ => true
  | .clz _ => true
  | .brev _ => true
  | .sel _ => true
  | .mov _ => true
  | .bfe _ => true
  | .fadd _ => true
  | .fsub _ => true
  | .fmul _ => true
  | .ffma _ => true
  | .fmin _ => true
  | .fmax _ => true
  | .fabs _ => true
  | .fneg _ => true
  | .frcp _ => true
  | .frsq _ => true
  | .fsqrt _ => true
  | .fexp2 _ => true
  | .flog2 _ => true
  | .fsin _ => true
  | .fcos _ => true
  | .ftanh _ => true
  | .cvt _ => true
  | .qmax _ => true
  | .qcvt _ => true
  | .qdec _ => true
  | .cmpi _ => true
  | .cmpf _ => true
  | .pmix _ => true
  | .ppack _ => true
  | .punpack _ => true
  | .lanex _ => true
  | .poll _ => true
  | .redg _ => true
  | .argmaxg _ => true
  | .scang _ => true
  | .rng _ => true
  | .rngseed _ => true
  | .gumbel _ => true
  | .uadd _ => true
  | .usub _ => true
  | .umul _ => true
  | .ushl _ => true
  | .ushr _ => true
  | .uand _ => true
  | .uor _ => true
  | .uxor _ => true
  | .umov _ => true
  | .rdsr _ => true
  | .ld _ => true
  | .loadDataReturn _ _ _ => true
  | .st _ => true
  | .ldu _ => true
  | .atomAdd _ => true
  | .atomMin _ => true
  | .atomMax _ => true
  | .atomAnd _ => true
  | .atomOr _ => true
  | .atomXor _ => true
  | .atomExch _ => true
  | .atomCas _ => true
  | .atomFadd _ => true
  | .atomFmin _ => true
  | .atomFmax _ => true
  | .shtl _ => true
  | .swait _ => true
  | .swaitSatisfied _ _ => true
  | .scadd _ => true
  | .fence _ => true
  | .fenceComplete _ _ => true
  | .pref _ => true
  | .inval _ => true
  | .invalL2Complete _ _ => true
  | .hwld _ => true
  | .hpassG _ => true
  | .hpassX _ => true
  | .hdrain _ => true
  | .hzero _ => true
  | .hsplit _ => true
  | .hpatch _ => true
  | .hoopFeederFill _ _ _ => true
  | .hoopOpStart _ _ _ _ => true
  | .hwldComplete _ _ _ _ => true
  | .hpatchComplete _ _ _ _ => true
  | .hpassComplete _ _ _ _ => true
  | .hdrainComplete _ _ _ => true
  | .hoopExpBaseWrite _ op => op.agent.wf
  | .shuttleDescriptorStart _ _ _ => true
  | .shuttleWriteLand _ _ _ _ => true
  | .shuttleDescriptorDone _ _ _ => true
  | .shuttleSourceComplete _ _ _ => true
  | .shuttleFault _ _ _ => true
  | .shtCntWrite _ _ op => op.agent.wf
  | .storeBufferEntryTimeout _ _ => true
  | .storeBufferWriteback _ => true
  | .ptnXlatInval part agent => decide (part < 16) && agent.wf
  | .xlatInvalComplete part => decide (part < 16)
  | .ptnScratchModeWrite part op => decide (part < 16) && op.agent.wf
  | .strIlvWrite _ op => op.agent.wf
  | .strArbWrite _ op => op.agent.wf
  | .strandReadCrcFailure _ _ => true
  | .strandRecalibration _ _ => true
  | .patrolScrubRead _ _ => true
  | .lpddr6PowerDown _ => true
  | .request fn _ _ => decide (fn ≤ 16)
  | .tokenisationComplete seq => decide (seq < 16384)
  | .sideAreaAllocated seq => decide (seq < 16384)
  | .cuttingListPublish part _ => decide (part < 16)
  | .obStepDone part op _ => decide (part < 16) && op.agent.wf
  | .stepLimitExpiry part _ => decide (part < 16)
  | .statusWordRefresh _ _ => true
  | .obPeekSelWrite op => op.agent.wf
  | .obPtnCfgWrite part op => decide (part < 16) && op.agent.wf
  | .demotionPageCopy seq => decide (seq < 16384)
  | .resumeStart seq => decide (seq < 16384)
  | .promotionPageCopy seq => decide (seq < 16384)
  | .dlmAcctSelWrite op => op.agent.wf
  | .acctClearAll agent => agent.wf
  | .acctClearClient agent _ => agent.wf
  | .dlmPtnCfgWrite part op => decide (part < 16) && op.agent.wf
  | .predictionClear part agent => decide (part < 16) && agent.wf
  | .cancel fn => decide (fn ≤ 16)
  | .preempt fn => decide (fn ≤ 16)
  | .resume fn => decide (fn ≤ 16)
  | .reduce fn => decide (fn ≤ 16)
  | .fit fn => decide (fn ≤ 16)
  | .calibrate fn => decide (fn ≤ 16)
  | .calibrateUnitComplete => true
  | .measure fn => decide (fn ≤ 16)
  | .tangle fn => decide (fn ≤ 16)
  | .fwActivate fn _ => decide (fn ≤ 16)
  | .fwActivateStartTimeout _ => true
  | .ringTailWrite fn ring op => decide (fn ≤ 16) && decide (ring ≤ 1) && op.agent.wf
  | .ringEntryRead fn ring _ => decide (fn ≤ 16) && decide (ring ≤ 1)
  | .hifRingBaseWrite fn ring op => decide (fn ≤ 16) && decide (ring ≤ 1) && op.agent.wf
  | .hifRingCfgWrite fn ring op => decide (fn ≤ 16) && decide (ring ≤ 1) && op.agent.wf
  | .hifBar2BaseWrite op => op.agent.wf
  | .bar2Read fn _ _ _ => decide (fn ≤ 16)
  | .bar2Write fn _ _ _ => decide (fn ≤ 16)
  | .configRequest req => decide (req.fn ≤ 16)
  | .vfFlr vf => decide (1 ≤ vf ∧ vf ≤ 16)
  | .pf0Flr => true
  | .d3hotEntry fn => decide (fn ≤ 16)
  | .claimOwner _ _ => true
  | .setOwner _ _ => true
  | .setPolicy _ _ => true
  | .setOperator _ _ => true
  | .advanceDebug _ _ => true
  | .raiseSvn _ _ => true
  | .persistGeometry _ => true
  | .persistAlterations _ => true
  | .form _ masks sealed_ _ _ => decide (masks.length = 16) && decide (sealed_.length = 16)
  | .formDrainComplete => true
  | .formDrainLimitExpiry _ => true
  | .formScrubComplete => true
  | .bind _ _ _ => true
  | .unbind _ _ _ => true
  | .unbindDrainComplete part => decide (part < 16)
  | .unbindStepLimitExpiry part _ => decide (part < 16)
  | .unbindComplete part => decide (part < 16)
  | .grantClient _ _ _ _ => true
  | .revokeClient _ _ => true
  | .importKey _ _ _ => true
  | .setRemote _ _ _ admission => decide (admission.length = 8)
  | .debugOptin _ _ => true
  | .readLedger _ _ _ => true
  | .writePattern _ _ _ => true
  | .getVersion _ => true
  | .getCapabilities _ => true
  | .negotiateAlgorithms _ _ => true
  | .getDigests _ => true
  | .getCertificate _ _ _ _ => true
  | .challenge _ _ _ => true
  | .getMeasurements _ _ => true
  | .keyExchange _ _ _ _ => true
  | .finish _ _ _ _ => true
  | .heartbeat _ _ => true
  | .keyUpdate _ _ => true
  | .endSession _ _ => true
  | .spdmSessionTimeout _ _ => true
  | .linkDataBlockReceive port b => decide (port < 12) && b.wf
  | .linkIdleBlockReceive port b => decide (port < 12) && b.wf
  | .ident port b => decide (port < 12) && b.wf
  | .lanes port b => decide (port < 12) && b.wf
  | .time port b _ => decide (port < 12) && b.wf
  | .down x => decide (x.port < 12) && x.block.wf
  | .linkProgressTimeout port _ => decide (port < 12)
  | .linkFecThreshold port _ => decide (port < 12)
  | .linkRetrainComplete port _ => decide (port < 12)
  | .linkRetrainTimeout port _ => decide (port < 12)
  | .write port p => decide (port < 12) && p.wf
  | .count port p => decide (port < 12) && p.wf
  | .ack port p => decide (port < 12) && p.wf
  | .refuse port p => decide (port < 12) && p.wf
  | .barrier port p => decide (port < 12) && p.wf
  | .dead port p => decide (port < 12) && p.wf
  | .probe port p => decide (port < 12) && p.wf
  | .probeReply port p => decide (port < 12) && p.wf
  | .probeTimer port _ => decide (port < 12)
  | .peerDeadTimeout port _ => decide (port < 12)
  | .unackedWriteTimeout _ _ _ => true
  | .wlkSysWrite op => op.agent.wf
  | .groupForm op _ => op.agent.wf
  | .groupFormationCheck _ _ _ => true
  | .groupLeave (.here op) => op.agent.wf
  | .groupLeave (.member id) => decide (id < 2 ^ 17)
  | .anchorTakeover _ => true
  | .portEnable port op => decide (port < 12) && op.agent.wf
  | .portDisable port op => decide (port < 12) && op.agent.wf
  | .timeExchange _ => true
  | .timeHoldExpiry _ => true
  | .seamPost part op => decide (part < 16) && op.agent.wf
  | .seamPostReadComplete part => decide (part < 16)
  | .seamQueueHoldExpiry port _ => decide (port < 12)
  | .seamAdd port p _ => decide (port < 12) && p.wf
  | .seamWrite port p _ => decide (port < 12) && p.wf
  | .seamParam port p => decide (port < 12) && p.wf
  | .seamShareDeadline part _ _ _ => decide (part < 16)
  | .seamPublish part op => decide (part < 16) && op.agent.wf
  | .seamHeldResend part _ => decide (part < 16)
  | .seamBoundary part op => decide (part < 16) && op.agent.wf
  | .seamCommit part => decide (part < 16)
  | .droopDetect island _ => decide (island < 1264)
  | .droopLimitLower island _ => decide (island < 1264)
  | .droopLimitRaise island _ => decide (island < 1264)
  | .islandClockStop island _ => decide (island < 1264)
  | .islandClockRestart island => decide (island < 1264)
  | .islandGate island => decide (island < 1264)
  | .islandUngate island => decide (island < 1264)
  | .powerSample _ => true
  | .vfLimitStep _ _ => true
  | .vfPointChangeComplete island => decide (island < 1264)
  | .thermalSensorRead _ _ _ _ => true
  | .clkTimeAdjWrite op => op.agent.wf
  | .calAltSelWrite op => op.agent.wf
  | .calAltValueWrite op => op.agent.wf
  | .pwrModuleCapWrite op => op.agent.wf
  | .pwrIdleWrite op => op.agent.wf
  | .pwrPtnWrite part op => decide (part < 16) && op.agent.wf
  | .measureLatch fn _ _ => decide (fn ≤ 16)
  | .measureImageWritten fn _ => decide (fn ≤ 16)
  | .msrResetWrite op => op.agent.wf
  | .tangleLatch _ => true
  | .tangleGraphWritten => true
  | .powerBlockUpdate _ _ _ _ _ _ _ _ => true
  | .quarantineCoreReset _ _ => true
  | .fitUnitHold _ => true
  | .fitHoldTimeout _ => true
  | .fitTestComplete _ _ _ => true
  | .powerInputOn _ => true
  | .powerLoss => true
  | .perstAssert _ => true
  | .perstDeassert => true
  | .bootPhaseComplete _ _ _ _ => true
  | .bootPhaseTimeout _ => true
  | .thmResetArm op _ => op.agent.wf
  | .thmResetGo op _ => op.agent.wf
  | .thmResetArmExpiry _ => true
  | .thimbleWatchdogExpiry _ => true
  | .setEndpointId _ _ => true
  | .getEndpointId _ => true
  | .getMctpVersionSupport _ => true
  | .getMessageTypeSupport _ => true
  | .getTid _ => true
  | .getPldmVersion _ _ => true
  | .getPldmTypes _ => true
  | .getPldmCommands _ _ => true
  | .getSensorReading _ _ => true
  | .getStateSensorReadings _ _ => true
  | .setStateEffecterStates _ _ _ => true
  | .getPdr _ _ => true
  | .setEventReceiver _ _ _ => true
  | .pldmFirmwareUpdate _ _ => true
  | .bypass => true
  | .idcode => true
  | .samplePreload _ => true
  | .extest => true
  | .clamp => true
  | .highz => true
  | .regulatorOvertemp regulator _ => decide (regulator < 1264)
  | .regulatorOvervoltage regulator _ => decide (regulator < 1264)
  | .fwActivationComplete _ => true
  | .completionTimeout fn ring _ => decide (fn ≤ 16) && decide (ring ≤ 1)
  | .ideKm _ _ => true
  | .setdasa _ _ => true
  | .entdaa _ => true
  | .tapReset => true
  | .droopEnd island _ => decide (island < 1264)
  | .revokeClientComplete _ => true

end Sys2Proof
end

