-- ==== Sys2Proof/Tests/Slice0.lean ====
section
/-! SUPPORT. Tests: commands whose operands lie outside their ranges, instruction words written out from the tables, the
spec's worked examples, single commands; and for each obligation a witness: concrete states and operands that meet the
hypotheses of each of its clauses. A hypothesis on an opaque value of Config stands as a premise of its clause. -/

set_option maxRecDepth 100000
set_option Elab.async false

namespace Sys2Proof.Tests.Rules
open Sys2Proof Sys2Proof.Machine

/-- The next state of an outcome. -/
def after : Out → State
  | .next t => t
  | _ => {}

/-! ## Commands whose operands lie outside their ranges -/

theorem test_ill_formed_functions : [Instr.cancel 17, .reduce 17, .vfFlr 0, .vfFlr 17,
    .ringEntryRead 3 2 .failed, .msixHoldoffExpiry 2 16 0].all (fun c => !c.wellFormed) = true := by decide

theorem test_ill_formed_agents : [Instr.obPeekSelWrite { agent := .vf 0, part := .full, value := 0 },
    .ringTailWrite 3 0 { agent := .vf 17, part := .full, value := 0 }].all (fun c => !c.wellFormed) = true := by decide

theorem test_ill_formed_units : [Instr.seamCommit 16, .probeTimer 12 0, .resumeStart 16384, .islandGate 1264,
    .regulatorOvertemp 1264 0].all (fun c => !c.wellFormed) = true := by decide

def someReq : ThimbleReq := { session := 7, reqId := 5 }
/-- A packet to a module, with bytes after its header. -/
def packet (dst : Nat) (body : List Byte) : Packet :=
  { kind := 0, vc := 0, dir := 0, msk := 0, dst := BitVec.ofNat 17 dst, src := 0, part := 0, gaddr := 0, core := 0, cnt := 0, cen := 0, etag := 0
    body := body }

theorem test_ill_formed_lists : [Instr.setRemote someReq 0 true [0], .write 0 (packet 7361 [1]), .write 0 (packet 7361 (List.replicate 272 0))].all (fun c => !c.wellFormed) = true := by decide

theorem test_ill_formed_accesses : [Instr.registerWrite { agent := .pf0, addr := 0x10000000, size := 8, value := 0 },
    .registerWrite { agent := .vf 1, addr := 0x1000000, size := 8, value := 0 },
    .registerWrite { agent := .pf0, addr := 0x1000, size := 0, value := 0 }].all (fun c => !c.wellFormed) = true := by decide

theorem test_well_formed : [Instr.cancel 16, .vfFlr 1, .seamCommit 15, .probeTimer 11 0,
    .registerWrite { agent := .vf 16, addr := 0xFFFFF8, size := 8, value := 0 }].all Instr.wellFormed = true := by decide

/-! ## Instruction words, each bit position as the tables of chapter 3 give it (R83, R86, R105, R113) -/

/-- ADD x9 = x3 + x4 beside BRA with CIMM = −2, GPRED = 7. -/
theorem test_word_add_bra : decodeWord (BitVec.ofNat 256 (1 * 2 ^ 251 + 7 * 2 ^ 247 + 0x3FFFE * 2 ^ 224 +
    1 * 2 ^ 216 + 9 * 2 ^ 205 + 3 * 2 ^ 197 + 4 * 2 ^ 189)) =
    { c := { cop := 1, gpred := 7, cimm := 0x3FFFE }, t := { top := 1, td := 9, ta := 3, tb := 4 } } := by decide +kernel

/-- LD (MOP 1 at bits [135:130]); a hoop operation with HOP 1 at [71:68]. -/
theorem test_word_ld_hoop : (decodeWord (BitVec.ofNat 256 (1 * 2 ^ 130 + 1 * 2 ^ 68))).m.mop = 1 ∧
    (decodeWord (BitVec.ofNat 256 (1 * 2 ^ 130 + 1 * 2 ^ 68))).h.hop = 1 := by decide +kernel

/-! ## Worked examples of the spec -/

/-- Chapter 1: the core on CD2 at row 9, column 3. -/
theorem test_example_core : quadOf 0x293 = 10 ∧ scratchAt 0x293 0 = 0x020052600000 ∧ coreRegAddr 0x293 0x80000 = 0x0300A9380000 ∧
    isScratch 0x02005277FFFF = true ∧ isScratch 0x020052780000 = false := by decide +kernel

/-- Chapter 4: a block of largest magnitude 3.7 converts to E4M3. -/
theorem test_example_qmax : qmaxWord [srcVal 0 0x406CCCCD, srcVal 0 0x3D4CCCCD, srcVal 0 0xBF800000, srcVal 0 0x399D4952] = 0x80 := by
  decide +kernel

theorem test_example_e4m3 : qcvtWord 0 3 [] 0 0x406CCCCD 0x80 = 0x787E ∧ qcvtWord 0 3 [] 0 0x3D4CCCCD 0x80 = 0x784D ∧
    qcvtWord 0 3 [] 0 0xBF800000 0x80 = 0x78F0 ∧ qcvtWord 0 3 [] 0 0x399D4952 0x80 = 0x7812 := by decide +kernel

/-- The same codes decoded: 3.5, 0.05078125, −1.0, 0.00030517578125. -/
theorem test_example_qdec : qdecWord 3 0x7E 0x78 = 0x40600000 ∧ qdecWord 3 0x4D 0x78 = 0x3D500000 ∧ qdecWord 3 0xF0 0x78 = 0xBF800000 ∧
    qdecWord 3 0x12 0x78 = 0x39A00000 := by decide +kernel

/-- Chapter 4: 0.5828125 in a G8 block with M = 127, two draws. -/
theorem test_example_g8 : qcvtWord 0 7 [] 0x40000000 0x3F153333 0x7F = 0x7F25 ∧ qcvtWord 0 7 [] 0xC0000000 0x3F153333 0x7F = 0x7F26 := by
  decide +kernel

/-- The codebook of the K4 example in FP16. -/
def codebook2 : List (BitVec 16) := [0, 0x3000, 0x3400, 0x3800, 0x3A00, 0x3C00, 0x3E00, 0x4000,
  0xB000, 0xB400, 0xB800, 0xBA00, 0xBC00, 0xBE00, 0xC000, 0]

/-- Chapter 4: four elements of a K4 block with M = 123. -/
theorem test_example_k4 : qcvtWord 0 6 codebook2 0 0x3CF5C28F 0x7B = 0x7A05 ∧ qcvtWord 0 6 codebook2 0 0xBC343958 0x7B = 0x7A09 ∧
    qcvtWord 0 6 codebook2 0 0x3C400000 0x7B = 0x7A02 ∧ qcvtWord 0 6 codebook2 0 0x3DB851EC 0x7B = 0x7A07 := by decide +kernel

/-- Chapter 7: address 0x0023_4567_8980 with its block's interleave off and on. -/
theorem test_example_interleave_off : State.reset.homeDie 0x002345678980 = 1 ∧ State.reset.dieOffset 0x002345678980 = 0x8C5678980 ∧
    State.reset.strandOf 0x002345678980 = 0x789 ∧ l2Slice 0x002345678980 = 38 ∧ l2Set 0x002345678980 = 316 := by decide +kernel

def block35 : State := { State.reset with mem := { State.reset.mem with ilv := 2 ^ 35 } }

theorem test_example_interleave_on : block35.homeDie 0x002345678980 = 0 ∧ block35.dieOffset 0x002345678980 = 0x8D159E980 ∧
    block35.strandOf 0x002345678980 = 0x1E9 ∧ block35.sliceOf 0x002345678980 = 38 := by decide +kernel

/-- Chapter 13: module (7, 0, 3, 2, 15) of an 8×8×8×16×16 system, every port up. -/
def module124103 : State := { State.reset with wlk := { State.reset.wlk with
  shape := [3, 3, 3, 4, 4, 0], moduleId := 124103, ports := List.replicate 12 { st := .up } } }

/-- From there to (1, 0, 3, 14, 0) by port 1; from (1, 0, 3, 2, 15) by port 6; from (1, 0, 3, 14, 15) by port 9. -/
theorem test_example_route : module124103.route (packet 7361 []) none = .out 1 0 ∧
    ({ module124103 with wlk := { module124103.wlk with moduleId := 1 + 64 * 3 + 512 * 2 + 8192 * 15 } } : State).route (packet 7361 []) (some 0)
      = .out 6 1 ∧
    ({ module124103 with wlk := { module124103.wlk with moduleId := 1 + 64 * 3 + 512 * 14 + 8192 * 15 } } : State).route (packet 7361 []) (some 7)
      = .out 9 0 := by decide +kernel

/-- Chapter 14: bucket 5 of 16,777,216 elements among 64 replicas. -/
theorem test_example_share : shareLen 64 16777216 = 262144 ∧ ownerOf 64 11 5 = 16 ∧ accBytes 64 { first := 0, elems := 16777216 } = 1114112 := by
  decide +kernel

/-! ## Published vectors of the standards that R1 names -/

/-- FIPS 180-4: "abc". -/
theorem test_sha512 : beNat (sha512Bytes [0x61, 0x62, 0x63]) =
    0xDDAF35A193617ABACC417349AE20413112E6FA4E89A97EA20A9EEEE64B55D39A2192992A274FC1A836BA3C23A3FEEBBD454D4423643CE80E2A9AC94FA54CA49F := by
  decide +kernel

/-- RFC 6979, P-521 and SHA-512: the signature of "sample". -/
theorem test_ecdsa : ecdsaOk
    0x1894550D0785932E00EAA23B694F213F8C3121F86DC97A04E5A7167DB4E5BCD371123D46E45DB6B5D5370A7F20FB633155D38FFA16D2BD761DCAC474B9A2F5023A4
    0x0493101C962CD4D2FDDF782285E64584139C2F91B47F87FF82354D6630F746A28A0DB25741B5B34A828008B22ACC23F924FAAFBD4D33F81EA66956DFEAA2BFDFCF5
    (beNat (sha512Bytes [0x73, 0x61, 0x6D, 0x70, 0x6C, 0x65]))
    0x0C328FAFCBD79DD77850370C46325D987CB525569FB63C5D3BC53950E6D4C5F174E25A1EE9017B5D450606ADD152B534931D7D4E8455CC91F9B15BF05EC36E377FA
    0x0617CCE7CF5064806C467F678D3B4080D6F1CC50AF26CA209417308281B68AF282623EAA63E5B5C0723D8B8C37FF0777B1A20F8CCB1DCCC43997F1EE0E44DA4A67A
      = true := by decide +kernel

/-- CRC-32C of "123456789". -/
theorem test_crc : crc32c ((List.range 9).map fun n => BitVec.ofNat 8 (0x31 + n)) = 0xE3069283 := by decide +kernel

/-! ## Single commands -/

/-- R562: the bus answers once power is good; SETDASA names the static address 0x50 + strap. -/
def busUp : State := { State.reset with boot := { State.reset.boot with phase := 6, powered := true }, mgmt := { State.reset.mgmt with strap := 3 } }

theorem test_setdasa : (after (exec (.setdasa 0x53 0x33) busUp)).mgmt.dynAddr = some 0x33 := by decide +kernel
theorem test_setdasa_other : (after (exec (.setdasa 0x52 0x33) busUp)).mgmt.dynAddr = none := by decide +kernel

/-- One running skein of core 70, at an instruction word. -/
def oneSkein (w : IWord) : State :=
  let k : Skein := { st := .running, bundle := 5, units := 8, lanes := 3, pc := [(0, 64), (1, 64)],
                     x := [(3, 0xFFFFFFFF), (4, 2), (0x103, 5), (0x104, 7)], decoded := [(64, w)] }
  { State.reset with cores := [(70, { skeins := [(6, k)], bundles := [(5, { st := .running })] })] }
def issueOf (w : IWord) : Issue := { core := 70, slot := 6, pc := 64, word := w }
def addWord : IWord := { c := { gpred := 7 }, t := { top := 1, td := 9, ta := 3, tb := 4 } }
def braWord : IWord := { c := { cop := 1, gpred := 7, cimm := 0x3FFFE } }

/-- R90: ADD wraps; lane 0 adds 0xFFFFFFFF and 2, lane 1 adds 5 and 7. -/
theorem test_add_wraps : (((after (exec (.add (issueOf addWord)) (oneSkein addWord))).skein 70 6).pend.map (·.vals)) = [[(0, 1), (1, 12)]] := by
  decide +kernel
theorem test_add_moves : (((after (exec (.add (issueOf addWord)) (oneSkein addWord))).skein 70 6).pc) = [(0, 96), (1, 96)] := by decide +kernel
/-- R85: BRA goes to the word 32 · CIMM bytes on: from 64 to 0, the pc that an unlisted lane holds. -/
theorem test_bra_back : (((after (exec (.bra (issueOf braWord)) (oneSkein braWord))).skein 70 6).pc) = [] := by decide +kernel

/-- R133: a stitch-counter write sets the counter; R17: HOOP_EXP_BASE in units of 64 bytes. -/
theorem test_sht_cnt_write : ((after (exec (.shtCntWrite 70 9 { agent := .firmware, part := .full, value := 5 }) (oneSkein addWord))).core 70).cntVal 9 = 5 := by
  decide +kernel

/-- An empty queue lets time pass; the front command leaves the queue (log entry 1). -/
theorem test_step_takes_front : (after (step { busUp with pending := [.setdasa 0x53 0x33, .entdaa 5] })).pending = [.entdaa 5] := by
  decide +kernel

end Sys2Proof.Tests.Rules

namespace Sys2Proof.Tests.Witness
open Sys2Proof Sys2Proof.Machine

/-! ## States that the parts share -/

def w0 : State := State.reset
/-- Started: PHASE 6, time runs, the management bus answers. -/
def wUp : State := { w0 with
  time := { w0.time with running := true, now := 5000000000 }
  boot := { w0.boot with phase := 6, powered := true, perst := false }
  mgmt := { w0.mgmt with strap := 3 } }
def opW (v : Dword) : RegOp := { agent := .pf0, part := .full, value := v }
/-- 64 bytes with fields (offset, length, value). -/
def mkBytes (n : Nat) (f : List (Nat × Nat × Nat)) : List Byte :=
  (List.range n).map fun i => f.foldl (fun b x => if x.1 ≤ i ∧ i < x.1 + x.2.1 then BitVec.ofNat 8 (x.2.2 / 2 ^ (8 * (i - x.1))) else b) 0
/-- A command entry: opcode, tag 0x77, a status address, and its fields. -/
def ent (fn op : Nat) (f : List (Nat × Nat × Nat)) : InEntry :=
  { fn := fn, ring := 1, addr := 0x10000, bytes := mkBytes 64 ([(0, 1, op), (4, 4, 0x77), (8, 8, 0x9000)] ++ f) }
/-- A state with one entry waiting. -/
def wEnt (s : State) (e : InEntry) : State := { s with hif := { s.hif with inbox := [e] } }
/-- An image of 257 tokens, 64 tokens a page. -/
def wImg : ModelImage := { id := 7, digest := 0x3eda27f97a3238a5817a4147bd31b9632fec7e87d21883ffb0f2855d3cd1d047cee96cd321a9f483dc15570b05e420d607806dd6502854f1bdb8ef7e35e183cf, pageT := 64, vocab := (List.range 257).map fun i => { bytes := if i = 256 then [] else [BitVec.ofNat 8 i], control := i == 256 }, split := List.replicate 30 (some 0), unicode := 15, byteTable := List.range 256, merges := [], codebooks := [], expBase := 0x100, launches := [{ part := 2, lkind := 2, core := 5, desc := 0x40000 }], weights := [] }
def wIs' : State := { wUp with islands := [(3, { cyc := 5, cycFrom := 4000000000, freq := 940 }), (7, { st := .stopped, cyc := 77 }), (1216, { st := .gated }), (1228, { st := .stretching, cyc := 8 })] }
/-- The result of a read that succeeds. -/
def okD {ε α : Type} (d : α) : Except ε α → α
  | .ok a => a
  | .error _ => d

/-! ## Facts that the kernel does not find by evaluation -/

theorem eq_some_getD {α : Type} {x : Option α} (d : α) (h : x.isSome = true) : x = some (x.getD d) := by
  cases x with
  | none => cases h
  | some a => rfl

theorem nth_all {α : Type} {P : α → Prop} {d : α} {l : List α} (hd : P d) (h : ∀ x ∈ l, P x) (i : Nat) : P (nth d l i) := by
  unfold nth
  cases e : l[i]? with
  | none => exact hd
  | some x => exact h x (List.mem_of_getElem? e)

/-- The factory's role is no help to a request that the factory may not make. -/
theorem find_roles (s : State) (x : Session) {allowed : Role → Bool} (h : allowed .factory = false) :
    (s.roles x).find? allowed = (s.keyRoles x).find? allowed := by
  unfold State.roles factoryRole
  split <;> simp [h]

theorem asked_of {s : State} {r : ThimbleReq} {allowed : Role → Bool} {role : Role} (h0 : r.reservedOp = none) (h1 : r.reservedZero = true)
    (h2 : ((s.session r.session).bind fun x => (s.keyRoles x).find? allowed) = some role) (h3 : allowed .factory = false) :
    s.Asked r allowed role := by
  obtain ⟨x, hx, e⟩ := Option.bind_eq_some_iff.mp h2
  exact ⟨h0, h1, x, hx, (find_roles s x h3).trans e⟩

theorem asked_factory {s : State} {r : ThimbleReq} (k : BitVec 512) (h0 : r.reservedOp = none) (h1 : r.reservedZero = true)
    (h2 : ((s.session r.session).bind (·.key)) = some k) (h3 : Config.factoryKey k = true) : s.Asked r isFactory .factory := by
  obtain ⟨x, hx, e⟩ := Option.bind_eq_some_iff.mp h2
  refine ⟨h0, h1, x, hx, ?_⟩
  simp [State.roles, factoryRole, e, h3, isFactory]

theorem lpddrBytes_of (h : Config.orderingCode = 1) : Config.lpddrBytes = 0x4000000000 := by
  unfold Config.lpddrBytes
  rw [h]

theorem between_of {a x y z Y : Nat} (hz : z = Y) : decide (x ≤ a ∧ a < y + z) = decide (x ≤ a ∧ a < y + Y) := by
  subst hz
  rfl

theorem isLpd_of (h : Config.orderingCode = 1) : isLpd = fun a => decide (lpdBase ≤ a ∧ a < lpdBase + 0x4000000000) :=
  funext fun _ => between_of (lpddrBytes_of h)

theorem defaultParams_tail : zeroAt defaultParams 852 172 = true := by
  unfold zeroAt slice
  rw [List.all_eq_true]
  intro x hx
  obtain ⟨k, hk, rfl⟩ := List.mem_map.mp hx
  have hl : (List.replicate 844 (0 : Byte) ++ toBytes 4 0x3F800000).length = 848 := by decide +kernel
  unfold defaultParams
  rw [List.getElem?_append_right (by rw [hl]; omega), hl, List.getElem?_replicate]
  split <;> rfl

theorem eq_ok_okD {ε α : Type} {x : Except ε α} (d : α) (h : x.toBool = true) : x = .ok (okD d x) := by
  cases x with
  | error e => cases h
  | ok a => rfl

theorem exists_ok {ε α : Type} {x : Except ε α} (h : x.toBool = true) : ∃ d, x = .ok d := by
  cases x with
  | error e => cases h
  | ok a => exact ⟨a, rfl⟩

/-- The number of a refusal. -/
def errOf {α : Type} : Except Nat α → Option Nat
  | .error e => some e
  | .ok _ => none

theorem eq_error {α : Type} {x : Except Nat α} {n : Nat} (h : errOf x = some n) : x = .error n := by
  cases x with
  | error e => cases h; rfl
  | ok a => cases h

/-- An address past the largest LPDDR6 that may be fitted. -/
theorem isLpd_high {a : Nat} (h : lpdBase + 0x8000000000 ≤ a) : isLpd a = false := by
  have b : Config.lpddrBytes ≤ 0x8000000000 := by
    unfold Config.lpddrBytes
    split <;> decide
  refine decide_eq_false fun x => ?_
  have := x.2
  unfold lpdTop at this
  omega

theorem agrees_iff (s : State) (ms : List (Option MemberForm)) (i : Nat) : s.Agrees ms i ↔ s.memberOk ms i = true := by
  unfold State.Agrees State.memberOk
  cases nth none ms 0 <;> cases nth none ms i <;> simp [and_assoc, List.all_eq_true]

end Sys2Proof.Tests.Witness

namespace Sys2Proof.Tests.Witness.A
open Sys2Proof Sys2Proof.Machine

def wFw : State := { wUp with mgmt := { wUp.mgmt with update := { active := true, component := some 1 } } }
def wFw2 : State := { wUp with mgmt := { wUp.mgmt with update := { active := true, component := some 1, verified := some { svn := 3, factoryOk := true, owner := none, digest := 7 } } } }
def va1: State := { w0 with boot := { w0.boot with perst := true } }
def va2: State := { w0 with boot := { w0.boot with perst := true, hold := true }, tap := { w0.tap with driving := true } }
def va3: State := { w0 with boot := { w0.boot with perst := false, phase := 0, hold := true }, tap := { w0.tap with driving := true, holds := true } }
def va4 := ((List.range 32).map (BitVec.ofNat 8))

theorem witness_ManagementCommandsAnswered :
    (wUp.mgmtUp = true ∧ wUp.mgmt.dynAddr = none ∧ 83 = 80#7 + BitVec.setWidth 7 wUp.mgmt.strap) ∧
    (wUp.mgmtUp = false ∨ wUp.mgmt.dynAddr.isSome = true ∨ 81 ≠ 80#7 + BitVec.setWidth 7 wUp.mgmt.strap) ∧
    (w0.mgmtUp = false ∨ w0.mgmt.dynAddr.isSome = true) ∧
    (wUp.TakesMsg ∧ 34 ≠ 0 ∧ 34 ≠ 255) ∧
    (0 = 0 ∨ 0 = 255) ∧
    (1 ≤ 8 ∧ 8 ≤ 8) :=
  ⟨by decide +kernel,
    by decide +kernel,
    by decide +kernel,
    by unfold State.TakesMsg; decide +kernel,
    by decide +kernel,
    by decide +kernel⟩

theorem witness_FirmwareUpdateRuns :
    (wUp.TakesMsg ∧ wUp.mgmt.update.active = false ∧ wUp.boot.act = none) ∧
    (wFw.TakesMsg ∧ wFw.mgmt.update.active = true ∧ wFw.mgmt.update.component = some 1 ∧ wFw.mgmt.update.verified = none) ∧
    (wFw2.TakesMsg ∧ wFw2.mgmt.update.active = true ∧ wFw2.mgmt.update.component = some 1 ∧
     wFw2.mgmt.update.verified = some { svn := 3, factoryOk := true, digest := 7 : FwCheck }) ∧
    (FwUpdate.cancelUpdate ≠ FwUpdate.requestUpdate ∧ FwUpdate.cancelUpdate ≠ FwUpdate.unsupported) :=
  ⟨by unfold State.TakesMsg; decide +kernel,
    by unfold State.TakesMsg; decide +kernel,
    by unfold State.TakesMsg; decide +kernel,
    by decide +kernel⟩

theorem witness_FaultyMessagesRefused :
    w0.mgmtUp = false ∧
    BusFault.frame ≠ BusFault.none := by
  refine ⟨?_, ?_⟩ <;> decide +kernel

theorem witness_TestPortInstructions :
    (va1.boot.perst = true ∧ (va1.tap.scanCode = true → va1.thm.otp.debug ≠ 0)) ∧
    (({ va1 with tap := { va1.tap with scanCode := true } } : State).boot.perst = true ∧
     ({ va1 with tap := { va1.tap with scanCode := true } } : State).thm.otp.debug = 0 ∧
     ({ va1 with tap := { va1.tap with scanCode := true } } : State).tap.scanCode = true) ∧
    (wUp.boot.perst = false ∧ wUp.boot.phase ≠ 0) ∧
    (va2.boot.perst = true ∧ va2.tap.driving = true) ∧
    (va3.tap.holds = true ∧ va3.boot.perst = false ∧ va3.boot.phase = 0 ∧ va3.boot.hold = true ∧ va3.boot.recovery = false) := by
  refine ⟨?_, ?_, ?_, ?_, ?_⟩ <;> decide +kernel

theorem witness_StepRunsFrontCommand :
    wUp.pending = [] :=
  by decide +kernel

theorem witness_InstructionWordsRoundTrip :
    va4.length = 32 :=
  by decide +kernel

theorem witness_StepsKeepMemoryCanonical :
    Memory.wf w0.mem.bytes = true :=
  by decide +kernel

theorem witness_StepRunsFrontCommand_command :
    ({ wUp with pending := [.entdaa 5] } : State).pending = [.entdaa 5] := by decide +kernel

end Sys2Proof.Tests.Witness.A

namespace Sys2Proof.Tests.Witness.B
open Sys2Proof Sys2Proof.Machine

def wArm : State := { wUp with boot := { wUp.boot with armedAt := some 4999500000 } }
def wArmOld : State := { wUp with boot := { wUp.boot with armedAt := some 4990000000 } }
def wOff : State := { w0 with thm := { w0.thm with flash := { w0.thm.flash with banks := [{ thimbleOk := true, hubOk := true }, { thimbleOk := true, hubOk := true }] } } }
def wHold : State := { wOff with boot := { wOff.boot with phase := 0, hold := true, perst := true, powered := true } }
def vb1: State := { wHold with boot := { wHold.boot with hold := false } }
def wPh (n : Nat) : State := { wUp with boot := { wUp.boot with phase := n } }
def vb2: State := { wPh 3 with mem := { bytes := [(5, 3), (stackTop + 1, 4)] } }
def vb3: State := { wPh 0 with boot := { (wPh 0).boot with phaseAt := 1 } }

theorem witness_ModuleResetRequests :
    (isWide (opW 165).agent = true ∧ (opW 165).part = Part.full ∧ bit (opW 165).value 8 = false) ∧
    (isWide (opW 256).agent = true ∧ (opW 256).part = Part.full ∧ bit (opW 256).value 8 = true ∧ wArm.boot.armedAt = some 4999500000 ∧
     (wArm.at_ 5000000001).now ≤ 4999500000 + 1000000) ∧
    (∀ (a : Dword), wUp.boot.armedAt = some a → BitVec.toNat a + 1000000 < (wUp.at_ 5000000001).now) ∧
    (wArmOld.boot.armedAt = some 4990000000 ∧ 4990000000 + 1000000 ≤ (wArmOld.at_ 5000000001).now) ∧
    (wUp.boot.powered = true ∧ 2000000 ≤ 2000000) :=
  ⟨by decide +kernel,
    by decide +kernel,
    nofun,
    by decide +kernel,
    by decide +kernel⟩

theorem witness_PowerAndPerst :
    wOff.pwr.inputOk = false ∧
    wUp.boot.powered = true ∧
    100000 ≤ 100000 ∧
    999 < 1000 ∧
    (wHold.boot.perst = true ∧ wHold.boot.phase = 0 ∧ wHold.boot.hold = true ∧ wHold.boot.recovery = false ∧ wHold.tap.holds = false ∧
     wHold.tap.driving = false) := by
  refine ⟨?_, ?_, ?_, ?_, ?_⟩ <;> decide +kernel

theorem witness_BringUpPhases :
    (vb1.boot.phase = 0 ∧ vb1.boot.powered = true ∧ vb1.boot.hold = false ∧ vb1.boot.recovery = false ∧ vb1.pwr.low = false ∧
     vb1.boot.perst = true) ∧
    (wPh 1).boot.phase = 1 ∧
    (wPh 2).boot.phase = 2 ∧
    vb2.boot.phase = 3 ∧
    (wPh 4).boot.phase = 4 ∧
    (wPh 5).boot.phase = 5 ∧
    (vb3.boot.phase < 6 ∧ vb3.boot.powered = true ∧ vb3.boot.recovery = false ∧
     (vb3.boot.phase = 0 → vb3.boot.hold = false ∧ vb3.pwr.low = false) ∧ BitVec.toNat vb3.boot.phaseAt + 0 ≤ (vb3.at_ 5000000001).now) := by
  refine ⟨?_, ?_, ?_, ?_, ?_, ?_, ?_⟩ <;> decide +kernel

end Sys2Proof.Tests.Witness.B

namespace Sys2Proof.Tests.Witness.C
open Sys2Proof Sys2Proof.Machine

def wIs (k : Island) : State := { wUp with islands := [(3, k), (7, { dlimit := 4 }), (1216, k), (1228, k)] }
def vc1 := (wIs { st := .running, cyc := 5, cycFrom := 4000000000, freq := 940 })
def vc2 := (wIs { st := .stretching, cyc := 5, cycFrom := 4000000000, freq := 940, stretchAt := some 4990000000 })
def vc3 := (wIs { st := .stretching, stretchAt := some 4999000000, dlimit := 0 })
def vc5 := (wIs { dlimit := 3, calmAt := 4000000000 })
def wAdj : State := { wIs { st := .running, cyc := 5, cycFrom := 4000000000, freq := 940 } with ob := { w0.ob with entries := [(4, { st := .decode, lastTime := 4999999999, firstDl := 0 }), (6, { st := .prefill, firstDl := 5000000077 })] } }
def vc7: State := { wAdj with wlk := { w0.wlk with gstate := .formed } }
def vc8 := (wIs { st := .stopped, cyc := 5, cycFrom := 4000000000, freq := 940 })
def vc10: State := { wIs { st := .running, cyc := 5, cycFrom := 4000000000, freq := 940 } with cores := [(3, { cnt := [(4, 5)], quar := true }), (5, { quar := true })] }
def vc11: State := { wIs { st := .gated, cyc := 5 } with wlk := { w0.wlk with ports := List.replicate 12 { enable := true } } }
def vc12: State := { wIs { point := 2, tlimit := 7, dlimit := 9 } with ptn := List.replicate 16 { quads := 0xFFFF }, pwr := { w0.pwr with ptnLimit := List.replicate 16 6 } }
def ps : PowerSample := { t := 5000000100, mv := 48000, heldUs := 5, power1ms := 900, power10ms := 800, ptn1ms := [], ptn10ms := [] }
def vc14 := { ps with mv := 60001 }
def vc16 := { ps with mv := 40000, heldUs := 1000 }
def vc19 := { ps with mv := 44000 }
def vc24: State := { wUp with ptn := List.replicate 16 { quads := 1 } }

theorem witness_IslandsStretchStopGateAndRun :
    (3 < 1264 ∧ (vc1.island 3).st = CSt.running) ∧
    (vc2.island 3).st = CSt.stretching ∧
    ((vc3.island 3).stretchAt = some 4999000000 ∧ 4999000000 + 100000 ≤ (vc3.at_ 5000000100).now) ∧
    ((vc5.island 3).stretchAt = none ∧ (vc5.island 3).dlimit ≠ 15 ∧
     BitVec.toNat (vc5.island 3).calmAt + 10000000 ≤ (vc5.at_ 5000000100).now) ∧
    (vc1.island 3).dlimit = 15 ∧
    (isWide (opW 1095216660496).agent = true ∧ (opW 1095216660496).part = Part.full ∧ wAdj.grouped = false) ∧
    vc7.grouped = true ∧
    (3 < 1024 ∧ (vc1.island 3).st = CSt.running ∧ vc1.pwr.idleUs ≠ 0 ∧ (vc1.at_ 5000000100).idleLong 3 = true ∧
     ({ vc1 with time := { vc1.time with busyAt := [(3, 4999999999)] } } : State).idleLong 3 = false) ∧
    (vc8.island 3).st = CSt.stopped ∧
    (1024 ≤ 1216 ∧ 1216 < 1264 ∧ vc1.mayGate 1216 = true ∧ vc1.drained 1216 = true ∧ (vc1.island 1216).st ≠ CSt.gated) ∧
    (vc10.mayGate 3 = true ∧ vc10.drained 3 = true ∧ (vc10.island 3).st ≠ CSt.gated) ∧
    ((vc11.island 1216).st = CSt.gated ∧ vc11.mayGate 1216 = false) ∧
    vc12.cal.job = none := by
  refine ⟨?_, ?_, ?_, ?_, ?_, ?_, ?_, ?_, ?_, ?_, ?_, ?_, ?_⟩ <;> decide +kernel

theorem witness_PowerInputCapsAndLimits :
    (60000 < vc14.mv ∨ vc14.mv < 40000 ∧ 100 ≤ vc14.heldUs) ∧
    (40000 ≤ vc16.mv ∧ vc16.mv < 44000 ∧ 1000 ≤ vc16.heldUs) ∧
    (44000 ≤ vc19.mv ∧ vc19.mv ≤ 56000) ∧
    (289 < 290 ∧ 1000 ≤ 1000) ∧
    (0 < 290 ∧ 10 ≤ 10) ∧
    (isWide (opW 1200).agent = true ∧ (opW 1200).part = Part.full ∧ 1200 ≤ BitVec.toNat (opW 1200).value % 4096 ∧
     BitVec.toNat (opW 1200).value % 4096 ≤ 2600) ∧
    (isWide (opW 1199).agent = true ∧ (opW 1199).part = Part.full ∧
     (BitVec.toNat (opW 1199).value % 4096 < 1200 ∨ 2600 < BitVec.toNat (opW 1199).value % 4096)) ∧
    (isWide (opW 65551).agent = true ∧ (opW 65551).part = Part.full) ∧
    (isWide (opW 0).agent = true ∧ (opW 0).part = Part.full ∧
     (BitVec.toNat (opW 0).value / 2 ^ 52 = 0 ∨ 30 * popc (wUp.part 3).quads ≤ BitVec.toNat (opW 0).value / 2 ^ 52 ∧ BitVec.toNat (opW 0).value / 2 ^ 52 ≤ 200 * popc (wUp.part 3).quads)) ∧
    (3 < 16 ∧ 3 < vc24.pwr.modLimit.length ∧ 3 < vc24.pwr.modStep.length) ∧
    (∃ e, e ∈ [(3, 439)] ++ [(1100, 440)] ∧ 440 ≤ e.2) ∧
    (((∀ (e : Nat × Int), e ∈ [(3, 450)] ++ [] → e.2 < 440) ∨ 999 < 1000) ∧ ((List.map (fun x => x.1) [(3, 450)]).Nodup)) := by
  refine ⟨?_, ?_, ?_, ?_, ?_, ?_, ?_, ?_, ?_, ?_, ?_, ?_⟩ <;> decide +kernel

end Sys2Proof.Tests.Witness.C

namespace Sys2Proof.Tests.Witness.D
open Sys2Proof Sys2Proof.Machine

def eM := ent 0 0x13 [(16, 8, 0), (24, 8, 0x100000), (32, 4, 0x7FFFFFFF), (36, 1, 1), (37, 1, 2), (38, 2, 2000)]
def j0 : MeasureJob := { fn := 0, tag := 9, t := 0, dst := 0, reset := false, repeat_ := 1, periodUs := 0 }
def vd1 := (wEnt { wUp with msr := { w0.msr with jobs := [j0, j0, j0, j0] } } eM)
def eT := ent 0 0x14 [(16, 8, 6000000000), (24, 8, 0x100000), (32, 4, 0x100000), (36, 2, 0xFFFF)]
def vd2 := (wEnt { wUp with msr := { w0.msr with tangle := some { fn := 0, tag := 9, t := 0, dst := 0, cap := 1, parts := 1 } } } eT)
def eC2 := ent 0 0x12 [(16, 4, 0x05000003), (20, 4, 4)]
def vd3 := (wEnt { wUp with cal := { w0.cal with job := some (0, 9, 3, 4) } } eC2)
def eF := ent 0 0x11 [(16, 4, 0x05000000), (20, 4, 4096), (24, 1, 1)]
def eF1 := ent 0 0x11 [(16, 4, 0x01000003), (20, 4, 1021), (24, 1, 0)]
def vd4 := (wEnt { wUp with err := { w0.err with fit := some { fn := 0, tag := 9, cls := 5, next := 1, last := 2, release := false, quarantine := false } } } eF1)
def eW := ent 0 0x15 [(16, 8, 0x4000), (24, 4, 4096), (28, 1, 1)]
def cW : FwCheck := { svn := 1, factoryOk := true, owner := none, digest := 5 }
def vd5 := (wEnt { wUp with boot := { wUp.boot with act := some { fn := some 0, tag := 9, images := [], since := 0 } } } eW)
def vd8 := (ent 3 0x13 [(16, 8, 0), (24, 8, 0x100000), (32, 4, 0x7FFFFFFF), (36, 1, 1), (37, 1, 2), (38, 2, 2000)])
def vd9 := (wEnt wUp (ent 3 0x13 [(16, 8, 0), (24, 8, 0x100000), (32, 4, 0x7FFFFFFF), (36, 1, 1), (37, 1, 2), (38, 2, 2000)]))
def eL := ent 0 0x10 [(16, 8, 0x4000), (24, 8, 4096), (32, 4, 7), (36, 2, 5)]
def ld : Load := { fn := 0, tag := 0x77, src := 0x4000, length := 4096, id := 7, drainMs := 5, drainFirst := false }
def wLd (p : ImgPhase) (l : Load) : State := { wUp with ob := { w0.ob with load := some l, phase := p } }
def vd16 := { ld with drainFirst := true }
def vd17 := (wLd .staging { ld with drainFirst := true })
def vd19 := { wImg with id := 8 }
def vd20 := { (wLd .staging ld) with ob := { (wLd .staging ld).ob with image := some wImg } }
def ldS : Load := { ld with drainAt := some 3, staged := some wImg }
def wGr : State := let s := (wLd .draining ldS).poke 0x4000 (toBytes 4 0 ++ toBytes 4 1 ++ toBytes 4 2); { s with wlk := { s.wlk with gstate := .formed, m := 3, tableAddr := 0x4000 } }
def wGs : State := { wGr with ob := { wGr.ob with memberLoads := [MemberLoad.busy, MemberLoad.staged 7, MemberLoad.staged 7] } }
def vd21 := { ld with drainAt := some 3 }
def vd22 := (wLd .draining { ld with drainAt := some 3 })
def vd23: State := { wUp with cal := { w0.cal with kind := 1, alters := [(5, 2)] } }
def wCal : State := { wUp with cal := { w0.cal with job := some (0, 9, 0x05000003, 4), jobNext := 3 }, hif := { w0.hif with cmds := [{ fn := 0, tag := 9, kind := .calibrate, statusAddr := 0x100, state := 3, code := 0, count := 0, statusAt := 0 }] }, mem := { w0.mem with strands := [(3, { held := true })] } }

theorem witness_LongCommandsStart :
    ((wEnt wUp eM).wlk.deadPending = [] ∧ (wEnt wUp eM).Takes 0 19 measureCodes eM ∧ (wEnt wUp eM).msr.jobs.length < 4) ∧
    (vd1.wlk.deadPending = [] ∧ vd1.Takes 0 19 measureCodes eM ∧ 4 ≤ vd1.msr.jobs.length) ∧
    ((wEnt wUp eT).wlk.deadPending = [] ∧ (wEnt wUp eT).Takes 0 20 tangleCodes eT ∧ (wEnt wUp eT).msr.tangle = none) ∧
    (vd2.wlk.deadPending = [] ∧ vd2.Takes 0 20 tangleCodes eT ∧ vd2.msr.tangle.isSome = true) ∧
    ((wEnt wUp eC2).wlk.deadPending = [] ∧ (wEnt wUp eC2).Takes 0 18 calCodes eC2 ∧ (wEnt wUp eC2).cal.job = none ∧
     (wEnt wUp eC2).calSkips (leAt eC2.bytes 16 4 / 2 ^ 24) (leAt eC2.bytes 16 4 % 2 ^ 24) = false ∧ leAt eC2.bytes 16 4 / 2 ^ 24 ≠ 7) ∧
    (vd3.wlk.deadPending = [] ∧ vd3.Takes 0 18 calCodes eC2 ∧ vd3.cal.job.isSome = true) ∧
    ((wEnt wUp eF).wlk.deadPending = [] ∧ (wEnt wUp eF).Takes 0 17 fitCodes eF ∧ (wEnt wUp eF).err.fit = none) ∧
    (vd4.wlk.deadPending = [] ∧ vd4.Takes 0 17 fitCodes eF1 ∧ vd4.err.fit.isSome = true) ∧
    ((wEnt wUp eW).wlk.deadPending = [] ∧ (wEnt wUp eW).Takes 0 21 fwCodes eW ∧ (wEnt wUp eW).boot.act = none ∧
     (wEnt wUp eW).err.fit = none ∧ (wEnt wUp eW).thm.form = none ∧ (wEnt wUp eW).ob.load = none ∧
     (wEnt wUp eW).mgmt.update.active = false ∧ (wEnt wUp eW).fwCode cW = none) ∧
    (vd5.wlk.deadPending = [] ∧ vd5.Takes 0 21 fwCodes eW ∧ vd5.boot.act.isSome = true) :=
  ⟨by unfold State.Takes; decide +kernel,
    by unfold State.Takes; decide +kernel,
    by unfold State.Takes; decide +kernel,
    by unfold State.Takes; decide +kernel,
    by unfold State.Takes; decide +kernel,
    by unfold State.Takes; decide +kernel,
    by unfold State.Takes; decide +kernel,
    by unfold State.Takes; decide +kernel,
    by unfold State.Takes; decide +kernel,
    by unfold State.Takes; decide +kernel⟩

theorem witness_CommandEntriesRefused :
    (vd9.wlk.deadPending = [] ∧ vd9.front 3 1 = some vd8 ∧ leAt vd8.bytes 0 1 = 19 ∧
     lowest (measureCodes (vd9.dropFront 3 1) vd8) = some 7) :=
  by decide +kernel

theorem witness_ImageLoadRuns :
    (Config.orderingCode = 1 → leAt eL.bytes 24 8 ≤ (wEnt wUp eL).stageSpace.2) ∧
    (Config.orderingCode = 1 → leAt eL.bytes 24 8 ≤ (wEnt wUp eL).stageSpace.1) ∧
    ((wEnt wUp eL).Takes 0 16 loadCodes eL ∧ (wEnt wUp eL).ob.load = none ∧ (wEnt wUp eL).thm.form = none ∧
     (wEnt wUp eL).boot.act = none ∧ (Option.map (fun x => x.id) (wEnt wUp eL).ob.image ≠ some (BitVec.ofNat 32 (leAt eL.bytes 32 4)))) ∧
    (Config.unicodeKnown wImg.unicode = true → vd17.imageCode vd16 wImg = none) ∧
    (vd17.ob.load = some vd16 ∧ vd17.ob.phase = ImgPhase.staging) ∧
    (Config.unicodeKnown wImg.unicode = true → vd20.imageCode ld vd19 = some 16) ∧
    (vd20.ob.load = some ld ∧ vd20.ob.phase = ImgPhase.staging) ∧
    ((wLd ImgPhase.staging ld).ob.load = some ld ∧ (wLd ImgPhase.staging ld).ob.phase = ImgPhase.staging) ∧
    (wGs.ob.load = some ldS ∧ wGs.ob.phase = ImgPhase.draining ∧ wGs.draining = [] ∧
     (∀ i, ldS.staged = some i → ∀ m ∈ wGs.otherLoads wGs.ob.memberLoads, m.2 = MemberLoad.staged i.id)) ∧
    (ldS.staged = some wImg ∧ wGr.ob.load = some ldS ∧ wGr.ob.phase = ImgPhase.draining ∧
     (∃ m, m ∈ wGr.otherLoads wGr.ob.memberLoads ∧ m.2 ≠ MemberLoad.staged wImg.id)) ∧
    (∀ (m : Nat × MemberLoad), m ∈ wGr.otherLoads [MemberLoad.busy, MemberLoad.staged 7, MemberLoad.staged 8] → m.2 ≠ MemberLoad.failed) ∧
    ((wGr.ob.phase = ImgPhase.staging ∨ wGr.ob.phase = ImgPhase.draining) ∧
     (∃ m, m ∈ wGr.otherLoads [MemberLoad.busy, MemberLoad.staged 7, MemberLoad.failed] ∧ m.2 = MemberLoad.failed)) ∧
    (vd22.ob.load = some vd21 ∧ vd22.ob.phase = ImgPhase.draining ∧ vd21.drainAt = some 3 ∧ vd21.drainMs ≠ 0 ∧
     3 + vd21.drainMs * 1000000 ≤ (vd22.at_ 5000000001).now) ∧
    ((wLd ImgPhase.switching ldS).ob.load = some ldS ∧ (wLd ImgPhase.switching ldS).ob.phase = ImgPhase.switching) :=
  ⟨fun e => by
      simp only [State.stageSpace, Config.lpddrGiB, Config.lpddrBytes, State.lpdNamed, e, show (wEnt wUp eL).namedPages = [] from by decide +kernel]
      decide +kernel,
    fun e => by
      simp only [State.stageSpace, Config.lpddrGiB, Config.lpddrBytes, State.lpdNamed, e, show (wEnt wUp eL).namedPages = [] from by decide +kernel]
      decide +kernel,
    by unfold State.Takes; decide +kernel,
    fun e => by
      unfold State.imageCode imgOk
      first | rw [e] | rw [show Config.unicodeKnown vd19.unicode = true from e]
      decide +kernel,
    by decide +kernel,
    fun e => by
      unfold State.imageCode imgOk
      first | rw [e] | rw [show Config.unicodeKnown vd19.unicode = true from e]
      decide +kernel,
    by decide +kernel,
    by decide +kernel,
    by decide +kernel,
    by decide +kernel,
    by decide +kernel,
    by decide +kernel,
    by decide +kernel,
    by decide +kernel⟩

theorem witness_CalibrationAlterations :
    (isWide (opW 268435459).agent = true ∧ (opW 268435459).part = Part.full ∧ BitVec.toNat (opW 268435459).value < 2 ^ 32 ∧
     altOk (BitVec.toNat (opW 268435459).value / 2 ^ 28) (BitVec.toNat (opW 268435459).value / 2 ^ 24 % 16) (BitVec.toNat (opW 268435459).value % 2 ^ 24) = true) ∧
    (isWide (opW 4580179971).agent = true ∧ (opW 4580179971).part = Part.full ∧
     (2 ^ 32 ≤ BitVec.toNat (opW 4580179971).value ∨ altOk (BitVec.toNat (opW 4580179971).value / 2 ^ 28) (BitVec.toNat (opW 4580179971).value / 2 ^ 24 % 16) (BitVec.toNat (opW 4580179971).value % 2 ^ 24) = false)) ∧
    (isWide (opW 65535).agent = true ∧ (opW 65535).part = Part.full ∧
     -altBound vd23.cal.kind.toNat ≤ (BitVec.setWidth 16 (opW 65535).value).toInt ∧
     (BitVec.setWidth 16 (opW 65535).value).toInt ≤ altBound vd23.cal.kind.toNat) ∧
    (wCal.wlk.deadPending = [] ∧ wCal.cal.job = some (0, 9, 83886083, 4) ∧ 83886083 / 2 ^ 24 = 5 ∧
     wCal.calWaits 5 wCal.cal.jobNext = false ∧ wCal.cal.jobNext + 1 ≤ 83886083 % 2 ^ 24 + 4 - 1 ∧ 0 < 4) := by
  refine ⟨?_, ?_, ?_, ?_⟩ <;> decide +kernel

end Sys2Proof.Tests.Witness.D

namespace Sys2Proof.Tests.Witness.E
open Sys2Proof Sys2Proof.Machine

def jM : MeasureJob := { fn := 0, tag := 9, t := 4999000000, dst := 0x100000, reset := true, repeat_ := 2, periodUs := 2000 }
def wJ (j : MeasureJob) : State := { wIs' with msr := { w0.msr with jobs := [j] }, hif := { w0.hif with cmds := [{ fn := 0, tag := 9, kind := .measure, statusAddr := 0x100, state := 3, code := 0, count := 4, statusAt := 0 }] } }
def ve2 := { jM with latched := 1, reset := false }
def ve3 := (wJ { jM with latched := 1, reset := false })
def lat (i : Nat) : Latch := { fn := 0, tag := 9, index := i, t := 4999000000, enable := 0x1F, classes := [], aon := [], ptnRun := {}, cycles := [], stopped := [], quar := [], notfit := [], reset := false }
def ve6 := { jM with latched := 2, written := 1 }
def ve7: State := { wJ { jM with latched := 2, written := 1 } with msr := { (wJ { jM with latched := 2, written := 1 }).msr with latches := [lat 1] } }
def jT : TangleJob := { fn := 0, tag := 9, t := 4999000000, dst := 0x100000, cap := 0x1000, parts := 0xFFFF }
def wT (j : TangleJob) : State := { wIs' with cores := [(5, { skeins := [(3, { st := .running, lanes := 3, pc := [(0, 32), (1, 32)] })] })], msr := { w0.msr with tangle := some j }, hif := { w0.hif with cmds := [{ fn := 0, tag := 9, kind := .tangle, statusAddr := 0x100, state := 3, code := 0, count := 4, statusAt := 0 }] } }
def lc : LiveCmd := { fn := 0, tag := 9, kind := .tangle, statusAddr := 0x100, state := 3, code := 0, count := 4, statusAt := 0 }
def ns : List TNode := [{ kind := 1, unit := 5, detail := List.replicate 24 0 }, { kind := 2, unit := 6, detail := List.replicate 24 1 }]
def ve8 := { jT with graph := some (ns, [(0, 1), (1, 0)]) }
def ve9 := (wT { jT with graph := some (ns, [(0, 1), (1, 0)]) })
def jF : FitJob := { fn := 0, tag := 9, cls := 1, next := 5, last := 5, release := false, quarantine := false }
def wF (j : FitJob) : State := { wT jT with err := { w0.err with fit := some j } }
def ve12 := { jF with held := some (5, 4000000000, false) }
def ve13 := (wF { jF with held := some (5, 4000000000, false) })
def ve14 := { jF with held := some (5, 4000000000, true), holds := 1 }
def ve15 := (wF { jF with held := some (5, 4000000000, true), holds := 1 })
def ve16: State := { wUp with cores := [(4, { held := true }), (5, { quar := true, held := true, quarAt := some 4999999999 })] }
def cW : FwCheck := { svn := 4, factoryOk := true, owner := none, digest := 5 }
def wA (a : FwAct) : State := { wT jT with boot := { wUp.boot with act := some a, hub := (1, 2), thimble := (2, 3) }, ob := { w0.ob with hold := true }, thm := { w0.thm with sessions := [{ id := 1, key := none, established := true, lastAt := 0, keyGen := 1 }] } }
def ve18 := (wA { fn := none, tag := 9, images := [(0, cW)], since := 4999500000 })
def ve19 := (wA { fn := none, tag := 9, images := [(1, cW)], since := 4999500000 })
def ve20 := (wA { fn := some 0, tag := 9, images := [(1, cW)], since := 4998000000 })
def wFlr : State := { wUp with hif := { w0.hif with inbox := [{ fn := 3, ring := 0, addr := 0, bytes := [] }, { fn := 0, ring := 1, addr := 0, bytes := [] }, { fn := 17, ring := 1, addr := 0, bytes := [] }], cmds := [{ lc with fn := 3 }, lc, { lc with fn := 18 }], fns := List.replicate 17 { req := { enable := true }, cmd := { enable := true } } }, ob := { w0.ob with entries := [(4, { st := .decode, part := 2, fn := 3 }), (6, { st := .prefill, part := 5, fn := 6 })], phase := .draining, load := some { fn := 0, tag := 9, src := 0, length := 4, id := 3, drainMs := 0, drainFirst := false }, image := some wImg }, cal := { w0.cal with job := some (0, 9, 3, 4) }, msr := { w0.msr with jobs := [jM], latches := [lat 0], tangle := some jT }, err := { w0.err with fit := some jF } }

theorem witness_MeasuresAndPowerReadings :
    (isWide (opW 21).agent = true ∧ (opW 21).part = Part.full) ∧
    (ve3.job 0 9 = some ve2 ∧ ve2.latched < ve2.repeat_ ∧ 5001000000 = ve2.t + BitVec.ofNat 64 (ve2.latched * ve2.periodUs * 1000) ∧
     5001000000 ≤ (ve3.at_ 5001000100).now) ∧
    (ve7.job 0 9 = some ve6 ∧ ve7.msr.latches = [lat 1] ∧ (lat 1).fn = 0 ∧ (lat 1).tag = 9) := by
  refine ⟨?_, ?_, ?_⟩ <;> decide +kernel

theorem witness_TangleGraphWritten :
    ((wT jT).msr.tangle = some jT ∧ jT.graph = none ∧ BitVec.toNat jT.t ≤ ((wT jT).at_ 5000000100).now) ∧
    (ve9.msr.tangle = some ve8 ∧ ve8.graph = some (ns, [(0, 1), (1, 0)]) ∧ ve9.liveCmd ve8.fn ve8.tag = some lc) := by
  refine ⟨?_, ?_⟩ <;> decide +kernel

theorem witness_FittingHoldsTestsAndReturns :
    ((wF jF).err.fit = some jF ∧ jF.held = none ∧ jF.cls = 1) ∧
    (ve13.err.fit = some ve12 ∧ ve12.held = some (ve12.next, 4000000000, false) ∧ ve12.cls = 1 ∧ ve12.last = ve12.next ∧
     (ve13.core ve12.next).quar = false ∧ 4000000000 + 1000000000 ≤ (ve13.at_ 5000000100).now) ∧
    (ve15.err.fit = some ve14 ∧ ve14.held = some (ve14.next, 4000000000, true) ∧ 0 < ve14.holds ∧ ve14.cls = 1 ∧
     ve14.last = ve14.next ∧ (ve15.core ve14.next).quar = false ∧ ve15.mem.l2Test = none ∧ ve15.wlk.deadPending = []) ∧
    ((ve16.core 5).quar = true ∧ (ve16.core 5).quarAt = some 4999999999 ∧
     ((ve16.core 5).busy = false ∨ 4999999999 + 100000000 ≤ (ve16.at_ 5000000100).now)) := by
  refine ⟨?_, ?_, ?_, ?_⟩ <;> decide +kernel

theorem witness_FirmwareActivates :
    (ve18.boot.act = some { fn := none, tag := 9, images := [(0, cW)], since := 4999500000 : FwAct } ∧
     (ve18.at_ 5000000100).now < BitVec.toNat { fn := none, tag := 9, images := [(0, cW)], since := 4999500000 : FwAct }.since + 2000000 ∧
     { fn := none, tag := 9, images := [(0, cW)], since := 4999500000 : FwAct }.images = [(0, cW)] ∧
     { fn := none, tag := 9, images := [(0, cW)], since := 4999500000 : FwAct }.fn = none) ∧
    (ve19.boot.act = some { fn := none, tag := 9, images := [(1, cW)], since := 4999500000 : FwAct } ∧
     (ve19.at_ 5000000100).now < BitVec.toNat { fn := none, tag := 9, images := [(1, cW)], since := 4999500000 : FwAct }.since + 2000000 ∧
     { fn := none, tag := 9, images := [(1, cW)], since := 4999500000 : FwAct }.images = [(1, cW)] ∧
     { fn := none, tag := 9, images := [(1, cW)], since := 4999500000 : FwAct }.fn = none) ∧
    (ve20.boot.act = some { fn := some 0, tag := 9, images := [(1, cW)], since := 4998000000 : FwAct } ∧
     BitVec.toNat { fn := some 0, tag := 9, images := [(1, cW)], since := 4998000000 : FwAct }.since + 2000000 ≤ (ve20.at_ 5000000100).now ∧
     { fn := some 0, tag := 9, images := [(1, cW)], since := 4998000000 : FwAct }.fn = some 0 ∧
     ve20.liveCmd 0 { fn := some 0, tag := 9, images := [(1, cW)], since := 4998000000 : FwAct }.tag = some lc) := by
  refine ⟨?_, ?_, ?_⟩ <;> decide +kernel

theorem witness_FunctionLevelResets :
    (1 ≤ 3 ∧ 3 ≤ 16 ∧ 3 < wFlr.hif.fns.length ∧ (wFlr.seamPart (3 - 1)).reduce = none ∧ wFlr.wlk.deadPending = []) ∧
    (∀ (p : Nat), (wFlr.seamPart p).reduce = none) :=
  ⟨by decide +kernel,
    nth_all (P := fun x : PtnSeam => x.reduce = none) rfl (by decide +kernel)⟩

end Sys2Proof.Tests.Witness.E

namespace Sys2Proof.Tests.Witness.F
open Sys2Proof Sys2Proof.Machine

def ptns (o : PtnOb) : List PtnOb := (List.range 16).map fun n => if n = 2 then o else {}
def parts (o : Ptn) : List Ptn := (List.range 16).map fun n => if n = 2 then o else {}
def cl5 : Client := { id := 5, part := 2, key := 9, demotePages := 0 }
def fnOn : FnSt := { enabled := true, req := { enable := true }, cmd := { enable := true } }
def sq : Entry := { st := .decode, part := 2, fn := 3, client := 5, tag := 0x55, statusAddr := 0x8000, outTokAddr := 0x20000, outTokCap := 100, maxTokens := 50, position := 9, promptLen := 8, prompt := List.range 8, lastToken := 44, accTokens := 2, pages := [(0, 0x40000000)], kvdir := 0x50000000, sideKib := 5, sideAddr := 0x70000000, temp := 0x3F800000, topP := 0x3F800000, admitTime := 4000000000, lastTime := 4500000000 }
def ob0 : PtnOb := { listBase := 0x8000000, resultBase := 0x9000000, pool := [0x60000000, 0x60200000, 0x60400000] }
def wOb (e : Entry) (o : PtnOb) : State := { wUp with ob := { w0.ob with phase := .active, image := some wImg, entries := [(4, e)], ptn := ptns o, sideSize := 64, sideBase := 0x70000 }, ptn := parts { st := .formed, bound := true, quads := 3 }, thm := { w0.thm with clients := [cl5] }, hif := { w0.hif with fns := List.replicate 17 fnOn } }
def cE (fn op vf tag : Nat) : InEntry := ent fn op [(16, 4, tag), (20, 1, vf)]
def wC (e : Entry) (fn op tag : Nat) (o : PtnOb := ob0) : State := wEnt (wOb e o) (cE fn op (if fn = 0 then 3 else 0) tag)
def vf1 := (wC { sq with st := .queued } 0 1 0x55)
def obRun : PtnOb := { ob0 with phase := .main, step := 8, running := some { result := 0x9000000, lkind := 2, rows := [{ seq := 4, kind := 2, sample := true, toile := false, position := 9, node := 0, parent := 0, depth := 0, token := 44, base := 9 }], publishAt := 4999000000 }, listed := [4] }
def vf2 := (wC { sq with treeN := 3, tree := [(1, 3)] } 3 2 0x55)
def vf3 := (wC { sq with st := .queued } 3 2 0x55)
def vf4 := (wC { sq with st := .queued } 3 3 0x55)
def vf5 := (wC { sq with st := .preempted } 3 3 0x55)
def rE (f : List (Nat × Nat × Nat)) : InEntry := { ent 3 0 ([(1, 1, 3), (2, 2, 5), (16, 8, 0x100000), (24, 4, 3), (28, 4, 20), (32, 8, 0x200000), (40, 4, 30), (44, 4, 0), (48, 4, 1000), (52, 4, 50), (56, 8, 0x300000)] ++ f) with ring := 0 }
def inp3 : List Byte := toBytes 4 7 ++ toBytes 4 8 ++ toBytes 4 9
def wNew : State := { wOb sq ob0 with ob := { (wOb sq ob0).ob with entries := [] } }
def vf6 := ((wEnt wNew (rE [])).freeSeq.getD 0)
def vf7 := (wEnt (wOb sq ob0) (rE [(0, 1, 2)]))
def vf9 := (wOb { sq with st := .admission, promptLen := 0, sideKib := 0 } ob0)
def vf10 := (wOb { sq with st := .queued, sideKib := 0 } ob0)
def vf11: State := { wOb { sq with st := .queued, sideKib := 0 } ob0 with ob := { (wOb { sq with st := .queued, sideKib := 0 } ob0).ob with sideSize := 1 } }
def bd (s : State) := ((s.at_ 5000000100).evaluate 2).build 2
def sqT : State := wOb { sq with toileNext := true } ob0
def vf15 := (bd sqT).1
def vf16 := (bd sqT).2.1
def vf17 := (bd sqT).2.2
def sqR : State := wOb sq { ob0 with treeRows := 4 }
def vf21 := (bd sqR).1
def vf22 := (bd sqR).2.1
def vf23 := (bd sqR).2.2
def sqN : State := wOb { sq with st := .queued } { ob0 with pool := [] }
def vf24 := (bd sqN).1
def vf25 := (bd sqN).2.1
def vf26 := (bd sqN).2.2
def run8 : CutList := { result := 0x9000000, lkind := 2, rows := [{ seq := 4, kind := 2, sample := true, toile := false, position := 9, node := 0, parent := 0, depth := 0, token := 44, base := 9 }], publishAt := 4999000000 }
def wNoE (o : PtnOb) : State := { wOb sq o with ob := { (wOb sq o).ob with entries := [] } }
def vf27 := (wNoE { obRun with listed := [] })
def vf28 := { opW 0x8_00000102 with agent := .vf 3 }
def vf29 := (wOb sq { obRun with listLimit := 5 })
def vf30 := (wNoE { obRun with listLimit := 5 })
def vf31 := (wOb sq { ob0 with phase := .updating })
def vf32 := (wOb sq { obRun with phase := .updating })
def vf33: State := { wOb sq ob0 with ob := { (wOb sq ob0).ob with entries := [(4, { sq with sideN := 0x400, sideBytes := mkBytes 840 [(768, 4, 70)] })] } }
def vf35: State := { wOb sq ob0 with ob := { (wOb sq ob0).ob with accts := [(3, { since := 5 })] } }
def vf36 := { opW 0x0040_0005_0040_8003 with agent := .vf 3 }
def vf37 := (wOb sq { ob0 with preds := [(33, { pred := 9, seen := true, run := 3 })] })
def xl (s : State) (dst : Nat) : State := ((({ s with ptn := parts { st := .formed, bound := true, quads := 3, xlatBase := 0x10000 } }).poke 0x10000 (toBytes 8 0x80000 ++ toBytes 8 1)).poke (0x80000 + 16) (toBytes 8 dst ++ toBytes 8 0x553))
def obW : PtnOb := { ob0 with winPages := 1, winBase := 0x200000 }
def sqD : Entry := { sq with st := .preempted, copy := .demoting, trigger := some .host }
def wX : State := xl (wOb sqD obW) 0x10000200000
def vf38 := (wOb { sqD with resumeAsked := true } obW)
def sqPr : Entry := { sq with st := .preempted, copy := .none, trigger := some .host, resumeAsked := true }
def vf39 := (wOb { sqPr with pages := [(0, 0x10000200000)] } obW)
def vf40 := (wOb { sqPr with pages := [(0, 0x10000200000), (1, 0x10000400000)], copy := .promoting, targets := [0x60000000, 0x60200000] } obW)
def vf41 := (wOb { sqPr with pages := [(0, 0x10000200000)], copy := .promoting, targets := [0x60000000] } obW)
def vf42 := (wOb sq { ob0 with preds := [(33, { pred := 5, seen := true, run := 3 })] })
def vf43 := (wOb sq { ob0 with hyst := 4, preds := [(33, { pred := 9, seen := true, run := 3 })] })
def vf44 := (((wOb sq { obRun with phase := .updating }).at_ 5000000100).afterMain 2 run8)
def vf45 := (wOb sq { ob0 with hystNow := 4, preds := [(33, { pred := 9, seen := true, run := 3 })] })

theorem witness_SequenceCommandsAct :
    ((wC sq 3 1 86).Takes 3 1 seqCmdCodes (cE 3 1 0 86) ∧
     (Instr.cancel 3 = if 1 = 1 then Instr.cancel 3 else if 1 = 2 then Instr.preempt 3 else Instr.resume 3) ∧
     ((wC sq 3 1 86).seqTagged (if 3 = 0 then leAt (cE 3 1 0 86).bytes 20 1 else 3) (BitVec.ofNat 32 (leAt (cE 3 1 0 86).bytes 16 4)) = none)) ∧
    (vf1.Takes 0 1 seqCmdCodes (cE 0 1 3 85) ∧
     (vf1.seqTagged (if 0 = 0 then leAt (cE 0 1 3 85).bytes 20 1 else 0) (BitVec.ofNat 32 (leAt (cE 0 1 3 85).bytes 16 4)) = some 4) ∧
     (vf1.entry 4).live = true ∧ vf1.inStep 4 = false) ∧
    ((wC sq 0 1 85 obRun).Takes 0 1 seqCmdCodes (cE 0 1 3 85) ∧
     ((wC sq 0 1 85 obRun).seqTagged (if 0 = 0 then leAt (cE 0 1 3 85).bytes 20 1 else 0) (BitVec.ofNat 32 (leAt (cE 0 1 3 85).bytes 16 4)) = some 4) ∧
     ((wC sq 0 1 85 obRun).entry 4).live = true ∧ (wC sq 0 1 85 obRun).inStep 4 = true) ∧
    (vf2.Takes 3 2 seqCmdCodes (cE 3 2 0 85) ∧
     (vf2.seqTagged (if 3 = 0 then leAt (cE 3 2 0 85).bytes 20 1 else 3) (BitVec.ofNat 32 (leAt (cE 3 2 0 85).bytes 16 4)) = some 4) ∧
     ((vf2.entry 4).st = ESt.prefill ∨ (vf2.entry 4).st = ESt.decode) ∧ vf2.inRunningStep 4 = false) ∧
    ((wC sq 3 2 85 obRun).Takes 3 2 seqCmdCodes (cE 3 2 0 85) ∧
     ((wC sq 3 2 85 obRun).seqTagged (if 3 = 0 then leAt (cE 3 2 0 85).bytes 20 1 else 3) (BitVec.ofNat 32 (leAt (cE 3 2 0 85).bytes 16 4)) = some 4) ∧
     (((wC sq 3 2 85 obRun).entry 4).st = ESt.prefill ∨ ((wC sq 3 2 85 obRun).entry 4).st = ESt.decode) ∧
     (wC sq 3 2 85 obRun).inRunningStep 4 = true) ∧
    (vf3.Takes 3 2 seqCmdCodes (cE 3 2 0 85) ∧
     (vf3.seqTagged (if 3 = 0 then leAt (cE 3 2 0 85).bytes 20 1 else 3) (BitVec.ofNat 32 (leAt (cE 3 2 0 85).bytes 16 4)) = some 4) ∧
     (vf3.entry 4).st ≠ ESt.prefill ∧ (vf3.entry 4).st ≠ ESt.decode) ∧
    (vf5.Takes 3 3 seqCmdCodes (cE 3 3 0 85) ∧
     (vf5.seqTagged (if 3 = 0 then leAt (cE 3 3 0 85).bytes 20 1 else 3) (BitVec.ofNat 32 (leAt (cE 3 3 0 85).bytes 16 4)) = some 4) ∧
     (vf5.entry 4).st = ESt.preempted) ∧
    (vf4.Takes 3 3 seqCmdCodes (cE 3 3 0 85) ∧
     (vf4.seqTagged (if 3 = 0 then leAt (cE 3 3 0 85).bytes 20 1 else 3) (BitVec.ofNat 32 (leAt (cE 3 3 0 85).bytes 16 4)) = some 4) ∧
     (vf4.entry 4).st ≠ ESt.preempted) :=
  ⟨by unfold State.Takes; decide +kernel,
    by unfold State.Takes; decide +kernel,
    by unfold State.Takes; decide +kernel,
    by unfold State.Takes; decide +kernel,
    by unfold State.Takes; decide +kernel,
    by unfold State.Takes; decide +kernel,
    by unfold State.Takes; decide +kernel,
    by unfold State.Takes; decide +kernel⟩

theorem witness_RequestsAreTaken :
    zeroAt defaultParams 852 172 = true ∧
    (wEnt wNew (rE [])).freeSeq = some vf6 ∧
    ((wEnt wNew (rE [])).front 3 0 = some (rE []) ∧ ((wEnt wNew (rE [])).dropFront 3 0).requestCodes (rE []) = [] ∧
     leAt (rE []).bytes 0 1 % 2 = 0 ∧ leAt (rE []).bytes 56 8 ≠ 0 ∧ samplerOk (slice defaultParams 0 1024) = true ∧
     (wEnt wNew (rE [])).ob.image = some wImg ∧ (wEnt wNew (rE [])).ob.load = none ∧
     admitCodes wImg false (slice inp3 0 (4 * leAt (rE []).bytes 24 4)) (slice defaultParams 0 1024) (BitVec.ofNat 16 (leAt (slice defaultParams 0 1024) 850 2)) = ([], [7, 8, 9])) ∧
    (vf7.front 3 0 = some (rE [(0, 1, 2)]) ∧ lowest ((vf7.dropFront 3 0).requestCodes (rE [(0, 1, 2)])) = some 2) ∧
    ((wEnt (wOb sq ob0) (rE [])).front 3 0 = some (rE []) ∧ ((wEnt (wOb sq ob0) (rE [])).dropFront 3 0).requestCodes (rE []) = []) ∧
    ((vf9.entry 4).st = ESt.admission ∧ (vf9.entry 4).promptLen = 0 ∧ 0 < vf9.ob.sideSize.toNat ∧
     vf9.sideFits 0 (sideNeed (vf9.entry 4).prompt.length) = true) ∧
    (((vf10.entry 4).st = ESt.admission ∨ (vf10.entry 4).st = ESt.queued) ∧ (vf10.entry 4).promptLen ≠ 0 ∧ (vf10.entry 4).sideKib = 0 ∧
     0 < vf10.ob.sideSize.toNat ∧ vf10.sideFits 0 (sideNeed (vf10.entry 4).promptLen) = true) ∧
    (∀ (o : Nat), o < vf11.ob.sideSize.toNat → vf11.sideFits o (sideNeed (vf11.entry 4).promptLen) = false) :=
  ⟨defaultParams_tail,
    eq_some_getD _ (by decide +kernel),
    by decide +kernel,
    by decide +kernel,
    by decide +kernel,
    by decide +kernel,
    by decide +kernel,
    by decide +kernel⟩

theorem witness_ListsAreBuiltAndPublished :
    (((wOb sq obRun).obPart 2).phase ≠ StepPhase.updating ∧ ((wOb sq obRun).at_ 5000000100).mayPublish 2 = false) ∧
    ((vf31.obPart 2).phase = StepPhase.updating ∧ (vf31.obPart 2).running = none) ∧
    ((vf32.obPart 2).phase = StepPhase.updating ∧ (vf32.obPart 2).running = some run8 ∧
     (vf44 = if vf32.takesLists 2 = true then (vf32.at_ 5000000100).stepEnd 2 else if run8.lkind = 1 then (vf32.at_ 5000000100).afterDraft 2 run8 else (vf32.at_ 5000000100).afterMain 2 run8)) ∧
    ((sqR.at_ 5000000100).evaluate 2).build 2 = (vf21, vf22, vf23) ∧
    (2 < sqR.ob.ptn.length ∧ (sqR.at_ 5000000100).mayPublish 2 = true ∧ sqR.takesLists 2 = false ∧ vf22 ≠ []) ∧
    ((sqT.at_ 5000000100).evaluate 2).build 2 = (vf15, vf16, vf17) ∧
    (2 < sqT.ob.ptn.length ∧ (sqT.at_ 5000000100).mayPublish 2 = true ∧ sqT.takesLists 2 = false ∧ vf16 = [] ∧ vf17 ≠ []) ∧
    ((sqN.at_ 5000000100).evaluate 2).build 2 = (vf24, vf25, vf26) ∧
    (2 < sqN.ob.ptn.length ∧ (sqN.at_ 5000000100).mayPublish 2 = true ∧ sqN.takesLists 2 = false ∧ vf25 = [] ∧ vf26 = []) :=
  ⟨by decide +kernel,
    by decide +kernel,
    by decide +kernel,
    rfl,
    by decide +kernel,
    rfl,
    by decide +kernel,
    rfl,
    by decide +kernel⟩

theorem witness_StepsEnd :
    (isWide (opW 8589934594).agent = true ∧ ((wOb sq ob0).obPart 2).running = none) ∧
    (((wOb sq obRun).obPart 2).running = some run8 ∧
     (((wOb sq obRun).obPart 2).phase = StepPhase.updating ∨ (opW 8589934594).part ≠ Part.full ∨ BitVec.extractLsb' 32 32 (opW 8589934594).value ≠ ((wOb sq obRun).obPart 2).step ∨ BitVec.toNat (opW 8589934594).value % 256 ≠ run8.lkind)) ∧
    (2 < vf27.ob.ptn.length ∧ isWide (opW 34359738626).agent = true ∧ (vf27.obPart 2).running = some run8 ∧
     ((vf27.obPart 2).phase = StepPhase.draft ∨ (vf27.obPart 2).phase = StepPhase.main) ∧ (opW 34359738626).part = Part.full ∧
     BitVec.extractLsb' 32 32 (opW 34359738626).value = (vf27.obPart 2).step ∧
     BitVec.toNat (opW 34359738626).value % 256 = run8.lkind ∧ BitVec.getLsbD (opW 34359738626).value 8 = true) ∧
    (vf27.ob.entries = [] ∧ (vf27.obPart 2).listed = [] ∧ (vf27.obPart 2).backup = [] ∧ vf27.grouped = false) ∧
    (2 < (wOb sq obRun).ob.ptn.length ∧ isWide (opW 34359738370).agent = true ∧
     (((wOb sq obRun).obPart 2).phase = StepPhase.draft ∨ ((wOb sq obRun).obPart 2).phase = StepPhase.main) ∧
     (opW 34359738370).part = Part.full ∧ BitVec.extractLsb' 32 32 (opW 34359738370).value = ((wOb sq obRun).obPart 2).step ∧
     BitVec.toNat (opW 34359738370).value % 256 = run8.lkind ∧ BitVec.getLsbD (opW 34359738370).value 8 = false) ∧
    vf28.agent = Agent.vf 3 ∧
    ((vf29.obPart 2).running = some run8 ∧ ((vf29.obPart 2).phase = StepPhase.draft ∨ (vf29.obPart 2).phase = StepPhase.main) ∧
     BitVec.toNat run8.publishAt + (vf29.obPart 2).listLimit * 1000000 ≤ (vf29.at_ 9000000100).now) ∧
    (2 < vf30.ob.ptn.length ∧ (vf30.obPart 2).running = some run8 ∧
     ((vf30.obPart 2).phase = StepPhase.draft ∨ (vf30.obPart 2).phase = StepPhase.main) ∧
     BitVec.toNat run8.publishAt + (vf30.obPart 2).listLimit * 1000000 ≤ (vf30.at_ 9000000100).now ∧ vf30.ob.entries = [] ∧
     (vf30.obPart 2).backup = [] ∧ vf30.grouped = false) := by
  refine ⟨?_, ?_, ?_, ?_, ?_, ?_, ?_, ?_⟩ <;> decide +kernel

theorem witness_TokensAreDelivered :
    ((wOb sq ob0).ob.image = some wImg ∧ ((wOb sq ob0).entry 4).live = true ∧ ((wOb sq ob0).entry 4).outTxtCap = 0 ∧
     ((wOb sq ob0).entry 4).stops = [] ∧ 10 < 1048575 ∧ ((wOb sq ob0).entry 4).stopTokens.contains 70 = false ∧
     ((wOb sq ob0).entry 4).accTokens + 1 < ((wOb sq ob0).entry 4).maxTokens ∧
     ((wOb sq ob0).entry 4).accTokens + 1 < ((wOb sq ob0).entry 4).outTokCap) ∧
    (vf33.ob.image = some wImg ∧ (vf33.entry 4).live = true ∧ (vf33.entry 4).outTxtCap = 0 ∧ (vf33.entry 4).stops = [] ∧
     (258 = 258 ∧ (vf33.entry 4).stopTokens.contains 70 = true ∨ 258 = 259 ∧ (vf33.entry 4).stopTokens.contains 70 = false ∧ (vf33.entry 4).maxTokens ≤ (vf33.entry 4).accTokens + 1)) := by
  refine ⟨?_, ?_⟩ <;> decide +kernel

theorem witness_BookRegistersAndPredictions :
    (2 < vf35.ob.ptn.length ∧ isWide (opW 18014467233185795).agent = true ∧ (opW 18014467233185795).part = Part.full ∧
     BitVec.toNat (opW 18014467233185795).value / 2 ^ 20 % 64 ∈ List.range' 1 32 ∧
     BitVec.getLsbD (opW 18014467233185795).value 14 = false) ∧
    (2 < (wOb sq ob0).ob.ptn.length ∧ isWide (opW 18014419984351235).agent = true ∧ (opW 18014419984351235).part = Part.full ∧
     (BitVec.toNat (opW 18014419984351235).value / 2 ^ 20 % 64 = 0 ∨ 32 < BitVec.toNat (opW 18014419984351235).value / 2 ^ 20 % 64)) ∧
    (isWide (opW 18014419988545539).agent = true ∧ (opW 18014419988545539).part = Part.full ∧
     BitVec.toNat (opW 18014419988545539).value / 2 ^ 32 % 16 ≠ 0) ∧
    BitVec.toNat (opW 18014467233185795).value / 2 ^ 32 % 16 = 0 ∧
    vf36.agent = Agent.vf 3 ∧
    (2 < vf37.ob.ptn.length ∧ 5 = min 4095 (ceilDiv 450000 100000)) ∧
    (tget { : Pred } ((wOb sq ob0).obPart 2).preds 33).seen = false ∧
    (2 < vf42.ob.ptn.length ∧ (tget { : Pred } (vf42.obPart 2).preds 33).seen = true ∧
     (tget { : Pred } (vf42.obPart 2).preds 33).pred ≤ 5) ∧
    ((tget { : Pred } (vf37.obPart 2).preds 33).seen = true ∧ 5 < (tget { : Pred } (vf37.obPart 2).preds 33).pred ∧
     (tget { : Pred } (vf37.obPart 2).preds 33).run + 1 < (vf37.obPart 2).hystNow.toNat) ∧
    (2 < vf45.ob.ptn.length ∧ (tget { : Pred } (vf45.obPart 2).preds 33).seen = true ∧
     5 < (tget { : Pred } (vf45.obPart 2).preds 33).pred ∧
     (vf45.obPart 2).hystNow.toNat ≤ (tget { : Pred } (vf45.obPart 2).preds 33).run + 1) ∧
    (2 < vf43.ob.ptn.length ∧ 34 ≠ 33) ∧
    3 ≠ 2 := by
  refine ⟨?_, ?_, ?_, ?_, ?_, ?_, ?_, ?_, ?_, ?_, ?_, ?_⟩ <;> decide +kernel

theorem witness_PagesAreDemotedAndPromoted :
    (Config.orderingCode = 1 → wX.freeWindow 2 5 1 0x200000 = [(0, 1099513724928)]) ∧
    ((wX.entry 4).st = ESt.preempted ∧ (wX.entry 4).copy = CopySt.demoting ∧ (wX.entry 4).resumeAsked = false ∧
     (wX.entry 4).stackPages = [(0, 1073741824)] ∧ (wX.entry 4).part.toNat < wX.ob.ptn.length ∧
     wX.clientKey (wX.entry 4).client.toNat = some 9) ∧
    ((vf38.entry 4).st = ESt.preempted ∧ (vf38.entry 4).copy = CopySt.demoting ∧
     ((vf38.entry 4).resumeAsked = true ∨ (vf38.entry 4).stackPages = [])) ∧
    (Config.orderingCode = 1 → ((wOb sqPr obW).entry 4).demotedPages = []) ∧
    ((wOb sqPr obW).mayResume 4 = true ∧ 2 ≤ ((wOb sqPr obW).obPart ((wOb sqPr obW).entry 4).part.toNat).pool.length) ∧
    (Config.orderingCode = 1 → (vf39.entry 4).demotedPages ≠ []) ∧
    (Config.orderingCode = 1 → List.length (vf39.entry 4).demotedPages + 2 ≤ (vf39.obPart (vf39.entry 4).part.toNat).pool.length) ∧
    (vf39.mayResume 4 = true ∧ (vf39.entry 4).part.toNat < vf39.ob.ptn.length) ∧
    (Config.orderingCode = 1 → (vf40.entry 4).demotedPages = [(0, 1099513724928), (1, 1099515822080)]) ∧
    (Config.orderingCode = 1 → isLpd 1610612736 = false) ∧
    ((vf40.entry 4).st = ESt.preempted ∧ (vf40.entry 4).copy = CopySt.promoting ∧ (∃ x, x ∈ [(1, 1099515822080)] ∧ x.1 ≠ 0) ∧
     (vf40.entry 4).targets = [1610612736, 1612709888]) ∧
    (Config.orderingCode = 1 → (vf41.entry 4).demotedPages = [(0, 1099513724928)]) ∧
    (Config.orderingCode = 1 → isLpd 1099513724928 = true) ∧
    ((vf41.entry 4).st = ESt.preempted ∧ (vf41.entry 4).copy = CopySt.promoting ∧ (vf41.entry 4).targets = [1610612736]) :=
  ⟨fun e => by
      have hk : wX.clientKey 5 = some 9 := by decide +kernel
      have hw : wX.walk 2 (2097152 + 0 * kvPage) = some { addr := 1099513724928, size := 2097152, typ := 0, w := true, x := false, key := 9 } := by
        simp only [State.walk, State.leafOk, State.leafForm, isLpd_of e]
        decide +kernel
      simp only [State.freeWindow, hk, List.range_succ, List.range_zero, List.nil_append, List.filterMap_cons, List.filterMap_nil, hw, State.lpdHere,
        isLpd_of e]
      decide +kernel,
    by decide +kernel,
    by decide +kernel,
    fun e => by
      simp only [Entry.demotedPages, isLpd_of e]
      decide +kernel,
    by decide +kernel,
    fun e => by
      simp only [Entry.demotedPages, isLpd_of e]
      decide +kernel,
    fun e => by
      simp only [Entry.demotedPages, isLpd_of e]
      decide +kernel,
    by decide +kernel,
    fun e => by
      simp only [Entry.demotedPages, isLpd_of e]
      decide +kernel,
    fun e => by
      rw [isLpd_of e]
      decide +kernel,
    by decide +kernel,
    fun e => by
      simp only [Entry.demotedPages, isLpd_of e]
      decide +kernel,
    fun e => by
      rw [isLpd_of e]
      decide +kernel,
    by decide +kernel⟩

end Sys2Proof.Tests.Witness.F

namespace Sys2Proof.Tests.Witness.G
open Sys2Proof Sys2Proof.Machine

def K : BitVec 512 := 0xABC
def wT (k : BitVec 512) (o : List (BitVec 512)) : State := { wUp with
  thm := { w0.thm with sessions := [{ id := 7, key := some k, established := true, lastAt := 4000000000, keyGen := 0 }], nextSession := 8, otp := { w0.thm.otp with owners := o }, nextKey := 12, spdm := 3 }
  ptn := (List.range 16).map fun n => if n = 2 then { st := .formed, quads := 3 } else if n = 3 then { st := .formed, bound := true, tenantKey := some 0x77, quads := 4 } else {}
  boot := { wUp.boot with thimble := (5, 1), hub := (6, 2) } }
def rq : ThimbleReq := { session := 7, reqId := 0x1234 }
def vg1: State := { wT K [K] with thm := { (wT K [K]).thm with operatorKey := some 0x55, sessions := (wT K [K]).thm.sessions ++ [{ id := 9, key := some 0x55, established := true, lastAt := 0, keyGen := 0 }] } }
def wOp (p : BitVec 5) : State := { wT K [1] with thm := { (wT K [1]).thm with operatorKey := some K, flash := { w0.thm.flash with policy := p } }, cal := { w0.cal with alters := [(3, -4)] } }
def cA : Client := { id := 5, part := 3, demotePages := 4, key := 9 }
def wCl (s : State) : State := { s with thm := { s.thm with clients := [cA, { cA with id := 6 }] }, ob := { s.ob with entries := [(4, { st := .queued, client := 5, part := 3, fn := 4 }), (9, { st := .decode, client := 6, part := 3, fn := 4 })] } }
def vg2: State := { wOp 0 with thm := { (wOp 0).thm with clients := [{ cA with revoking := true }, { cA with id := 6 }] } }
def pol (s : State) (p : BitVec 5) : State := { s with thm := { s.thm with flash := { s.thm.flash with policy := p } } }
def vg3 := { rq with session := 9 }
def ms : List (BitVec 16) := [0, 0, 1, 4, 0x30, 0, 0, 0, 0, 0, 0, 0, 0, 0, 0, 0]
def zs : List Bool := (List.replicate 16 false)
def fF (sc : Bool) : FormSt := { masks := ms, sealed_ := zs, drainMs := 10, since := 4990000000, affected := [2, 4], scrubbing := sc }
def wFm (sc : Bool) : State := { wOp 0 with thm := { (wOp 0).thm with form := some (fF sc) }, ptn := upd (upd (wOp 0).ptn 2 fun x => { x with st := if sc then .scrubbing else .draining }) 4 fun x => { x with st := if sc then .scrubbing else .draining } }
def busyC (s : State) : State := { s with cores := [(70, { skeins := [(3, { st := .running, lanes := 3, pc := [(0, 32), (1, 32)] })], bundles := [(1, { st := .running })] }), (300, { skeins := [(3, { st := .running, lanes := 3, pc := [(0, 32), (1, 32)] })] })] }
def wUb (d : Option UnbindSt) : State := let s := busyC (wCl (wOp 0)); { s with ptn := upd s.ptn 3 fun x => { x with quads := 2, unbind := d, bound := d.isNone, st := if d.isNone then .formed else .draining }, hif := { s.hif with fns := List.replicate 17 { enabled := true, req := { enable := true } } }, ob := { s.ob with entries := [], ptn := upd s.ob.ptn 3 fun o => { o with pool := [0x60000000] } } }
def noB (s : State) : State := { s with cores := [] }
def vg7 := (noB (wUb (some { since := 4000000000, drained := false })))
def vg8 := (let s := wUb (some { since := 4000000000, drained := false }); { s with ob := { s.ob with ptn := upd s.ob.ptn 3 fun o => { o with stepLimitMs := 5 } } })
def vg9 := (wUb (some { since := 4000000000, drained := true }))
def wPre : State := { wT K [K] with thm := { (wT K [K]).thm with sessions := [{ id := 7, key := some K, established := false, lastAt := 4000000000, keyGen := 0 }] } }
def vg10: State := { wT K [K] with hif := { w0.hif with ide := [.secure, .keyed, .keyed, .insecure, .secure] } }
def wR (en : Bool) : State := { wUp with hif := { w0.hif with bar2Size := 4, inbox := [], fns := List.replicate 17 { enabled := true, req := { enable := en, log2 := 5, tail := 9, head := 4, base := 0x100 }, cmd := { enable := en, log2 := 4, tail := 2, head := 1, base := 0x300, consumed := 7 } } } }
def wCfg : State := { wR true with hif := { (wR true).hif with configReady := true } }
def vg11 := { opW 0x10000000B with agent := .vf 3 }
def vg12 := { opW 0x50000001 with agent := .vf 3 }
def vg13: State := { wR false with boot := { wUp.boot with phase := 5 } }
def rb (op : Nat) (st : Nat) : List Byte := mkBytes 64 [(0, 1, op), (4, 4, 0x77), (8, 8, st)]
def wM : State := { wR true with hif := { (wR true).hif with bar2Base := 4, msix := [(18, { until_ := some 4999999000, merged := true }), (19, { until_ := some 4999999000 })], configReady := true }, mem := { w0.mem with bytes := [(0x100000010, 7)], damaged := [0x24000020] } }
def vg14: State := { wM with mem := { w0.mem with damaged := [0x24000020] } }
def vg15: State := { wM with ob := { w0.ob with entries := [(9, { st := .admission, fn := 4, part := 3, statusAddr := 0x50, tag := 4 })] } }
def sess7 : Session := { id := 7, key := some K, established := true, lastAt := 4000000000, keyGen := 0 }
def S1 : State := { wT K [1] with thm := { (wT K [1]).thm with operatorKey := some 0x3 } }
def vg17: State := { wR true with hif := { (wR true).hif with bar2Size := 4 } }
def vg18 := (((wT K [K]).measurement 2).getD [])
def vg19 := { opW 0x5 with agent := .vf 4 }
def vg20 := { opW 0x5 with agent := .vf 3, part := .low }
def vg21: State := { wCfg with hif := { wCfg.hif with fns := List.replicate 17 {} } }

theorem witness_OwnerAndPolicyChange :
    (wT K []).Asked rq isOperator Role.operator ∧
    ((wT K []).thm.otp.owner = none ∧ (wT K []).thm.otp.owners.length < 8 ∧ 3567 ≠ BitVec.allOnes 512) ∧
    (wT K [1, K]).Asked rq isOwner Role.owner ∧
    ((wT K [1, K]).thm.otp.owners.length < 8 ∧ (wT K [1, K]).thm.otp.owner ≠ some 3567) ∧
    (wT K [1, K]).thm.otp.owner = some K ∧
    ((wT K [1, K]).ledgerLow = false ∧ BitVec.toNat { word := 5, keys := [1, 2] : PolicyParams }.word < 32 ∧
     { word := 5, keys := [1, 2] : PolicyParams }.keys.length ≤ 4) ∧
    vg1.Asked rq isOwner Role.owner ∧
    vg1.ledgerLow = false :=
  ⟨asked_of (by decide +kernel) (by decide +kernel) (by decide +kernel) (by decide +kernel),
    by decide +kernel,
    asked_of (by decide +kernel) (by decide +kernel) (by decide +kernel) (by decide +kernel),
    by decide +kernel,
    by decide +kernel,
    by decide +kernel,
    asked_of (by decide +kernel) (by decide +kernel) (by decide +kernel) (by decide +kernel),
    by decide +kernel⟩

theorem witness_LifetimeSettingsAdvance :
    (wT K [K]).Asked rq isOwner Role.owner ∧
    ((wT K [K]).thm.otp.debug < 2 ∧ 2 ≤ 2) ∧
    (wT 119 [K]).Asked rq isTenant (Role.tenant 3) ∧
    ((wT 119 [K]).ledgerLow = false ∧ 3 < (wT 119 [K]).ptn.length) ∧
    ((wT K [K]).thm.otp.minSvn < 5 ∧ 5 ≤ 255 ∧ 5 ≤ 5 ∧ 5 ≤ 6) ∧
    (6 ≤ 255 ∧ (6 ≤ (wT K [K]).thm.otp.minSvn ∨ 5 < 6 ∨ 6 < 6)) ∧
    (wOp 8).Asked rq (fun w => isOwner w || isOperator w) Role.operator ∧
    ((isOperator Role.operator = true → (wOp 8).policyBit 3 = true) ∧ (wOp 8).thm.otp.geoms < 32) ∧
    (wOp 8).thm.otp.alterHash.length < 64 ∧
    (wOp 0).Asked rq (fun w => isOwner w || isOperator w) Role.operator ∧
    (isOperator Role.operator = true ∧ (wOp 0).policyBit 3 = false ∧ (wOp 0).thm.otp.geoms < 32 ∧ (wOp 0).thm.otp.alterHash.length < 64) ∧
    (Config.factoryKey 9 = true → (wT 9 [K]).Asked rq isFactory Role.factory) ∧
    ((wT 9 [K]).ledgerLow = false ∧ (wT 9 [K]).thm.otp.locked = false) ∧
    (wT K [K]).roles { id := 7, key := some K, established := true, lastAt := 4000000000, keyGen := 0 : Session } ≠ [] ∧
    (rq.reservedOp = none ∧ rq.reservedZero = true ∧
     (wT K [K]).session rq.session = some { id := 7, key := some K, established := true, lastAt := 4000000000, keyGen := 0 : Session }) :=
  ⟨asked_of (by decide +kernel) (by decide +kernel) (by decide +kernel) (by decide +kernel),
    by decide +kernel,
    asked_of (by decide +kernel) (by decide +kernel) (by decide +kernel) (by decide +kernel),
    by decide +kernel,
    by decide +kernel,
    by decide +kernel,
    asked_of (by decide +kernel) (by decide +kernel) (by decide +kernel) (by decide +kernel),
    by decide +kernel,
    by decide +kernel,
    asked_of (by decide +kernel) (by decide +kernel) (by decide +kernel) (by decide +kernel),
    by decide +kernel,
    fun e => asked_factory 9 (by decide +kernel) (by decide +kernel) (by decide +kernel) e,
    by decide +kernel,
    by
      unfold State.roles factoryRole
      split
      · simp
      · decide +kernel,
    by decide +kernel⟩

theorem witness_TenantsAndClients :
    (wOp 0).Asked rq isOperator Role.operator ∧
    (2 < 16 ∧ 2 < (wOp 0).ptn.length ∧ ((wOp 0).part 2).st = PSt.formed ∧ ((wOp 0).part 2).bound = false) ∧
    (wCl (wOp 0)).Asked rq isOperator Role.operator ∧
    (((wCl (wOp 0)).part 2).st = PSt.formed ∧ 100 ≤ 65535 ∧ (∀ (x : Client), x ∈ (wCl (wOp 0)).thm.clients → x.id ≠ 8)) ∧
    (wCl (wOp 0)).Asked rq (fun w => isOperator w || isTenant w && (wCl (wOp 0)).ownsClient w 5) Role.operator ∧
    (∃ x, x ∈ (wCl (wOp 0)).thm.clients ∧ x.id = 5 ∧ x.revoking = false) ∧
    ((∃ x, x ∈ vg2.thm.clients ∧ x.id = 5 ∧ x.revoking = true) ∧
     (∀ (e : Nat × Entry), e ∈ vg2.ob.entries → e.2.client = 5 → e.2.live = false)) ∧
    ((∀ (x : Client), x ∈ (wCl (wOp 0)).thm.clients → x.id = 5 → x.revoking = false) ∨ ∃ e, e ∈ (wCl (wOp 0)).ob.entries ∧ e.2.client = 5 ∧ e.2.live = true) ∧
    (pol (wCl (wT 119 [K])) 16).Asked rq isTenant (Role.tenant 3) ∧
    (Config.orderingCode = 1 → ∀ (e : Nat × Entry), e ∈ (pol (wCl (wT 119 [K])) 16).ob.entries → e.2.client = 5 → e.2.demotedPages = []) ∧
    ((pol (wCl (wT 119 [K])) 16).policyBit 4 = true ∧ (∃ x, x ∈ (pol (wCl (wT 119 [K])) 16).thm.clients ∧ x.id = 5 ∧ x.part = 3)) ∧
    (wCl (wT 119 [K])).Asked rq isTenant (Role.tenant 3) ∧
    (wCl (wT 119 [K])).policyBit 4 = false ∧
    ((∀ (x : Client), x ∈ (pol (wCl (wT 119 [K])) 16).thm.clients → x.id = 8 → ∀ (y : Session), (pol (wCl (wT 119 [K])) 16).session rq.session = some y → ¬Role.tenant x.part ∈ (pol (wCl (wT 119 [K])) 16).roles y) ∨ ∃ e, e ∈ (pol (wCl (wT 119 [K])) 16).ob.entries ∧ e.2.client = 8 ∧ e.2.demotedPages ≠ []) ∧
    (∀ (v : Dword), v ∈ [9223372036854906881, 0, 0, 0, 0, 0, 0, 5] → BitVec.toNat v / 2 ^ 34 % 2 ^ 29 = 0) ∧
    (3 < 16 ∧ 3 < (wOp 0).ptn.length ∧ ((wOp 0).part 3).st = PSt.formed ∧ [9223372036854906881, 0, 0, 0, 0, 0, 0, 5].length = 8) :=
  ⟨asked_of (by decide +kernel) (by decide +kernel) (by decide +kernel) (by decide +kernel),
    by decide +kernel,
    asked_of (by decide +kernel) (by decide +kernel) (by decide +kernel) (by decide +kernel),
    by decide +kernel,
    asked_of (by decide +kernel) (by decide +kernel) (by decide +kernel) (by decide +kernel),
    by decide +kernel,
    by decide +kernel,
    by decide +kernel,
    asked_of (by decide +kernel) (by decide +kernel) (by decide +kernel) (by decide +kernel),
    fun e => by
      simp only [Entry.demotedPages, isLpd_of e]
      decide +kernel,
    by decide +kernel,
    asked_of (by decide +kernel) (by decide +kernel) (by decide +kernel) (by decide +kernel),
    by decide +kernel,
    Or.inl fun x hx e => absurd e ((show ∀ x ∈ (pol (wCl (wT 119 [K])) 16).thm.clients, x.id ≠ 8 from by decide +kernel) x hx),
    by simp,
    by decide +kernel⟩

theorem witness_RequestsWithoutRightRefused :
    (wOp 0).session vg3.session = none ∧
    (rq.reservedOp.isSome = true ∨ rq.reservedZero = false ∨ List.find? isTenant (S1.roles sess7) = none) ∧
    S1.session rq.session = some sess7 :=
  ⟨by decide +kernel,
    Or.inr <| Or.inr ((find_roles S1 sess7 (allowed := isTenant) (by decide)).trans (by decide +kernel)),
    by decide +kernel⟩

theorem witness_PartitionsAreFormed :
    ((wOp 0).at_ 5000000100).Asked rq isOperator Role.operator ∧
    (wOp 0).formCodes ms zs 10 = [] ∧
    ((wFm false).thm.form = some (fF false) ∧ (fF false).scrubbing = false ∧
     (∀ (p : Nat), p ∈ (fF false).affected → (wFm false).drainedPart p = true)) ∧
    ((busyC (wFm false)).thm.form = some (fF false) ∧ (∃ p, p ∈ (fF false).affected ∧ (busyC (wFm false)).drainedPart p = false)) ∧
    BitVec.toNat (fF false).since + (fF false).drainMs * 1000000 ≤ ((busyC (wFm false)).at_ 5000000100).now ∧
    ((busyC (wFm true)).thm.form = some (fF true) ∧ (fF true).scrubbing = true ∧ (fF true).affected.Nodup) :=
  ⟨asked_of (by decide +kernel) (by decide +kernel) (by decide +kernel) (by decide +kernel),
    by decide +kernel,
    by decide +kernel,
    by decide +kernel,
    by decide +kernel,
    by decide +kernel⟩

theorem witness_PartitionsAreUnbound :
    ((wUb none).at_ 5000000100).Asked rq isOperator Role.operator ∧
    (3 < 16 ∧ 3 < (wUb none).ptn.length ∧ 3 + 1 < (wUb none).hif.fns.length ∧ ((wUb none).part 3).st = PSt.formed ∧
     ((wUb none).part 3).bound = true) ∧
    ((vg7.part 3).unbind = some { since := 4000000000, drained := false : UnbindSt } ∧
     { since := 4000000000, drained := false : UnbindSt }.drained = false ∧ vg7.drainedPart 3 = true ∧ 3 < vg7.ptn.length) ∧
    ((vg8.part 3).unbind = some { since := 4000000000, drained := false : UnbindSt } ∧
     BitVec.toNat { since := 4000000000, drained := false : UnbindSt }.since + (vg8.obPart 3).limitMs * 1000000 ≤ (vg8.at_ 5000000100).now) ∧
    ((vg9.part 3).unbind = some { since := 4000000000, drained := true : UnbindSt } ∧
     { since := 4000000000, drained := true : UnbindSt }.drained = true ∧ 3 < vg9.ptn.length) :=
  ⟨asked_of (by decide +kernel) (by decide +kernel) (by decide +kernel) (by decide +kernel),
    by decide +kernel,
    by decide +kernel,
    by decide +kernel,
    by decide +kernel⟩

theorem witness_SpdmConnectionAnswers :
    { : SpdmMsg }.valid = true ∧
    ({ : SpdmMsg }.version = 19 ∧ 1 ≤ (wT K [K]).thm.spdm) ∧
    2 ≤ (wT K [K]).thm.spdm ∧
    3 ≤ (wT K [K]).thm.spdm ∧
    ((wT K [K]).measurement 2 = some vg18 ∧ 2 ≠ 255) ∧
    ((9 < 10 ∨ 10 = 0) ∧ 10 ≠ 255) ∧
    ({ : SpdmMsg }.version ≠ 19 ∨ wUp.thm.spdm < 1 ∨ { : SpdmMsg }.valid = false) := by
  refine ⟨?_, ?_, ?_, ?_, ?_, ?_, ?_⟩ <;> decide +kernel

theorem witness_SpdmSessionsAndIde :
    ({ : SpdmMsg }.version = 19 ∧ { : SpdmMsg }.valid = true ∧ 3 ≤ (wT K [K]).thm.spdm ∧ (wT K [K]).thm.sessions.length < 24) ∧
    (3 ≤ wPre.thm.spdm ∧
     (List.find? (fun y => y.id == 7 && !y.established) wPre.thm.sessions = some { id := 7, key := some K, established := false, lastAt := 4000000000, keyGen := 0 : Session })) ∧
    ((wT K [K]).session 7).isSome = true ∧
    (2 < vg10.hif.ide.length ∧ (vg10.session 7).isSome = true) ∧
    (wT K [K]).session 8 = none := by
  refine ⟨?_, ?_, ?_, ?_, ?_⟩ <;> decide +kernel

theorem witness_RingRegistersAreWritten :
    ((wR true).ringWritable (opW 8).agent 0 1 = true ∧ 0 < (wR true).hif.fns.length ∧ (opW 8).part = Part.full ∧
     (((wR true).fn 0).ring 1).enable = true ∧ BitVec.toNat (opW 8).value % 4096 < 2 ^ (((wR true).fn 0).ring 1).log2.toNat) ∧
    (vg13.ringWritable vg12.agent 3 0 = true ∧ 3 < vg13.hif.fns.length ∧ vg12.part = Part.full ∧
     (((vg13.fn 3).ring 0).enable = false ∨ 2 ^ ((vg13.fn 3).ring 0).log2.toNat ≤ BitVec.toNat vg12.value % 4096)) ∧
    ((vg13.fn 3).ring 0).enable = false ∧
    BitVec.extractLsb' 12 52 (opW 8).value ≠ (((wR true).fn 0).ring 1).base ∧
    ((wR false).ringWritable vg11.agent 3 0 = true ∧ 3 < (wR false).hif.fns.length ∧ vg11.part = Part.full ∧
     (((wR false).fn 3).ring 0).enable = false ∧ BitVec.getLsbD vg11.value 0 = true ∧ (wR false).ideHeld 3 = false ∧
     6 ≤ (wR false).boot.phase ∧ 4 ≤ BitVec.toNat vg11.value / 2 % 16 ∧ BitVec.toNat vg11.value / 2 % 16 ≤ 12) ∧
    (BitVec.getLsbD vg12.value 0 = true ∧ (vg13.boot.phase < 6 ∨ vg13.ideHeld 3 = true)) ∧
    (BitVec.getLsbD (opW 8).value 0 = false ∧ 4 ≤ BitVec.toNat (opW 8).value / 2 % 16 ∧ BitVec.toNat (opW 8).value / 2 % 16 ≤ 12 ∧
     ((((wR true).fn 0).ring 1).enable = false ∨ BitVec.toNat (opW 8).value / 2 % 16 = (((wR true).fn 0).ring 1).log2.toNat)) ∧
    (isWide (opW 8).agent = true ∧ BitVec.toNat (opW 8).value / 2 ^ 30 % 2 ^ 17 % (wR true).hif.bar2Size = 0) ∧
    (vg17.ringWritable (opW 5368709120).agent 0 1 = true ∧ 0 < vg17.hif.fns.length ∧ (opW 5368709120).part = Part.full ∧
     isWide (opW 5368709120).agent = true ∧ BitVec.toNat (opW 5368709120).value / 2 ^ 30 % 2 ^ 17 % vg17.hif.bar2Size ≠ 0) ∧
    (wR true).ringWritable vg19.agent 3 0 = false ∧
    ((wR true).ringWritable vg20.agent 3 0 = true ∧ 3 < (wR true).hif.fns.length ∧ vg20.part = Part.low ∧
     (((wR true).fn 3).ring 0).enable = true ∧ BitVec.toNat vg20.value % 4096 < 2 ^ (((wR true).fn 3).ring 0).log2.toNat) ∧
    vg20.part ≠ Part.full := by
  refine ⟨?_, ?_, ?_, ?_, ?_, ?_, ?_, ?_, ?_, ?_, ?_, ?_⟩ <;> decide +kernel

theorem witness_RingEntriesAreRead :
    (wR false).ringReady 3 0 = false ∧
    ((wR true).ringReady 3 1 = true ∧ 3 < (wR true).hif.fns.length ∧ 1 < 2 ∧ (rb 1 36864).length = 64 ∧ leAt (rb 1 36864) 8 8 ≠ 0 ∧
     leAt (rb 1 36864) 8 8 % 8 = 0 ∧ (1 = 1 → opcodeDefined (leAt (rb 1 36864) 0 1) = true)) ∧
    ((wR true).ringReady 3 0 = true ∧ 0 < 2 ∧ (rb 1 0).length = 64 ∧ (leAt (rb 1 0) 8 8 = 0 ∨ leAt (rb 1 0) 8 8 % 8 ≠ 0)) ∧
    ((rb 254 36864).length = 64 ∧ leAt (rb 254 36864) 8 8 ≠ 0 ∧ leAt (rb 254 36864) 8 8 % 8 = 0 ∧
     opcodeDefined (leAt (rb 254 36864) 0 1) = false) := by
  refine ⟨?_, ?_, ?_, ?_⟩ <;> decide +kernel

theorem witness_HostAccessesAnswered :
    ({ : Tlp }.ideFail = false ∧ { : Tlp }.poisoned = false ∧ wM.bar2Shut 0 16 8 { : Tlp } = false ∧
     wM.bar2Reach 0 16 8 false = Sum.inl (4294967312, 0) ∧ wM.damagedAt 4294967312 8 = false) ∧
    (vg14.bar2Shut 0 536871168 8 { : Tlp } = false ∧ vg14.bar2Reach 0 536871168 8 false = Sum.inl (4831838464, 0) ∧
     vg14.damagedAt 4831838464 8 = true) ∧
    (wM.bar2Shut 3 16 8 { : Tlp } = false ∧ wM.bar2Reach 3 16 8 false = Sum.inr 6) ∧
    wM.bar2Shut 0 4294967296 8 { : Tlp } = true ∧
    wM.bar2Shut 0 4294967296 [1, 2, 3, 4].length { : Tlp } = true ∧
    (wM.fnUp 0 = false ∨ wM.bar2GiB 0 * 2 ^ 30 < 4294967296 + 8) ∧
    (wM.bar2Shut 0 16 [1, 2, 3].length { : Tlp } = false ∧ wM.bar2Reach 0 16 [1, 2, 3].length true = Sum.inl (4294967312, 0) ∧
     isStack (4294967312 + [1, 2, 3].length) = true) ∧
    (wM.bar2Shut 3 16 [1, 2, 3].length { : Tlp } = false ∧ wM.bar2Reach 3 16 [1, 2, 3].length true = Sum.inr 6) ∧
    ({ poisoned := true : Tlp }.ideFail = false ∧ { poisoned := true : Tlp }.poisoned = true ∧
     wM.bar2Shut 0 16 8 { poisoned := true : Tlp } = false) ∧
    wM.bar2Shut 0 16 [1, 2, 3].length { poisoned := true : Tlp } = false ∧
    2 < wM.hif.ide.length ∧
    (tget { : MsixSt } wM.hif.msix (1 * 16 + 3) = { until_ := some 4999999000 : MsixSt } ∧
     { until_ := some 4999999000 : MsixSt }.until_ = some 4999999000 ∧ 4999999000 ≤ (wM.at_ 5000000100).time.now) ∧
    ((vg15.entry 9).st = ESt.admission ∧ (vg15.entry 9).fn = 4) ∧
    (wM.ringReady 4 0 = true ∧ 4 < wM.hif.fns.length ∧ 0 < 2) := by
  refine ⟨?_, ?_, ?_, ?_, ?_, ?_, ?_, ?_, ?_, ?_, ?_, ?_, ?_, ?_⟩ <;> decide +kernel

theorem witness_ConfigurationRequestsAnswered :
    (wR true).hif.configReady = false ∧
    (vg21.hif.configReady = true ∧ 3 ≠ 0 ∧ (vg21.fn 3).enabled = false) ∧
    (wCfg.hif.configReady = true ∧ (0 = 0 ∨ (wCfg.fn 0).enabled = true)) ∧
    (0 < wCfg.hif.fns.length ∧ wCfg.wlk.deadPending = []) := by
  refine ⟨?_, ?_, ?_, ?_⟩ <;> decide +kernel

end Sys2Proof.Tests.Witness.G

namespace Sys2Proof.Tests.Witness.H
open Sys2Proof Sys2Proof.Machine

def up0 : Port := { st := .up, width := 3, enable := true, expect := 7, accepted := true, peer := 1, lastBlockAt := 4999000000 }
def wL (f : Port → Port := id) (i : Nat := 3) : State := { wUp with wlk := { w0.wlk with shape := [2, 1, 0, 0, 0, 0], moduleId := 0, ports := (List.range 12).map fun n => if n = i then f up0 else up0 } , ptn := (List.range 16).map fun n => if n = 2 then { st := .formed, bound := true, quads := 3, admission := { en := true, lo := 0, hi := 7 } :: List.replicate 7 {}, land := { en := true, base := 0x100, limit := 0x110 } :: List.replicate 3 {}, xlatBase := 0x10000 } else {}, ob := { w0.ob with ptn := List.replicate 16 {} } }
def bb (k : Nat) (sq : Nat) (f : Block → Block := id) : Block := (f { bkind := BitVec.ofNat 4 k, seq := BitVec.ofNat 12 sq, ack := 0, ackv := false, nak := false, cvc := 0, credits := 0 }).withCrc
def cb (payload : List Byte) : Block := bb 2 0 fun b => { b with payload := payload }
def vh1 := (wL fun p => { p with st := .down })
def vh2 := { bb 1 9 with crc := 0 }
def vh3 := (wL fun p => { p with nakSent := true })
def vh4 := (bb 1 9 fun b => { b with rsv := 1 })
def tx (n : Nat) : TxBlock := { seq := BitVec.ofNat 12 n, packets := [], resends := 0 }
def vh5 := (bb 0 0 fun b => { b with ackv := true, ack := 5 })
def vh7 := (wL fun p => { p with retry := [tx 5] })
def vh8 := (bb 0 0 fun b => { b with cvc := 3, credits := 100 })
def vh9 := (wL fun p => { p with credits := List.replicate 6 1900 })
def tr (st : PortSt) (f : Port → Port := id) : State := wL fun p => f { p with st := st, enable := st != .disabled }
def wIm (m : Nat) : WlkSt := { (wL).wlk with moduleId := BitVec.ofNat 17 m }
def im (port : Nat := ((wL).wlk.farEnd 3).2) : Block := cb (identPayload (wIm ((wL).wlk.farEnd 3).1).sysWord.toNat port)
def lnB (m : BitVec 8) : Block := cb (lanesPayload m)
def vh10 := (tr .training fun p => { p with ownLanes := some 0xFF })
def vh11 := (tr .training fun p => { p with ownLanes := some 0 })
def vh13 := (tr .training fun p => { p with met := true })
def vh14 := (tr .retraining fun p => { p with ownLanes := some 0xFF })
def vh16 := (tr .up fun p => { p with retry := [tx 5] })
def vh17 := (tr .retraining fun p => { p with retrainAt := 4999990000 })
def vh18 := (tr .retraining fun p => { p with peerLanes := some 0xFF })
def vh19 := (tr .retraining fun p => { p with peerLanes := some 0xF0 })
def vh20 := (tr .retraining fun p => { p with retrainAt := 4990000000 })
def vh21 := (tr .down fun p => { p with probes := true, probedAt := 4990000000 })
def vh22 := (tr .down fun p => { p with probes := true, downAt := some 4999000000, peer := 4, retry := [tx 4] })
def vh24 := (opW ((2 + 1 * 8 + 3 * 64) * 2 ^ 44 + 37))
def vh25 := (opW ((2 + 1 * 8 + 3 * 64) * 2 ^ 44 + 64))
def wG (f : WlkSt → WlkSt := id) : State := let s := (wL).poke 0x4000 (toBytes 4 0 ++ toBytes 4 1 ++ toBytes 4 2); { s with wlk := f { s.wlk with gstate := .formed, w := 1, d := 1, m := 3, parts := 4, tableAddr := 0x4000, anchor := 1, deputy := 0, parent := 3 } }
def wTm (f : Port → Port) : State := let s := wG; { s with wlk := { s.wlk with ports := s.wlk.ports.map f } }
def st4 : TimeStamps := { t1 := 100, t2 := 205, t3 := 300, t4 := 401 }
def vh26 := (wTm fun p => { p with stamps := some st4 })
def vh27 := (wG fun w => { w with timeHold := true, timeHoldAt := 4000000000 })
def vh28 := (wTm fun p => { p with timeSent := some 4999000000 })
def gf : RegOp := opW (2 ^ 60 + 2 * 2 ^ 34 + 3 * 2 ^ 26 + 5 * 2 ^ 9 + 4)
def wFo : State := wG fun w => { w with m := 2, gstate := .forming, formAt := some 4999000000, anchor := 0, deputy := 0, dead := [7], lostMembers := [(1, 5)] }
def mf (a : Dword) : MemberForm := { at_ := a, table := wFo.members, shape := wFo.wlk.shape, image := none }
def vh29 := (wG fun w => { w with parts := 0, moduleId := 1 })
def vh30 := (wG fun w => { w with dead := [1] })
def pk (k : Nat) (body : List Byte) : Packet := { kind := BitVec.ofNat 4 k, vc := BitVec.ofNat 3 (vcOf k), dir := 0, msk := 0, dst := 0, src := 1, part := 2, gaddr := BitVec.ofNat 41 (0x20200040 / 64), core := 70, cnt := 9, cen := 1, etag := 0x12345, body := body }
def dat : List Byte := (List.range 64).map fun n => BitVec.ofNat 8 (n + 1)
def wRem : State := { wL with cores := [(70, { cnt := [(9, 100), (10, 7)] })], mem := { w0.mem with bytes := [(0x20200040, 9), (0x20200080, 8)] } }
def vh31 := { pk 1 (toBytes 8 0xF0 ++ List.replicate 8 0 ++ dat) with msk := 1 }
def vh33 := (pk 2 (toBytes 4 33 ++ [1] ++ List.replicate 11 0))
def vh34 := { pk 1 dat with core := 300 }
def tag0 : BitVec 19 := BitVec.ofNat 19 (70 * 512 + 5)
def ua : Unacked := { no := 5, slots := [3], dst := 1, addr := 0x5000 }
def wAk : State := { wL with cores := [(70, { unacked := [ua, { ua with no := 6 }], skeins := [(3, { st := .running })] })] }
def ak (k : Nat) : Packet := { pk k [] with etag := tag0, gaddr := 1, core := 0, cen := 0, cnt := if k = 4 then 2 else 0 }
def vh38 := [{ ua with no := 6 }]
def wBa : State := let s := wG; { s with ob := { s.ob with ptn := List.replicate 16 { phase := .main, step := 8, goStep := 7 } } }
def pb (st p : Nat) : Packet := { pk 5 (toBytes 4 st ++ [BitVec.ofNat 8 p] ++ List.replicate 11 0) with gaddr := 0, core := 0, cnt := 0, cen := 0, etag := 0 }
def vh39 := { pb 8 2 with src := 5 }
def pd (m : Nat) : Packet := { pb 0 0 with kind := 6, body := toBytes 4 m ++ List.replicate 12 0 }
def vh40 := (wG fun w => { w with dead := [6] })
def vh41 := { pb 0 0 with kind := 7, body := [] }
def vh42 := { pb 0 0 with kind := 8, body := toBytes 2 (2 + 16 * 6) ++ List.replicate 14 0 }
def vh43 := (wL fun p => { p with st := .down, probes := true, downAt := some 4999900000, peerPort := 2, retry := [tx 4, tx 5, tx 6] })
def vh44: State := { wAk with wlk := { wAk.wlk with deadTimes := [4990000000] } }
def dsc : Desc := { src := 0x1000, dst := 0x2000, xbytes := 8, ycount := 1, zcount := 1, systride := 0, szstride := 0, dystride := 0, dzstride := 0, dcnt := 70 * 256 + 9, add := 5, scnt := 10, skind := 1, dkind := 0, dmode := 1, scntEn := true, tag := 0x77 }
def shE : ShEntry := { desc := dsc, part := 2, slotNo := 4 }
def wSh (x : ShEntry) : State := let s := ((wL).poke 0x10000 (toBytes 8 0x80000 ++ toBytes 8 1)).poke 0x80000 (toBytes 8 0x20000000 ++ toBytes 8 0x1B); { s with cores := [(70, { engines := [{}, { queues := [{}, {}, { entries := [x, { shE with slotNo := 9 }] }, {}] }], cnt := [(9, 100), (10, 7)], skeins := [(3, { waits := [{ lanes := 1, counter := 9, target := 110, diff := false, satisfied := false }] })] })] }
def rest9 : List ShEntry := [{ shE with slotNo := 9 }]
def shS : ShEntry := { shE with started := true }
def vh46 := { shS with desc := { dsc with dmode := 2 } }
def vh47 := (wSh { shS with desc := { dsc with dmode := 2 } })
def shB : ShEntry := { shS with desc := { dsc with dst := 0x4000000000 } }
def shL : ShEntry := { shS with issued := 1, landed := [0] }
def vh48 := { shL with desc := { dsc with dmode := 2, scntEn := false } }
def vh49 := (wSh { shL with desc := { dsc with dmode := 2, scntEn := false } })
def vh50 := { shL with done := true }
def vh51 := (wSh { shL with done := true })
def shF : ShEntry := { shS with fault := some (0x12, 0x2000), desc := { dsc with scntEn := false } }
def vh53 := { opW 111 with agent := .vf 3 }

theorem witness_BlocksAreReceived :
    (3 < 12 ∧ 3 < vh1.wlk.ports.length ∧ vh1.wlk.deadPending = [] ∧ ((vh1.port 3).st = PortSt.disabled ∨ (vh1.port 3).st = PortSt.down)) ∧
    (3 < wL.wlk.ports.length ∧ wL.wlk.deadPending = [] ∧ (wL.port 3).st = PortSt.up ∧ (wL.port 3).queue = [] ∧ bareBlock (bb 1 7) ∧
     (bb 1 7).bkind = 1 ∧ (bb 1 7).seq = (wL.port 3).expect) ∧
    (bareBlock (bb 1 9) ∧ (bb 1 9).bkind = 1 ∧ (bb 1 9).seq ≠ (wL.port 3).expect ∧ (wL.port 3).nakSent = false) ∧
    vh2.crcOk = false ∧
    (3 < vh3.wlk.ports.length ∧ vh3.wlk.deadPending = [] ∧ (vh3.port 3).st = PortSt.up ∧ (vh3.port 3).queue = [] ∧
     (vh3.port 3).nakSent = true) ∧
    (vh4.crcOk = true ∧ blockOk vh4 = false) ∧
    (3 < vh7.wlk.ports.length ∧ vh7.wlk.deadPending = [] ∧ (vh7.port 3).st = PortSt.up ∧ (vh7.port 3).queue = [] ∧ blockOk vh5 = true ∧
     vh5.ackv = true ∧ vh5.nak = false ∧ vh5.credits = 0 ∧ (vh7.port 3).retry = [tx 5] ∧ (tx 5).seq = vh5.ack) ∧
    (3 < vh9.wlk.ports.length ∧ vh9.wlk.deadPending = [] ∧ (vh9.port 3).st = PortSt.up ∧ (vh9.port 3).queue = [] ∧ blockOk vh8 = true ∧
     vh8.ackv = false ∧ vh8.nak = false ∧ vh8.cvc.toNat < (vh9.port 3).credits.length ∧
     nth 0 (vh9.port 3).credits vh8.cvc.toNat + vh8.credits.toNat ≤ 2048) :=
  ⟨by decide +kernel,
    by unfold bareBlock quietBlock; decide +kernel,
    by unfold bareBlock quietBlock; decide +kernel,
    by decide +kernel,
    by decide +kernel,
    by decide +kernel,
    by decide +kernel,
    by decide +kernel⟩

theorem witness_PortsTrainAndRetrain :
    (3 < 12 ∧ 3 < (tr PortSt.disabled).wlk.ports.length ∧ ((tr PortSt.disabled).port 3).queue = [] ∧
     ((tr PortSt.disabled).port 3).seamQ = [] ∧ (tr PortSt.disabled).wlk.deadPending = [] ∧ (tr PortSt.disabled).grouped = false ∧
     isWide (opW 1).agent = true ∧ (opW 1).part = Part.full ∧ BitVec.getLsbD (opW 1).value 0 = true ∧
     ((tr PortSt.disabled).port 3).enable = false) ∧
    (3 < vh10.wlk.ports.length ∧ (vh10.port 3).queue = [] ∧ (vh10.port 3).seamQ = [] ∧ vh10.wlk.deadPending = [] ∧
     vh10.grouped = false ∧ blockOk (im (3 / 2 * 2 + (1 - 3 % 2))) = true ∧ (im (3 / 2 * 2 + (1 - 3 % 2))).isCtl 1 = true ∧
     ((vh10.port 3).st = PortSt.training ∨ (vh10.port 3).st = PortSt.miswired) ∧
     vh10.identOk 3 (identOf (im (3 / 2 * 2 + (1 - 3 % 2)))) = true ∧
     ((vh10.port 3).ownLanes = none ∨ (vh10.port 3).ownLanes = some 255)) ∧
    (3 < vh11.wlk.ports.length ∧ (vh11.port 3).queue = [] ∧ (vh11.port 3).seamQ = [] ∧ vh11.wlk.deadPending = [] ∧
     vh11.grouped = false ∧ ((vh11.port 3).st = PortSt.training ∨ (vh11.port 3).st = PortSt.miswired) ∧
     vh11.identOk 3 (identOf (im (3 / 2 * 2 + (1 - 3 % 2)))) = true ∧ (vh11.port 3).ownLanes = some 0) ∧
    (3 < (tr PortSt.training).wlk.ports.length ∧ ((tr PortSt.training).port 3).queue = [] ∧ ((tr PortSt.training).port 3).seamQ = [] ∧
     (tr PortSt.training).wlk.deadPending = [] ∧ (tr PortSt.training).grouped = false ∧ blockOk (im 9) = true ∧ (im 9).isCtl 1 = true ∧
     (((tr PortSt.training).port 3).st = PortSt.training ∨ ((tr PortSt.training).port 3).st = PortSt.miswired) ∧
     (tr PortSt.training).identOk 3 (identOf (im 9)) = false) ∧
    (3 < (tr PortSt.up).wlk.ports.length ∧ ((tr PortSt.up).port 3).queue = [] ∧ ((tr PortSt.up).port 3).seamQ = [] ∧
     (tr PortSt.up).wlk.deadPending = [] ∧ (tr PortSt.up).grouped = false ∧ (lnB 63).isCtl 2 = true ∧ quietBlock (lnB 63) ∧
     ((tr PortSt.up).port 3).st = PortSt.up) ∧
    (blockOk (lnB 63) = true ∧ ((tr PortSt.training).port 3).st = PortSt.training) ∧
    (3 < vh14.wlk.ports.length ∧ (vh14.port 3).queue = [] ∧ (vh14.port 3).seamQ = [] ∧ vh14.wlk.deadPending = [] ∧
     vh14.grouped = false ∧ (lnB 255).isCtl 2 = true ∧ blockOk (lnB 255) = true ∧ (vh14.port 3).st = PortSt.retraining ∧
     (vh14.port 3).ownLanes = some 255 ∧ 255 &&& trainedOf (lnB 255) = 255 ∧ ((vh14.port 3).width = 3 ∨ (vh14.port 3).renew = true)) ∧
    (3 < vh16.wlk.ports.length ∧ (vh16.port 3).queue = [] ∧ (vh16.port 3).seamQ = [] ∧ vh16.wlk.deadPending = [] ∧
     vh16.grouped = false ∧ isWide (opW 0).agent = true ∧ (opW 0).part = Part.full ∧ (vh16.port 3).st = PortSt.up ∧
     (vh16.port 3).retry ≠ [] ∧ BitVec.toNat (vh16.port 3).lastBlockAt + 100000 ≤ (vh16.at_ 5000000100).now) ∧
    ((vh10.port 3).st = PortSt.training ∧ (vh10.port 3).met = false) ∧
    (3 < vh13.wlk.ports.length ∧ (vh13.port 3).queue = [] ∧ (vh13.port 3).seamQ = [] ∧ vh13.wlk.deadPending = [] ∧
     vh13.grouped = false ∧ (vh13.port 3).st = PortSt.training ∧ (vh13.port 3).met = true) ∧
    (3 < vh17.wlk.ports.length ∧ (vh17.port 3).queue = [] ∧ (vh17.port 3).seamQ = [] ∧ vh17.wlk.deadPending = [] ∧
     vh17.grouped = false ∧ (vh17.port 3).st = PortSt.retraining ∧ (vh17.port 3).peerLanes = none) ∧
    (3 < vh18.wlk.ports.length ∧ (vh18.port 3).queue = [] ∧ (vh18.port 3).seamQ = [] ∧ vh18.wlk.deadPending = [] ∧
     vh18.grouped = false ∧ (vh18.port 3).st = PortSt.retraining ∧ (vh18.port 3).peerLanes = some 255 ∧ (vh18.port 3).width = 3 ∧
     255 &&& 255 = 255) ∧
    15 &&& 255 = 15 ∧
    (3 < vh19.wlk.ports.length ∧ (vh19.port 3).queue = [] ∧ (vh19.port 3).seamQ = [] ∧ vh19.wlk.deadPending = [] ∧
     vh19.grouped = false ∧ (vh19.port 3).st = PortSt.retraining ∧ (vh19.port 3).peerLanes = some 240 ∧ (vh19.port 3).width = 3 ∧
     15 &&& 240 = 0) ∧
    (3 < vh20.wlk.ports.length ∧ (vh20.port 3).queue = [] ∧ (vh20.port 3).seamQ = [] ∧ vh20.wlk.deadPending = [] ∧
     vh20.grouped = false ∧ (vh20.port 3).st = PortSt.retraining ∧ vh20.Connected (some 3) ∧
     BitVec.toNat (vh20.port 3).retrainAt + 1000000 ≤ (vh20.at_ 5000000100).now) ∧
    ((cb downPayload).isCtl 4 = true ∧ quietBlock (cb downPayload) ∧ (tr PortSt.up).Connected (some 3)) ∧
    (3 < (tr PortSt.miswired).wlk.ports.length ∧ ((tr PortSt.miswired).port 3).queue = [] ∧ ((tr PortSt.miswired).port 3).seamQ = [] ∧
     (tr PortSt.miswired).wlk.deadPending = [] ∧ (tr PortSt.miswired).grouped = false ∧ blockOk (cb downPayload) = true ∧
     (((tr PortSt.miswired).port 3).st = PortSt.training ∨ ((tr PortSt.miswired).port 3).st = PortSt.miswired)) ∧
    (BitVec.getLsbD (opW 0).value 0 = false ∧ (vh16.port 3).enable = true ∧ vh16.Connected (some 3)) ∧
    (3 < vh21.wlk.ports.length ∧ (vh21.port 3).queue = [] ∧ (vh21.port 3).seamQ = [] ∧ vh21.wlk.deadPending = [] ∧
     vh21.grouped = false ∧ (vh21.port 3).probing = true ∧ vh21.Connected (some 3) ∧
     BitVec.toNat (vh21.port 3).probedAt + 50000 ≤ (vh21.at_ 5000000100).now) :=
  ⟨by decide +kernel,
    by decide +kernel,
    by decide +kernel,
    by decide +kernel,
    by unfold quietBlock; decide +kernel,
    by decide +kernel,
    by decide +kernel,
    by decide +kernel,
    by decide +kernel,
    by decide +kernel,
    by decide +kernel,
    by decide +kernel,
    by decide +kernel,
    by decide +kernel,
    by unfold State.Connected; decide +kernel,
    by unfold State.Connected quietBlock; decide +kernel,
    by decide +kernel,
    by unfold State.Connected; decide +kernel,
    by unfold State.Connected; decide +kernel⟩

theorem witness_PeersShapeAndTime :
    vh22.Alone ∧
    (3 < 12 ∧ 3 < vh22.wlk.ports.length ∧ (vh22.port 3).probing = true ∧ (vh22.port 3).downAt = some 4999000000 ∧
     4999000000 + 500000 ≤ (vh22.at_ 5000000100).now ∧ vh22.wlk.dead.contains (vh22.port 3).peer.toNat = false) ∧
    ((∀ (p : Port), p ∈ w0.wlk.ports → p.st = PortSt.disabled) ∧
     ((List.map (fun d => if d = 5 then BitVec.toNat vh24.value / 2 ^ 59 % 2 else BitVec.toNat vh24.value / 2 ^ (44 + 3 * d) % 8) (List.range 6)).sum ≤ 17) ∧
     (BitVec.toNat vh24.value % 2 ^ 17 < 2 ^ (List.map (fun d => if d = 5 then BitVec.toNat vh24.value / 2 ^ 59 % 2 else BitVec.toNat vh24.value / 2 ^ (44 + 3 * d) % 8) (List.range 6)).sum)) ∧
    ((∃ p, p ∈ w0.wlk.ports ∧ p.st ≠ PortSt.disabled) ∨ 17 < (List.map (fun d => if d = 5 then BitVec.toNat vh25.value / 2 ^ 59 % 2 else BitVec.toNat vh25.value / 2 ^ (44 + 3 * d) % 8) (List.range 6)).sum ∨ 2 ^ (List.map (fun d => if d = 5 then BitVec.toNat vh25.value / 2 ^ 59 % 2 else BitVec.toNat vh25.value / 2 ^ (44 + 3 * d) % 8) (List.range 6)).sum ≤ BitVec.toNat vh25.value % 2 ^ 17) ∧
    (vh26.grouped = true ∧ vh26.isAnchor = false ∧ vh26.wlk.parent.toNat < 12 ∧ vh26.wlk.parent.toNat < vh26.wlk.ports.length ∧
     (vh26.port vh26.wlk.parent.toNat).st = PortSt.up) ∧
    (wL.grouped = false ∨ wL.isAnchor = true ∨ (wL.port wL.wlk.parent.toNat).st ≠ PortSt.up) ∧
    (vh27.wlk.timeHold = true ∧ BitVec.toNat vh27.wlk.timeHoldAt + 100000000 ≤ (vh27.at_ 5000000100).now) ∧
    (3 < vh28.wlk.ports.length ∧ vh28.wlk.deadPending = [] ∧ quietBlock (cb (timePayload 77 88)) ∧
     (cb (timePayload 77 88)).isCtl 3 = true ∧ (vh28.port 3).st = PortSt.up ∧ (vh28.port 3).queue = []) :=
  ⟨⟨by decide +kernel, nth_all (P := fun x : PtnSeam => x.reduce = none) rfl (by decide +kernel), by decide +kernel, by decide +kernel⟩,
    by decide +kernel,
    by decide +kernel,
    by decide +kernel,
    by decide +kernel,
    by decide +kernel,
    by decide +kernel,
    by unfold quietBlock; decide +kernel⟩

theorem witness_GroupsFormAndEnd :
    (isWide gf.agent = true ∧ gf.part = Part.full ∧ BitVec.getLsbD gf.value 60 = true ∧
     (wL.wlk.gstate = GSt.none ∨ wL.wlk.gstate = GSt.refused)) ∧
    (wG.wlk.gstate ≠ GSt.none ∧ wG.wlk.gstate ≠ GSt.refused) ∧
    (∀ (j : Nat), j < 1 → wFo.Agrees [some (mf 4999000000)] j) ∧
    ¬wFo.Agrees [some (mf 4999000000)] 1 ∧
    ((∃ m, nth none [some (mf 4999000000)] 1 = some m) ∨ BitVec.toNat (wFo.wlk.formAt.getD 0) + 1000000000 ≤ (wFo.at_ 6000000000).now) ∧
    (wFo.wlk.gstate = GSt.forming ∧ wFo.loading = false ∧ 1 < wFo.groupSize) ∧
    (nth none [some (mf 4999000000)] 1 = none ∧ (wFo.at_ 5000000100).now < BitVec.toNat (wFo.wlk.formAt.getD 0) + 1000000000) ∧
    (∀ (j : Nat), j < wFo.groupSize → wFo.Agrees [some (mf 4999000000), some (mf 4999000100)] j) ∧
    5000000050 ≤ (wFo.at_ 5000000100).time.now ∧
    (wFo.at_ 5000000100).time.now < 5000000500 ∧
    (wG.wlk.gstate ≠ GSt.forming ∨ wG.loading = true) ∧
    (isWide (opW (2 ^ 59)).agent = true ∧ (opW (2 ^ 59)).part = Part.full ∧ BitVec.getLsbD (opW (2 ^ 59)).value 59 = true ∧
     (wG.grouped = true ∨ wG.wlk.gstate = GSt.stopped)) ∧
    (vh29.grouped = true ∧ vh29.liveMember 2 = true ∧ 2 ≠ vh29.myId ∧ 2 ≠ vh29.wlk.anchor.toNat ∧ 2 ≠ vh29.wlk.deputy.toNat ∧
     vh29.wlk.w = 1 ∧ vh29.wlk.d = 1 ∧ vh29.wlk.parts = 0 ∧ vh29.wlk.deadPending = []) ∧
    (vh30.grouped = true ∧ vh30.liveMember vh30.wlk.anchor.toNat = false ∧ vh30.liveMember vh30.wlk.deputy.toNat = true ∧
     vh30.Connected none ∧ vh30.wlk.deadPending = []) :=
  ⟨by decide +kernel,
    by decide +kernel,
    fun j hj => (agrees_iff _ _ _).mpr ((show ∀ j < 1, wFo.memberOk [some (mf 4999000000)] j = true from by decide +kernel) j hj),
    fun e => absurd ((agrees_iff _ _ _).mp e) (by decide +kernel),
    Or.inr (by decide +kernel),
    by decide +kernel,
    by decide +kernel,
    fun j hj => (agrees_iff _ _ _).mpr ((show ∀ j < wFo.groupSize, wFo.memberOk [some (mf 4999000000), some (mf 4999000100)] j = true from by decide +kernel) j hj),
    by decide +kernel,
    by decide +kernel,
    by decide +kernel,
    by decide +kernel,
    by decide +kernel,
    by unfold State.Connected; decide +kernel⟩

theorem witness_RemoteWritesLandAndAreAnswered :
    (wRem.Connected none ∧ wRem.wlk.deadPending = [] ∧ 3 < wRem.wlk.ports.length ∧ wRem.Arrives 3 vh31 1 ∧ wRem.peerReasons vh31 = [] ∧
     isStack (vh31.gaddr.toNat * 64) = true) ∧
    (wRem.Arrives 3 vh33 2 ∧ wRem.peerReasons vh33 = []) ∧
    (wRem.Arrives 3 vh34 1 ∧ lowest (wRem.peerReasons vh34) = some 5) ∧
    (tagKind (ak 3).etag = 0 ∧ wRem.Arrives 3 (ak 3) 3 ∧ ((ak 3).etag ≠ listTag ∨ ¬(ak 3).src.toNat ∈ wRem.wlk.listOut) ∧
     (List.filter (fun u => u.no == tagEntry (ak 3).etag && u.dst == (ak 3).src.toNat) (wRem.core (tagCore (ak 3).etag)).unacked = [])) ∧
    (3 < wAk.wlk.ports.length ∧ wAk.Arrives 3 (ak 3) 3 ∧ ackN (ak 3) = 1 ∧ (wAk.core (tagCore (ak 3).etag)).unacked = ua :: vh38 ∧
     ua.no = tagEntry (ak 3).etag ∧ ua.dst = (ak 3).src.toNat) ∧
    (tagKind (ak 4).etag = 0 ∧ wAk.Arrives 3 (ak 4) 4 ∧ ackN (ak 4) = 1 ∧ (wAk.core (tagCore (ak 4).etag)).unacked = ua :: vh38 ∧
     ua.no = tagEntry (ak 4).etag ∧ ua.dst = (ak 4).src.toNat) :=
  ⟨by unfold State.Connected State.Arrives; decide +kernel,
    by unfold State.Arrives; decide +kernel,
    by unfold State.Arrives; decide +kernel,
    by unfold State.Arrives; decide +kernel,
    by unfold State.Arrives; decide +kernel,
    by unfold State.Arrives; decide +kernel⟩

theorem witness_BarriersDeathsAndProbes :
    (3 < wBa.wlk.ports.length ∧ wBa.wlk.deadPending = [] ∧ wBa.Arrives 3 (pb 8 2) 5 ∧ 2 = leAt (pb 8 2).body 4 1 % 16 ∧
     2 < wBa.ob.ptn.length ∧ wBa.liveMember (pb 8 2).src.toNat = true ∧ wBa.inGroup 2 = true ∧
     BitVec.ofNat 32 (leAt (pb 8 2).body 0 4) = (wBa.obPart 2).goStep + 1 ∧ leAt (pb 8 2).body 4 1 < 16 ∧
     ((wBa.obPart 2).phase = StepPhase.draft ∨ (wBa.obPart 2).phase = StepPhase.main)) ∧
    (wBa.Arrives 3 (pb 8 18) 5 ∧ 2 = leAt (pb 8 18).body 4 1 % 16 ∧ wBa.liveMember (pb 8 18).src.toNat = true ∧
     BitVec.ofNat 32 (leAt (pb 8 18).body 0 4) = (wBa.obPart 2).goStep + 1 ∧ 16 ≤ leAt (pb 8 18).body 4 1 ∧
     (wBa.obPart 2).step = (wBa.obPart 2).goStep + 1 ∧ wBa.Connected none) ∧
    (wBa.Arrives 3 vh39 5 ∧ wBa.liveMember vh39.src.toNat = false) ∧
    wL.Alone ∧
    (3 < wL.wlk.ports.length ∧ wL.wlk.deadPending = [] ∧ wL.Arrives 3 (pd 6) 6 ∧ leAt (pd 6).body 0 4 ≠ wL.myId ∧
     wL.wlk.dead.contains (leAt (pd 6).body 0 4) = false) ∧
    (3 < vh40.wlk.ports.length ∧ vh40.wlk.deadPending = [] ∧ vh40.Arrives 3 (pd 6) 6 ∧ leAt (pd 6).body 0 4 ≠ vh40.myId ∧
     vh40.wlk.dead.contains (leAt (pd 6).body 0 4) = true) ∧
    (wL.Arrives 3 vh41 7 ∧ wL.Connected none ∧ wL.facing vh41.src.toNat = some 1) ∧
    (4 < vh43.wlk.ports.length ∧ vh43.wlk.deadPending = [] ∧ vh43.Arrives 4 vh42 8 ∧
     (List.find? (fun d => (vh43.port d).probing && (vh43.port d).peer == vh42.src && (vh43.port d).peerPort.toNat == leAt vh42.body 0 2 % 16) (List.range 12) = some 3) ∧
     (vh43.port 3).retry = [tx 4, tx 5] ++ [tx 6] ∧ (∀ (y : TxBlock), y ∈ [tx 4, tx 5] → y.seq ≠ (tx 6).seq) ∧
     (tx 6).seq = BitVec.ofNat 12 (leAt vh42.body 0 2 / 16) ∧ 3 < vh43.wlk.ports.length) ∧
    (∀ (b : Nat), ((vh44.core (tagCore tag0)).bundle b).obPart = none) ∧
    (3 < vh44.wlk.ports.length ∧ vh44.wlk.deadPending = [] ∧ tagKind tag0 = 0) :=
  ⟨by unfold State.Arrives; decide +kernel,
    by unfold State.Connected State.Arrives; decide +kernel,
    by unfold State.Arrives; decide +kernel,
    ⟨by decide +kernel, nth_all (P := fun x : PtnSeam => x.reduce = none) rfl (by decide +kernel), by decide +kernel, by decide +kernel⟩,
    by unfold State.Arrives; decide +kernel,
    by unfold State.Arrives; decide +kernel,
    by unfold State.Connected State.Arrives; decide +kernel,
    by unfold State.Arrives; decide +kernel,
    fun _ => rfl,
    by decide +kernel⟩

theorem witness_ShuttlesCopyAndCount :
    ((wSh shE).entriesOf 70 1 2 = shE :: rest9 ∧ 1 < ((wSh shE).core 70).engines.length ∧
     2 < (((wSh shE).core 70).engine 1).queues.length ∧ shE.started = false) ∧
    (vh47.entriesOf 70 1 2 = vh46 :: rest9 ∧ 1 < (vh47.core 70).engines.length ∧ 2 < ((vh47.core 70).engine 1).queues.length ∧
     vh46.started = true ∧ vh46.fault = none ∧ vh46.issued = 0 ∧ vh46.landed = [] ∧ vh46.flight = [] ∧ vh46.desc.dkind ≠ 2 ∧
     0 < vh46.desc.grans ∧ vh46.desc.gran 0 = some { dst := 8192, src := 4096, len := 8 : Gran } ∧
     { dst := 8192, src := 4096, len := 8 : Gran }.len = 8 ∧ (∀ (y : ShEntry), y ∈ rest9 → y.waitsFor 0 = false) ∧
     vh47.granPlan 70 vh46 0 { dst := 8192, src := 4096, len := 8 : Gran } = Sum.inr ([(2199170060288, 0, 3)], 536879104, 0, 2)) ∧
    (isStack (536879104 + 8) = true ∧ vh47.wlk.deadPending = []) ∧
    ((wSh shB).entriesOf 70 1 2 = shB :: rest9 ∧ 1 < ((wSh shB).core 70).engines.length ∧
     2 < (((wSh shB).core 70).engine 1).queues.length ∧ shB.started = true ∧ shB.fault = none ∧ shB.issued = 0 ∧ shB.flight = [] ∧
     0 < shB.desc.grans ∧ shB.desc.gran 0 = some { dst := 274877906944, src := 4096, len := 8 : Gran } ∧
     (wSh shB).granPlan 70 shB 0 { dst := 274877906944, src := 4096, len := 8 : Gran } = Sum.inl (16, 274877906944, 0) ∧ 16 ≠ 19 ∧
     (wSh shB).wlk.deadPending = []) ∧
    (vh49.entriesOf 70 1 2 = vh48 :: rest9 ∧ 1 < (vh49.core 70).engines.length ∧ 2 < ((vh49.core 70).engine 1).queues.length ∧
     vh48.desc.dmode = 2 ∧ vh48.complete = true ∧ vh48.done = false ∧ vh48.srcDone = false ∧ vh48.desc.dkind ≠ 2) ∧
    (vh51.entriesOf 70 1 2 = vh50 :: rest9 ∧ 1 < (vh51.core 70).engines.length ∧ 2 < ((vh51.core 70).engine 1).queues.length ∧
     (∀ (y : ShEntry), y ∈ vh50 :: rest9 → y.desc.dmode ≠ 2)) ∧
    vh48.out = [] ∧
    ((wSh shF).entriesOf 70 1 2 = shF :: rest9 ∧ 1 < ((wSh shF).core 70).engines.length ∧
     2 < (((wSh shF).core 70).engine 1).queues.length ∧ shF.fault = some (18, 8192) ∧ shF.done = false ∧ shF.settled = true ∧
     shF.desc.dkind ≠ 2 ∧ shF.desc.dmode ≠ 0 ∧ shF.desc.scntEn = false ∧ (wSh shF).wlk.deadPending = []) ∧
    (isWide (opW 111).agent = true ∧ (opW 111).part = Part.full) ∧
    vh53.agent = Agent.vf 3 := by
  refine ⟨?_, ?_, ?_, ?_, ?_, ?_, ?_, ?_, ?_, ?_⟩ <;> decide +kernel

end Sys2Proof.Tests.Witness.H

namespace Sys2Proof.Tests.Witness.I
open Sys2Proof Sys2Proof.Machine

def up0 : Port := { st := .up, width := 3, enable := true, expect := 7, accepted := true, peer := 1, lastBlockAt := 4999000000 }
def wL (f : Port → Port := id) (i : Nat := 3) : State := { wUp with wlk := { w0.wlk with shape := [2, 1, 0, 0, 0, 0], moduleId := 0, ports := (List.range 12).map fun n => if n = i then f up0 else up0 } , ptn := (List.range 16).map fun n => if n = 2 then { st := .formed, bound := true, quads := 3, admission := { en := true, lo := 0, hi := 7 } :: List.replicate 7 {}, land := { en := true, base := 0x100, limit := 0x110 } :: List.replicate 3 {}, xlatBase := 0x10000 } else {}, ob := { w0.ob with ptn := List.replicate 16 {} } }
def wG (f : WlkSt → WlkSt := id) : State := let s := (wL).poke 0x4000 (toBytes 4 0 ++ toBytes 4 1 ++ toBytes 4 2); { s with wlk := f { s.wlk with gstate := .formed, w := 1, d := 1, m := 3, parts := 4, tableAddr := 0x4000, anchor := 1, deputy := 0, parent := 3 } }
def pk (k : Nat) (body : List Byte) : Packet := { kind := BitVec.ofNat 4 k, vc := BitVec.ofNat 3 (vcOf k), dir := 0, msk := 0, dst := 0, src := 1, part := 2, gaddr := BitVec.ofNat 41 (0x20200040 / 64), core := 70, cnt := 9, cen := 1, etag := 0x12345, body := body }
def mapPg (s : State) (k pa : Nat) : State := s.poke (0x80000 + 16 * k) (toBytes 8 pa ++ toBytes 8 0x13)
def rd0 : Reduce := { fn := 3, tag := 0x77, buckets := [{ first := 0, elems := 1024 }, { first := 1024, elems := 2048 }], mode := 0, fmt := 0, n := 0, firstStep := 10, steps := 5, deadlineUs := 2000, noteCore := 70, postCnt := 1, optCnt := 2, paramCnt := 3, commitCnt := 4, grad := 0x200000, param0 := 0x220000, param1 := 0x230000, acc := 0x240000, aux := 0x250000, close := 0x260000, boundary := 11 }
def wS (r : Option Reduce) : State := let s := wG fun w => { w with anchor := 0, deputy := 1, m := 2 }; let s := mapPg ((s.poke 0x10000 (toBytes 8 0x80000 ++ toBytes 8 1))) 1 0x20000000; { s with ptn := upd s.ptn 2 fun p => { p with sendEn := true }, seam := { s.seam with ptn := (List.range 16).map fun n => if n = 2 then { committed := 9, reduce := r } else {} }, hif := { s.hif with fns := List.replicate 17 { enabled := true } } }
def wC10 (r : Reduce) : State := let s := wS (some r); { s with seam := { s.seam with ptn := upd s.seam.ptn 2 fun x => { x with committed := 10 } } }
def reE : InEntry := ent 3 4 [(16, 8, 0x201000), (24, 2, 2), (26, 1, 0), (27, 1, 0), (28, 4, 10), (32, 4, 5), (36, 2, 0), (38, 2, 70), (40, 4, 0x04030201), (48, 8, 0x202000)]
def wRe : State := wEnt (((wS none).poke 0x20001000 (toBytes 8 0 ++ toBytes 8 1024 ++ toBytes 8 1024 ++ toBytes 8 2048)).poke 0x20002000 ((toBytes 8 0x200000 ++ toBytes 8 0x220000 ++ toBytes 8 0x230000 ++ toBytes 8 0x240000 ++ toBytes 8 0x250000 ++ toBytes 8 0x260000))) reE
def tb : List (List Byte) := [toBytes 8 0 ++ toBytes 8 1024, toBytes 8 1024 ++ toBytes 8 2048]
def blk : List Byte := (toBytes 8 0x200000 ++ toBytes 8 0x220000 ++ toBytes 8 0x230000 ++ toBytes 8 0x240000 ++ toBytes 8 0x250000 ++ toBytes 8 0x260000) ++ List.replicate 16 0
def sh1 : Share := { step := 10, bucket := 0, openAt := 4990000000, expect_ := 2, closed := true }
def rdS : Reduce := { rd0 with shares := [sh1], buckets := [{ first := 0, elems := 32 }, { first := 1024, elems := 64 }] }
def rdP : Reduce := { rd0 with posts := [(10, 1), (11, 1)], buckets := [{ first := 0, elems := 4 }, { first := 1024, elems := 4 }] }
def vi1 := ((wS (some rdP)).contribution 2 rdP 10 1 |> okD ({}, [])).1
def vi2 := ((wS (some rdP)).contribution 2 rdP 10 1 |> okD ({}, [])).2
def rdE : Reduce := { rdP with grad := 0x4000000 }
def sqp (n : Nat) : SeamQ := { p := pk 9 [], holdUntil := BitVec.ofNat 64 n }
def vi3 := (wL fun p => { p with seamQ := [sqp 4999999999, sqp 5000000200] })
def lp (k : Nat) (step : Word) (b first fmt : Nat) (void held : Bool) (body : List Byte) : Packet := { withLow80 { pk k [] with part := 2 } (seamLow step b first fmt void held) with body := body }
def vi4 := (lp 9 10 0 0 0 false false (seamMeta 1 0 1 ++ List.replicate 128 0))
def vi5 := (lp 10 10 0 0 0 false false (seamMeta 1 0 1 ++ List.replicate 128 0))
def sh2 : Share := { step := 10, bucket := 0, openAt := 4999900000, expect_ := 2 }
def rdO : Reduce := { rd0 with shares := [sh2] }
def pA (k : Nat) : Packet := lp k 10 0 0 0 false false (seamMeta 1 0 1 ++ List.replicate 128 0)
def wA : State := ((wS (some rdO)).at_ 5000000100)
def vi6 := ((wA.accAdd 2 rdO wA.replicaM (pA 9) 0)|> okD {})
def vi7 := ((wA.accAdd 2 rdO wA.replicaM (pA 10) 0)|> okD {})
def vi8 := (lp 11 10 0 0 5 false true (seamMeta 0 0 1))
def rd1 : Reduce := { rd0 with buckets := [{ first := 0, elems := 2048 }] }
def vi11 := (lp 11 10 0 32 5 false false (seamMeta 0 0 1 ++ List.replicate 128 7))
def vi12 := (((wS (some rd1)).seamWrite 2 (0x230000 + 2 * 1024) (List.replicate 128 7))|> okD {})
def sh3 : Share := { step := 10, bucket := 0, openAt := 4990000000, expect_ := 2 }
def rd3 : Reduce := { rd0 with shares := [sh3], buckets := [{ first := 0, elems := 4 }] }
def vi13 := ((wS (some rd3)).at_ 5000000100)
def vi14 := ((((wS (some rd3)).at_ 5000000100).closeWrites 2 rd3 sh3 10 0)|> okD {})
def rd4 : Reduce := { rd1 with held := [{ p := lp 11 10 0 0 5 false true (seamMeta 0 0 1), dst := 1, at_ := 4999000000 }, { p := lp 11 10 0 2 5 false true (seamMeta 0 0 1), dst := 1, at_ := 6000000000 }] }
def rd5 : Reduce := { rd1 with shares := [{ sh1 with published := true }], landed := (List.range 16).map fun j => (10, 0, 32 + 2 * j) }
def vi15 := { rd5 with steps := 1 }
def vi16 := (wS (some { rd5 with steps := 1 }))

theorem witness_SeamReductionsRun :
    (wRe.Takes 3 4 reduceCodes reE ∧ (wRe.dropFront 3 1).readBuckets (3 - 1) (leAt reE.bytes 16 8) (leAt reE.bytes 24 2) = some tb ∧
     (wRe.dropFront 3 1).launchRead (3 - 1) (leAt reE.bytes 48 8) 64 = some blk ∧ zeroAt blk 48 16 = true ∧ badBucket tb = none ∧
     (wRe.dropFront 3 1).reduceReasons (3 - 1) (leAt reE.bytes 26 1 % 4) = [] ∧
     (wRe.dropFront 3 1).areasOk (3 - 1) (reduceOf reE tb blk) = true ∧ (wRe.seamPart (3 - 1)).reduce = none ∧
     3 - 1 < wRe.seam.ptn.length) ∧
    (reaches (opW (11 * 2 ^ 32 + 1)).agent 2 = true ∧ (opW (11 * 2 ^ 32 + 1)).part = Part.full ∧ 2 < (wS (some rd0)).seam.ptn.length ∧
     11 = BitVec.extractLsb' 32 32 (opW (11 * 2 ^ 32 + 1)).value ∧ 1 = BitVec.toNat (opW (11 * 2 ^ 32 + 1)).value % 4096 ∧
     ((wS (some rd0)).seamPart 2).reduce = some rd0 ∧ rd0.doneRel ((wS (some rd0)).seamPart 2).committed ≤ rd0.rel 11 ∧
     rd0.rel 11 < rd0.steps ∧ 1 < rd0.buckets.length ∧ (¬(11, 1) ∈ rd0.posts) ∧ (¬(11, 1) ∈ rd0.posted)) ∧
    (reaches (opW (9 * 2 ^ 32 + 1)).agent 2 = true ∧ (opW (9 * 2 ^ 32 + 1)).part = Part.full ∧
     9 = BitVec.extractLsb' 32 32 (opW (9 * 2 ^ 32 + 1)).value ∧ 1 = BitVec.toNat (opW (9 * 2 ^ 32 + 1)).value % 4096 ∧
     (rd0.rel 9 < rd0.doneRel ((wS (some rd0)).seamPart 2).committed ∨ rd0.steps ≤ rd0.rel 9 ∨ rd0.buckets.length ≤ 1 ∨ (9, 1) ∈ rd0.posts ∨ (9, 1) ∈ rd0.posted)) ∧
    (∀ (f : Nat), 32 * f < (rdS.bucket 0).elems → ∃ d, (wS (some rdS)).seamRead 2 (BitVec.toNat ((wS (some rdS)).paramVer 2 rdS 10) + 2 * ((rdS.bucket 0).first + 32 * f)) 128 = Except.ok d) ∧
    (reaches (opW (10 * 2 ^ 32 + 0)).agent 2 = true ∧ (opW (10 * 2 ^ 32 + 0)).part = Part.full ∧ 2 < (wS (some rdS)).seam.ptn.length ∧
     10 = BitVec.extractLsb' 32 32 (opW (10 * 2 ^ 32 + 0)).value ∧ 0 = BitVec.toNat (opW (10 * 2 ^ 32 + 0)).value % 4096 ∧
     ((wS (some rdS)).seamPart 2).reduce = some rdS ∧ (wS (some rdS)).Connected none ∧ (wS (some rdS)).wlk.deadPending = [] ∧
     (List.find? (fun x => x.step == 10 && x.bucket == 0 && x.closed && !x.published) rdS.shares = some sh1)) ∧
    (reaches (opW 8).agent 2 = true ∧ (opW 8).part = Part.full ∧ 0 = BitVec.extractLsb' 32 32 (opW 8).value ∧
     8 = BitVec.toNat (opW 8).value % 4096) ∧
    (wS (some rdP)).contribution 2 rdP 10 1 = Except.ok (vi1, vi2) ∧
    (2 < (wS (some rdP)).seam.ptn.length ∧ ((wS (some rdP)).seamPart 2).reduce = some rdP ∧ rdP.posts = [(10, 1), (11, 1)] ∧
     (wS (some rdP)).Connected none ∧ (wS (some rdP)).wlk.deadPending = [] ∧
     rdP.rel 10 ≤ rdP.doneRel ((wS (some rdP)).seamPart 2).committed ∧ (∀ (p : Packet), p ∈ vi2 → p.dst.toNat ≠ (wS (some rdP)).myId)) ∧
    (wS (some rdE)).contribution 2 rdE 10 1 = Except.error 67112960 ∧
    (2 < (wS (some rdE)).seam.ptn.length ∧ ((wS (some rdE)).seamPart 2).reduce = some rdE ∧ rdE.posts = [(10, 1), (11, 1)] ∧
     (wS (some rdE)).Connected none ∧ (wS (some rdE)).wlk.deadPending = [] ∧
     rdE.rel 10 ≤ rdE.doneRel ((wS (some rdE)).seamPart 2).committed) ∧
    (3 < 12 ∧ 3 < vi3.wlk.ports.length ∧ vi3.wlk.deadPending = []) ∧
    (((wC10 rd0).seamPart vi4.part.toNat).reduce = some rd0 ∧ vi4.part.toNat < (wC10 rd0).seam.ptn.length ∧
     ((wC10 rd0).at_ 5000000100).seamRow vi4 = none ∧ (wC10 rd0).wlk.deadPending = [] ∧
     rd0.rel (seamStep vi4) < rd0.doneRel ((wC10 rd0).seamPart vi4.part.toNat).committed ∧ ((wC10 rd0).at_ 5000000100).Arrives 3 vi4 9) ∧
    (((wC10 rd0).seamPart vi5.part.toNat).reduce = some rd0 ∧ vi5.part.toNat < (wC10 rd0).seam.ptn.length ∧
     ((wC10 rd0).at_ 5000000100).seamRow vi5 = none ∧
     rd0.rel (seamStep vi5) < rd0.doneRel ((wC10 rd0).seamPart vi5.part.toNat).committed ∧ ((wC10 rd0).at_ 5000000100).Arrives 3 vi5 10) ∧
    wA.accAdd (pA 9).part.toNat rdO wA.replicaM (pA 9) (32 * seamFirst (pA 9) - min (rdO.bucket (seamBucket (pA 9))).elems (shareOwned wA.replicaM wA.myReplica (seamBucket (pA 9)) * shareLen wA.replicaM (rdO.bucket (seamBucket (pA 9))).elems)) = Except.ok vi6 ∧
    (((wS (some rdO)).seamPart (pA 9).part.toNat).reduce = some rdO ∧ (pA 9).part.toNat < (wS (some rdO)).seam.ptn.length ∧
     wA.seamRow (pA 9) = none ∧ (wS (some rdO)).wlk.deadPending = [] ∧
     rdO.doneRel ((wS (some rdO)).seamPart (pA 9).part.toNat).committed ≤ rdO.rel (seamStep (pA 9)) ∧
     (List.find? (fun x => x.step == seamStep (pA 9) && x.bucket == seamBucket (pA 9)) rdO.shares = some sh2) ∧ sh2.closed = false ∧
     wA.sharePast rdO sh2 = false ∧ wA.Arrives 3 (pA 9) 9 ∧ vi6.shareFull (pA 9).part.toNat rdO sh2 = false) ∧
    wA.accAdd (pA 10).part.toNat rdO wA.replicaM (pA 10) (32 * seamFirst (pA 10) - min (rdO.bucket (seamBucket (pA 10))).elems (shareOwned wA.replicaM wA.myReplica (seamBucket (pA 10)) * shareLen wA.replicaM (rdO.bucket (seamBucket (pA 10))).elems)) = Except.ok vi7 ∧
    (((wS (some rdO)).seamPart (pA 10).part.toNat).reduce = some rdO ∧ (pA 10).part.toNat < (wS (some rdO)).seam.ptn.length ∧
     wA.seamRow (pA 10) = none ∧ rdO.doneRel ((wS (some rdO)).seamPart (pA 10).part.toNat).committed ≤ rdO.rel (seamStep (pA 10)) ∧
     (List.find? (fun x => x.step == seamStep (pA 10) && x.bucket == seamBucket (pA 10)) rdO.shares = some sh2) ∧
     wA.Arrives 3 (pA 10) 10 ∧
     ((vi7.modSeamPart (pA 10).part.toNat fun x => { active := x.active, committed := x.committed, late := x.late, short := x.short, writes := satAdd x.writes 1, void := x.void, nonFinite := x.nonFinite, reduce := x.reduce : PtnSeam }).shareFull (pA 10).part.toNat rdO sh2 = false)) ∧
    ((wS (some rd0)).Arrives 3 vi8 11 ∧ (wS (some rd0)).seamRow vi8 = none ∧ vi8.part.toNat < (wS (some rd0)).seam.ptn.length ∧
     ((wS (some rd0)).seamPart vi8.part.toNat).reduce = some rd0 ∧ (wS (some rd0)).wlk.deadPending = [] ∧ seamHeld vi8 = true) ∧
    ((wC10 rd1).Arrives 3 vi11 11 ∧ (wC10 rd1).seamRow vi11 = none ∧ vi11.part.toNat < (wC10 rd1).seam.ptn.length ∧
     ((wC10 rd1).seamPart vi11.part.toNat).reduce = some rd1 ∧ (wC10 rd1).wlk.deadPending = [] ∧ seamHeld vi11 = false ∧
     seamVoid vi11 = false ∧ rd1.rel (seamStep vi11) < rd1.doneRel ((wC10 rd1).seamPart vi11.part.toNat).committed) ∧
    (wS (some rd1)).seamWrite vi11.part.toNat (BitVec.toNat ((wS (some rd1)).paramVer vi11.part.toNat rd1 (seamStep vi11)) + 2 * ((rd1.bucket (seamBucket vi11)).first + 32 * seamFirst vi11)) (seamData vi11) = Except.ok vi12 ∧
    ((wS (some rd1)).Arrives 3 vi11 11 ∧ (wS (some rd1)).seamRow vi11 = none ∧ vi11.part.toNat < (wS (some rd1)).seam.ptn.length ∧
     ((wS (some rd1)).seamPart vi11.part.toNat).reduce = some rd1 ∧ (wS (some rd1)).wlk.deadPending = [] ∧
     rd1.rel (seamStep vi11) = rd1.doneRel ((wS (some rd1)).seamPart vi11.part.toNat).committed) ∧
    vi13.closeWrites 2 rd3 sh3 (10#32) 0 = Except.ok vi14 ∧
    (vi13 = (wS (some rd3)).at_ 5000000100 ∧ ((wS (some rd3)).seamPart 2).reduce = some rd3 ∧ 2 < (wS (some rd3)).seam.ptn.length ∧
     (wS (some rd3)).wlk.deadPending = [] ∧
     (List.find? (fun x => x.step == 10#32 && x.bucket == 0 && !x.closed) rd3.shares = some sh3) ∧ vi13.sharePast rd3 sh3 = true) ∧
    (∀ (h : HeldResend), h ∈ rd4.held → ∃ d, (wS (some rd4)).seamRead 2 (BitVec.toNat ((wS (some rd4)).paramVer 2 rd4 (seamStep h.p)) + 2 * ((rd4.bucket (seamBucket h.p)).first + 32 * seamFirst h.p)) 128 = Except.ok d) ∧
    (((wS (some rd4)).seamPart 2).reduce = some rd4 ∧ 2 < (wS (some rd4)).seam.ptn.length ∧ (wS (some rd4)).Connected none ∧
     (wS (some rd4)).wlk.deadPending = []) ∧
    (∀ (b k : Nat), vi16.shareVoid vi15 10 b k = false) ∧
    ((vi16.seamPart 2).reduce = some vi15 ∧ 2 < vi16.seam.ptn.length ∧ vi16.wlk.deadPending = [] ∧
     10 = (vi16.seamPart 2).committed + 1 ∧ stepBelow 10 vi15.boundary = true ∧ vi15.rel 10 < vi15.steps ∧
     vi16.stepComplete vi15 10 = true ∧ vi15.optWait = []) ∧
    (((wS (some rd1)).seamPart 2).reduce = some rd1 ∧ 2 < (wS (some rd1)).seam.ptn.length ∧
     10 = ((wS (some rd1)).seamPart 2).committed + 1 ∧
     (stepBelow 10 rd1.boundary = false ∨ rd1.steps ≤ rd1.rel 10 ∨ (wS (some rd1)).stepComplete rd1 10 = false)) :=
  ⟨by unfold State.Takes; decide +kernel,
    by decide +kernel,
    by decide +kernel,
    by
      intro f hf
      have e : f = 0 := by have := (show (rdS.bucket 0).elems = 32 from rfl) ▸ hf; omega
      subst e
      exact exists_ok (by decide +kernel),
    by unfold State.Connected; decide +kernel,
    by decide +kernel,
    eq_ok_okD ({}, []) (by decide +kernel),
    by unfold State.Connected; decide +kernel,
    eq_error (by decide +kernel),
    by unfold State.Connected; decide +kernel,
    by decide +kernel,
    by unfold State.Arrives; decide +kernel,
    by unfold State.Arrives; decide +kernel,
    eq_ok_okD _ (by decide +kernel),
    by unfold State.Arrives; decide +kernel,
    eq_ok_okD _ (by decide +kernel),
    by unfold State.Arrives; decide +kernel,
    by unfold State.Arrives; decide +kernel,
    by unfold State.Arrives; decide +kernel,
    eq_ok_okD _ (by decide +kernel),
    by unfold State.Arrives; decide +kernel,
    eq_ok_okD _ (by decide +kernel),
    by decide +kernel,
    fun h hh => exists_ok ((show ∀ (h : HeldResend), h ∈ rd4.held → ((wS (some rd4)).seamRead 2 (BitVec.toNat ((wS (some rd4)).paramVer 2 rd4 (seamStep h.p)) + 2 * ((rd4.bucket (seamBucket h.p)).first + 32 * seamFirst h.p)) 128).toBool = true from by decide +kernel) h hh),
    by unfold State.Connected; decide +kernel,
    fun _ _ => by
      unfold State.shareVoid State.seamGone
      rw [show vi16.wlk.dead = [] from by decide +kernel, show vi15.gone = [] from by decide +kernel]
      rfl,
    by decide +kernel,
    by decide +kernel⟩

end Sys2Proof.Tests.Witness.I

namespace Sys2Proof.Tests.Witness.J
open Sys2Proof Sys2Proof.Machine

def up0 : Port := { st := .up, width := 3, enable := true, expect := 7, accepted := true, peer := 1, lastBlockAt := 4999000000 }
def wL (f : Port → Port := id) (i : Nat := 3) : State := { wUp with wlk := { w0.wlk with shape := [2, 1, 0, 0, 0, 0], moduleId := 0, ports := (List.range 12).map fun n => if n = i then f up0 else up0 } , ptn := (List.range 16).map fun n => if n = 2 then { st := .formed, bound := true, quads := 3, admission := { en := true, lo := 0, hi := 7 } :: List.replicate 7 {}, land := { en := true, base := 0x100, limit := 0x110 } :: List.replicate 3 {}, xlatBase := 0x10000 } else {}, ob := { w0.ob with ptn := List.replicate 16 {} } }
def mapPg (s : State) (k pa : Nat) : State := s.poke (0x80000 + 16 * k) (toBytes 8 pa ++ toBytes 8 0x13)
def wK (k : Core) : State := let s := mapPg (((wL).poke 0x10000 (toBytes 8 0x80000 ++ toBytes 8 1))) 1 0x20000000; { s with cores := [(70, k), (71, { lastSlot := 4 })] }
def dB : List Byte := mkBytes 64 [(0, 8, 0x300000), (8, 8, 0x200100), (16, 1, 3), (17, 1, 5), (18, 1, 2), (19, 1, 1), (20, 1, 2), (21, 1, 9), (22, 2, 1), (24, 4, 77), (28, 2, 0), (32, 8, 0x200200)]
def wDs (q : List LaunchReq) : State := ((wK { launchQ := q }).poke 0x20000000 dB).poke 0x20000100 (toBytes 8 0x1111 ++ toBytes 8 0x2222)
def lr : LaunchReq := { writer := .pf0, desc := 0x200000 }
def ld0 : LaunchDesc := { desc := 0, entry := 0, skeins := 0, lastThreads := 0, regUnits := 0, knots := 0, uinit := [], counter := 0, counterEn := false, add := 0, wdogUs := 0, endAddr := 0 }
def sbe : SbEntry := { no := 4, line := 9, bytes := [(0, 1)], isOpen := false, slots := [6], key := 0, hint := 0, normal := true }
def wSb : State := (wDs []).modCore 71 fun k => { k with sb := [sbe] }
def mqe : MEntry := { slot := 6, act := .fence .module }
def vj1 := ((wDs []).modCore 71 fun k => { k with mq := [mqe] })
def vj2 := (((wDs [lr, lr]).readLaunch 70 lr).elim (fun _ => ld0) id)
def lrB : LaunchReq := { writer := .pf0, desc := 0x200001 }
def ld : LaunchDesc := ((wDs [lr, lr]).readLaunch 70 lr).elim (fun _ => ld0) id
def wHd : State := let s := wDs [lr, lr]; s.modCore 70 fun k => { k with head := some ld, skeins := [(0, { st := .running, units := 32, bundle := 3 }), (2, { st := .ending, units := 8, bundle := 3 })], bundles := [(0, { st := .running })] }
def wLo : State := wHd.modCore 70 fun k => { k with skeins := [(0, { st := .running, units := 32, bundle := 3 }), (1, { st := .loading, units := 2, bundle := 5, index := 0, lanes := 0xFFFFFFFF }), (2, { st := .ending, units := 8, bundle := 3 }), (3, { st := .loading, units := 2, bundle := 5, index := 1, lanes := 0x1F })], bundles := [(5, { st := .running, seq := 8, desc := some ld, firstSlot := 1 })] }
def wBe (ab : Bool) (e : Dword) : State := wHd.modCore 70 fun k => { k with skeins := if ab then [(6, { st := .abortHalted, bundle := 5 })] else [], bundles := [(5, { st := .running, seq := 8, desc := some { ld with endAddr := e }, firstSlot := 1, aborting := ab, cause := 4 })], knots := upd k.knots 3 fun x => { x with owner := some 5 } }
def vj3 := { ld with endAddr := 0 }
def sk : Skein := { st := .running, bundle := 5, units := 4, lanes := 0xF, pc := [(0, 64), (1, 64), (2, 96), (3, 64)], backoff := [(0, 1), (1, 5)], stall := [(3, 4999999000), (4, 5000000500)], knotWait := [(2, (3, 96))] }
def wSk (k : Skein) : State := wHd.modCore 70 fun c => { c with skeins := [(6, k), (7, { st := .running, bundle := 4, units := 4 })], bundles := [(5, { st := .running, seq := 8, desc := some ld, firstSlot := 1 })], knots := upd c.knots 3 fun x => { x with owner := some 5, firstAt := some 4900000000, wdogUs := 1000 }, draining := some (4999990000, 2, 3), sb := [{ no := 4, line := 9, bytes := [(0, 1)], isOpen := false, slots := [6], key := 0, hint := 0, normal := true }] }
def vj4 := (wSk { sk with abortPending := true })
def wAb : State := (wSk { sk with st := .abortHalted }).modCore 70 fun c => { c with bundles := [(5, { st := .aborted })] }
def vj5 := (wSk { sk with st := .debugHalted })
def vj6 := (let s := wSk sk; { s with thm := { s.thm with otp := { s.thm.otp with debug := 2 } } })

theorem witness_BundlesLaunchAndEnd :
    (((wDs []).core 70).launchQ.length < 16 ∧ (LaunchWriter.pf0 = LaunchWriter.pf0 ∨ LaunchWriter.pf0 = LaunchWriter.firmware)) ∧
    ((wSb.core 70).launchQ.length < 16 ∧ (∀ (e : MEntry), e ∈ (wSb.core 71).mq → e.slot ≠ 6)) ∧
    (∃ e, e ∈ (vj1.core 71).mq ∧ e.slot = 6) ∧
    (((wDs [lr, lr]).core 70).launchQ = [lr, lr] ∧ ((wDs [lr, lr]).core 70).head = none ∧ (wDs [lr, lr]).readLaunch 70 lr = Sum.inr vj2) ∧
    (((wDs [lrB, lr]).core 70).launchQ = [lrB, lr] ∧ ((wDs [lrB, lr]).core 70).head = none ∧
     (wDs [lrB, lr]).readLaunch 70 lrB = Sum.inl 4 ∧ ((wDs [lrB, lr]).core 70).launchWait = []) ∧
    ((wHd.core 70).head = some ld ∧ (wHd.core 70).launchQ = [lr, lr] ∧ (wHd.core 70).launchWait = [] ∧
     ld.skeins ≤ (wHd.core 70).freeSlots ∧ ld.skeins * ld.regUnits ≤ (wHd.core 70).freeUnits ∧ ld.knots ≤ (wHd.core 70).freeKnots ∧
     (wHd.core 70).held = false ∧ (wHd.core 70).draining = none ∧
     (List.find? (fun n => ((wHd.core 70).bundle n).st == BSt.free) (List.range 64) = some 1)) ∧
    ((wLo.core 70).bundle 5).desc = some ld ∧
    ((wLo.skein 70 2).st = SkeinSt.ending ∧ (wLo.core 70).drained 2 = true) ∧
    ((∀ (p : Nat), p < 16 → ((wBe true 0).obPart p).phase = StepPhase.idle) ∧ ((wBe true 0).core 70).bundleDone 5 = true ∧
     (((wBe true 0).core 70).bundle 5).desc = some vj3) := by
  refine ⟨?_, ?_, ?_, ?_, ?_, ?_, ?_, ?_, ?_⟩ <;> decide +kernel

theorem witness_SkeinsStopAndReset :
    ((∀ (p : Nat), p < 16 → ((wSk sk).obPart p).phase = StepPhase.idle) ∧ (nth { : Knot } ((wSk sk).core 70).knots 3).owner = some 5 ∧
     (nth { : Knot } ((wSk sk).core 70).knots 3).firstAt = some 4900000000 ∧
     (nth { : Knot } ((wSk sk).core 70).knots 3).pausedAt = none ∧
     4900000000 + (nth { : Knot } ((wSk sk).core 70).knots 3).wdogUs.toNat * 1000 ≤ ((wSk sk).at_ 5000000100).now ∧
     (((wSk sk).core 70).bundle 5).aborting = false ∧ ((wSk sk).skein 70 6).st = SkeinSt.running ∧ ((wSk sk).skein 70 6).bundle = 5 ∧
     (∃ w, w ∈ ((wSk sk).skein 70 6).knotWait ∧ w.2.1 = 3)) ∧
    ((vj4.skein 70 6).abortPending = true ∧ ((vj4.skein 70 6).st = SkeinSt.running ∨ (vj4.skein 70 6).st = SkeinSt.loading)) ∧
    (isWide (opW 5).agent = true ∧ (opW 5).part = Part.full ∧ ((wAb.core 70).bundle (BitVec.toNat (opW 5).value % 64)).st = BSt.aborted) ∧
    (isWide (opW 2).agent = true ∧ (opW 2).part = Part.full ∧ ((vj5.core 70).bundle (BitVec.toNat (opW 2).value % 64)).st ≠ BSt.aborted) ∧
    (wAb.haltAllowed (wAb.partOf 70) = true ∧
     (BitVec.toNat (opW 5).value % 4 = 3 ∨ BitVec.toNat (opW 5).value % 4 = 1 ∧ (wAb.skein 70 6).st ≠ SkeinSt.running)) ∧
    (isWide (opW 3).agent = true ∧ (opW 3).part = Part.full ∧ (wSk sk).haltAllowed ((wSk sk).partOf 70) = true ∧
     (BitVec.toNat (opW 3).value % 4 = 3 ∨ BitVec.toNat (opW 3).value % 4 = 2 ∧ ((wSk sk).skein 70 6).st ≠ SkeinSt.debugHalted)) ∧
    (BitVec.toNat (opW 5).value % 4 = 1 ∧ ((wSk sk).skein 70 6).abortPending = false) ∧
    (vj5.haltAllowed (vj5.partOf 70) = true ∧ BitVec.toNat (opW 2).value % 4 = 2 ∧ (vj5.skein 70 6).st = SkeinSt.debugHalted) ∧
    (isWide (opW 1).agent = true ∧ (opW 1).part = Part.full ∧ vj6.haltAllowed (vj6.partOf 70) = false) ∧
    (((wSk sk).core 70).draining = some (4999990000, 2, 3) ∧ 4999990000 + 2000 ≤ ((wSk sk).at_ 5000000100).now) := by
  refine ⟨?_, ?_, ?_, ?_, ?_, ?_, ?_, ?_, ?_, ?_⟩ <;> decide +kernel

end Sys2Proof.Tests.Witness.J

namespace Sys2Proof.Tests.Witness.K
open Sys2Proof Sys2Proof.Machine

def up0 : Port := { st := .up, width := 3, enable := true, expect := 7, accepted := true, peer := 1, lastBlockAt := 4999000000 }
def wL (f : Port → Port := id) (i : Nat := 3) : State := { wUp with wlk := { w0.wlk with shape := [2, 1, 0, 0, 0, 0], moduleId := 0, ports := (List.range 12).map fun n => if n = i then f up0 else up0 } , ptn := (List.range 16).map fun n => if n = 2 then { st := .formed, bound := true, quads := 3, admission := { en := true, lo := 0, hi := 7 } :: List.replicate 7 {}, land := { en := true, base := 0x100, limit := 0x110 } :: List.replicate 3 {}, xlatBase := 0x10000 } else {}, ob := { w0.ob with ptn := List.replicate 16 {} } }
def mapPg (s : State) (k pa : Nat) : State := s.poke (0x80000 + 16 * k) (toBytes 8 pa ++ toBytes 8 0x13)
def wK (k : Core) : State := let s := mapPg (((wL).poke 0x10000 (toBytes 8 0x80000 ++ toBytes 8 1))) 1 0x20000000; { s with cores := [(70, k), (71, { lastSlot := 4 })] }
def hpO (k : HKind) (f : HOp → HOp := id) : HOp := f { kind := k, fmt := 1, bank := 1, plane := 1, acc := false, rows := 4, addr := 0x1000, pitch := 64, aux := 0, expBase := 0x100, slot := 6, bundle := 5, seq := 3 }
def hoopS : HSlot := { hop := 2, hoop := 1, sub := 0, hfmt := 1, bank := 1, plane := 1, rows := 3, hu := 5, hnou := 0, hoff := 0x10, hstride := 8 }
def subX (q r : List HOp) (f : SubHoop → SubHoop := id) : SubHoop := f { plane0 := { st := .loaded, fmt := 1 }, plane1 := { st := .loaded, fmt := 1, w := [(0, 0x3C), (65, 0x38)] }, queue := q, running := r, bankB := { mode := .fp32, cells := [(0, 0x3F800000), (5, 0x40000000)] } }
def hpS (x : SubHoop) : Hoop := { subs := [x, {}, {}, {}] }
def wHp (x : SubHoop) (sks : SMap Skein := []) : State := wK { hoops := [{}, hpS x, {}, {}], skeins := sks }
def skH : Skein := { st := .running, bundle := 5, units := 4, lanes := 0xF, pc := [(0, 64), (1, 64), (2, 96), (3, 64)], decoded := [(64, { h := hoopS })], u := [(5, 0x1000)] }
def wFe : State := wHp (subX [] []) [(6, skH)]
def qs : List HOp := [hpO .passG fun o => { o with plane := 0, bank := 0 }, hpO .wld fun o => { o with rows := 32, addr := 0, pitch := 64 }, hpO .drain fun o => { o with seq := 9, bank := 0 }]
def ru (k : HKind) : List HOp := [hpO k, hpO .passG fun o => { o with seq := 5 }]
def vk1 := [hpO .passG fun o => { o with seq := 5 }]
def dr (a : Nat) : HOp := hpO .drain fun o => { o with aux := BitVec.ofNat 16 a, addr := 0x2000, pitch := 128 }
def rd (a : Nat) : List HOp := [dr a]

theorem witness_HoopOperationsRun :
    (1 < (wFe.core 70).hoops.length ∧ 0 < (hpS (subX [] [])).subs.length ∧ (wFe.core 70).fillable 6 64 = some hoopS ∧ hoopS.hoop = 1 ∧
     hoopS.sub = 0 ∧ (∀ (e : Nat × Skein), e ∈ (wFe.core 70).skeins → e.1 = 6 ∨ e.2.decoded = [])) ∧
    (1 < ((wHp (subX qs [])).core 70).hoops.length ∧ 0 < (hpS (subX qs [])).subs.length ∧
     (subX qs []).queue[1]? = some (nth (hpO HKind.wld) qs 1) ∧
     hoopMayStart (hpS (subX qs [])) (subX qs []) (nth (hpO HKind.wld) qs 1) (List.take 1 (subX qs []).queue) ((wHp (subX qs [])).scratchStores 70 (nth (hpO HKind.wld) qs 1).slot) = true) ∧
    (1 < ((wHp (subX qs (ru HKind.wld))).core 70).hoops.length ∧ 0 < (hpS (subX qs (ru HKind.wld))).subs.length ∧
     (subX qs (ru HKind.wld)).running = hpO HKind.wld :: vk1 ∧ (hpO HKind.wld).kind = HKind.wld) ∧
    (1 < ((wHp (subX qs (ru HKind.patch))).core 70).hoops.length ∧ 0 < (hpS (subX qs (ru HKind.patch))).subs.length ∧
     (subX qs (ru HKind.patch)).running = hpO HKind.patch :: vk1 ∧ (hpO HKind.patch).kind = HKind.patch) ∧
    (1 < ((wHp (subX qs (ru HKind.passG))).core 70).hoops.length ∧ 0 < (hpS (subX qs (ru HKind.passG))).subs.length ∧
     (subX qs (ru HKind.passG)).running = hpO HKind.passG :: vk1 ∧ (hpO HKind.passG).kind.isPass = true) ∧
    (1 < ((wHp (subX qs (rd 145))).core 70).hoops.length ∧ 0 < (hpS (subX qs (rd 145))).subs.length ∧
     (subX qs (rd 145)).running = [dr 145] ∧ (dr 145).kind = HKind.drain) ∧
    (isWide (opW (23808 * 64)).agent = true ∧ (opW (23808 * 64)).part = Part.full ∧
     BitVec.toNat (opW (23808 * 64)).value / 64 % 2 ^ 15 ≤ 23808) ∧
    (isWide (opW (23809 * 64)).agent = true ∧ (opW (23809 * 64)).part = Part.full ∧
     23808 < BitVec.toNat (opW (23809 * 64)).value / 64 % 2 ^ 15) := by
  refine ⟨?_, ?_, ?_, ?_, ?_, ?_, ?_, ?_⟩ <;> decide +kernel

end Sys2Proof.Tests.Witness.K

namespace Sys2Proof.Tests.Witness.L
open Sys2Proof Sys2Proof.Machine

def up0 : Port := { st := .up, width := 3, enable := true, expect := 7, accepted := true, peer := 1, lastBlockAt := 4999000000 }
def wL (f : Port → Port := id) (i : Nat := 3) : State := { wUp with wlk := { w0.wlk with shape := [2, 1, 0, 0, 0, 0], moduleId := 0, ports := (List.range 12).map fun n => if n = i then f up0 else up0 } , ptn := (List.range 16).map fun n => if n = 2 then { st := .formed, bound := true, quads := 3, admission := { en := true, lo := 0, hi := 7 } :: List.replicate 7 {}, land := { en := true, base := 0x100, limit := 0x110 } :: List.replicate 3 {}, xlatBase := 0x10000 } else {}, ob := { w0.ob with ptn := List.replicate 16 {} } }
def mapPg (s : State) (k pa : Nat) : State := s.poke (0x80000 + 16 * k) (toBytes 8 pa ++ toBytes 8 0x13)
def wK (k : Core) : State := let s := mapPg (((wL).poke 0x10000 (toBytes 8 0x80000 ++ toBytes 8 1))) 1 0x20000000; { s with cores := [(70, k), (71, { lastSlot := 4 })] }
def wH : State := { wUp with hif := { w0.hif with fns := List.replicate 17 { enabled := true } } }
def aw (a v : Nat) (n : Nat := 8) : AddrWrite := { agent := .pf0, addr := a, size := n, value := BitVec.ofNat 64 v }
def wXl (st : PSt) : State := { (wK {}) with ptn := upd (wK {}).ptn 2 fun p => { p with st := st, xlatBusy := true }, cores := [(70, { tlb := [(3, { addr := 0, size := 65536, typ := 0, w := true, x := true, key := 0 })] }), (300, { tlb := [(3, { addr := 0, size := 65536, typ := 0, w := true, x := true, key := 0 })] })] }
def vl1 := { opW 1 with agent := .firmware }
def vl2: State := { wH with mem := { w0.mem with ilvSet := true } }
def cod : List Byte := (List.range 32).map fun n => BitVec.ofNat 8 (n + 3)
def mapX (s : State) (k pa : Nat) : State := s.poke (0x80000 + 16 * k) (toBytes 8 pa ++ toBytes 8 0x33)
def skR : Skein := { st := .running, bundle := 5, units := 4, lanes := 0xF, pc := [(0, 0x200040), (1, 0x200040), (2, 0x200060), (3, 0x200040)] }
def wF (k : Skein) (f : Core → Core := id) : State := (mapX (wK (f { skeins := [(6, k), (7, { st := .running })], bundles := [(5, { st := .running })] })) 1 0x20000000).poke 0x20000040 cod
def vl4 := (((wF skR).coreLeaf 70 2 0x200040 0).getD { addr := 0, size := 0, typ := 0, w := true, x := true, key := 0 })
def vl5 := (wF { skR with pc := [(0, 0x600040)] })
def pd1 : Pending := { dest := .x 7, fromMem := false, ready := true, vals := [(1, 0x123456789)] }
def pd2 : Pending := { dest := .u 7, fromMem := true, ready := true, vals := [(0, 0x123456789)] }
def vl6 := (wF { skR with pend := [pd1, pd2] })
def vl7 := (wF { skR with pend := [pd2, pd1] })
def se (n : Nat) (o : Bool) : SbEntry := { no := n, line := 0x20000100 / 128, bytes := [(0, 1), (9, 4), (127, 8)], isOpen := o, slots := [6], key := 0, hint := 0, normal := true }
def wSb (l : List SbEntry) : State := wF skR fun c => { c with sb := l }
def vl8 := (wF { skR with fence := some .module })
def wL2 : State := let s := wF { skR with invalHold := 3 }; { s with mem := { s.mem with l2 := [(3, { sets := [(1, { ways := [(0, { tag := 9, owner := 2, dirty := true }), (1, { tag := 19, owner := 3, dirty := true })] })] })] } }
def sq : Entry := { st := .decode, part := 2, fn := 3, client := 5, tag := 0x55, statusAddr := 0x8000, accTokens := 3 }
def vl9: State := { wF skR with ob := { w0.ob with entries := [(4, sq)] } }
def lc : LiveCmd := { fn := 0, tag := 9, kind := .tangle, statusAddr := 0x100, state := 3, code := 0, count := 4, statusAt := 0 }
def vl10: State := { wF skR with hif := { w0.hif with cmds := [lc] } }
def pdL : Pending := { dest := .x 7, fromMem := true, ready := false, vals := [] }
def lqe : LoadEnt := { slot := 6, part := 2, dest := .x 7, size := 4, signed := false, hint := 0, accs := [{ lane := 0, addr := 0x20000044, key := 0, typ := 0 }, { lane := 2, addr := 0x20000100, key := 0, typ := 0 }] }
def vl11 := (wF { skR with pend := [pdL, pd1] } fun c => { c with lq := [lqe] })
def wSbC (n : Nat) : State := { wSb [se 1 true] with islands := [(70, { st := .stopped, cyc := BitVec.ofNat 64 n })] }
def vl12 := { aw 0x2C0000 0 with read := true }
def vl13: State := { wH with mem := { w0.mem with strands := [(wH.strandOf 0x20000010, { retry := some 0x20000000 })] } }

theorem witness_MemoryRegistersAndEvents :
    ((aw 4096 37).agent = Agent.pf0 ∧ wH.fnUp 0 = true ∧ wH.tlpHeld 0 (aw 4096 37).tlp = false ∧ (aw 4096 37).tlp.ideFail = false ∧
     (aw 4096 37).tlp.poisoned = false ∧ (aw 4096 37).size = 8 ∧ (aw 4096 37).read = false ∧ (aw 4096 37).addr = 4096) ∧
    ((aw 2883584 4660).agent = Agent.pf0 ∧ wH.tlpHeld 0 (aw 2883584 4660).tlp = false ∧ (aw 2883584 4660).tlp.ideFail = false ∧
     (aw 2883584 4660).tlp.poisoned = false ∧ (aw 2883584 4660).size = 8 ∧ (aw 2883584 4660).read = false ∧
     (aw 2883584 4660).addr = 2883584) ∧
    (vl12.agent = Agent.pf0 ∧ wH.tlpHeld 0 vl12.tlp = false ∧ vl12.tlp.ideFail = false ∧ vl12.tlp.poisoned = false ∧ vl12.size = 8 ∧
     vl12.read = true ∧ vl12.addr % 8 = 0 ∧ vl12.addr < 16777216) ∧
    ((aw 4100 37).agent = Agent.pf0 ∧ wH.tlpHeld 0 (aw 4100 37).tlp = false ∧ (aw 4100 37).tlp.ideFail = false ∧
     (aw 4100 37).tlp.poisoned = false ∧ (aw 4100 37).size = 8 ∧ (aw 4100 37).addr % 8 ≠ 0) ∧
    2 < (wXl PSt.formed).ptn.length ∧
    ((wXl PSt.formed).part 2).xlatBusy = true ∧
    (2 < (wXl PSt.scrubbing).ptn.length ∧ vl1.agent = Agent.firmware ∧ vl1.part = Part.full ∧
     ((wXl PSt.scrubbing).part 2).st = PSt.scrubbing) ∧
    ((wXl PSt.formed).part 2).st ≠ PSt.scrubbing ∧
    (isWide (opW 197121).agent = true ∧ (opW 197121).part = Part.full ∧ wH.mem.arb.length = 4 ∧ wH.mem.ilvSet = false) ∧
    (vl2.mem.arb.length = 4 ∧ vl2.mem.ilvSet = true) ∧
    (isStack 536870928 = true ∧ 3 ≤ 3) ∧
    ({ retry := some 536870912 : Strand } = tget { : Strand } vl13.mem.strands (vl13.strandOf 536870928) ∧
     { retry := some 536870912 : Strand }.retry = some (536870928 / 64 * 64) ∧ { retry := some 536870912 : Strand }.held = false) := by
  refine ⟨?_, ?_, ?_, ?_, ?_, ?_, ?_, ?_, ?_, ?_, ?_, ?_⟩ <;> decide +kernel

theorem witness_ResultsStoresAndFetch :
    ((wF skR).wlk.deadPending = [] ∧ ((wF skR).core 70).mq = [] ∧ ((wF skR).skein 70 6).issues = true ∧
     ((wF skR).skein 70 6).lanesAt 2097216 ≠ [] ∧ ((wF skR).skein 70 6).wordAt 2097216 = none ∧
     (wF skR).coreLeaf 70 (((wF skR).partOf 70).getD 0) 2097216 0 = some vl4 ∧ (wF skR).fetchCause 70 (some vl4) 2097216 = none) ∧
    (vl5.wlk.deadPending = [] ∧ (vl5.core 70).mq = [] ∧ (vl5.skein 70 6).issues = true ∧ (vl5.skein 70 6).lanesAt 6291520 ≠ [] ∧
     (vl5.skein 70 6).wordAt 6291520 = none ∧ (∀ (p : Nat), p < 16 → (vl5.obPart p).phase = StepPhase.idle) ∧ 4 ≠ 9 ∧
     vl5.fetchCause 70 (vl5.coreLeaf 70 ((vl5.partOf 70).getD 0) 6291520 0) 6291520 = some 4) ∧
    (vl6.wlk.deadPending = [] ∧ (vl6.core 70).mq = [] ∧ (vl6.skein 70 6).pend = [pd1, pd2] ∧ pd1.fromMem = false) ∧
    (vl7.wlk.deadPending = [] ∧ (vl7.core 70).mq = [] ∧ (vl7.skein 70 6).pend = [pd2, pd1] ∧ pd2.fromMem = true ∧ pd2.ready = true) ∧
    (vl11.wlk.deadPending = [] ∧ (vl11.core 70).mq = [] ∧ (vl11.skein 70 6).pend = [pdL, pd1] ∧ pdL.dest = RegName.x 7 ∧ 7 ≠ 255 ∧
     pdL.fromMem = true ∧ pdL.ready = false ∧ (vl11.core 70).lq = [lqe] ∧ lqe.slot = 6 ∧ lqe.dest = RegName.x 7 ∧ lqe.size ≤ 4 ∧
     0 < lqe.size ∧ lqe.got = [] ∧ lqe.accs ≠ []) ∧
    (((List.map (fun x => x.lane) lqe.accs).Nodup) ∧ (∀ (a : LaneAcc), a ∈ lqe.accs → a.typ = 0 ∧ isStack a.addr = true)) ∧
    (pd1.dest = RegName.x 7 ∧ pd1.vals = [(1, 4886718345)]) ∧
    ((wSbC 256).wlk.deadPending = [] ∧ ((wSbC 256).core 70).mq = [] ∧ ((wSbC 256).core 70).sb[0]? = some (se 1 true) ∧
     256 ≤ BitVec.toNat ((wSbC 256).cycles 70 - (se 1 true).since)) ∧
    ((wSbC 255).wlk.deadPending = [] ∧ ((wSbC 255).core 70).mq = [] ∧ ((wSbC 255).core 70).sb[0]? = some (se 1 true) ∧
     BitVec.toNat ((wSbC 255).cycles 70 - (se 1 true).since) < 256) ∧
    ((wSb [se 1 false, se 2 true]).wlk.deadPending = [] ∧ ((wSb [se 1 false, se 2 true]).core 70).mq = [] ∧
     ((wSb [se 1 false, se 2 true]).core 70).sb = [se 1 false, se 2 true] ∧ (se 1 false).isOpen = false ∧
     (∀ (x : SbEntry), x ∈ [se 2 true].head? → x.isOpen = true) ∧ lineModule (se 1 false).line = (wSb [se 1 false, se 2 true]).myId ∧
     isStack (locOf ((se 1 false).line * 128) + 128) = true ∧ ((List.map (fun x => x.1) (se 1 false).bytes).Nodup) ∧
     (∀ (b : Nat × Byte), b ∈ (se 1 false).bytes → b.1 < 128)) ∧
    (vl8.wlk.deadPending = [] ∧ (vl8.core 70).mq = [] ∧ (vl8.skein 70 6).fence = some Scope.module ∧
     vl8.fenceMet 70 6 Scope.module = true) ∧
    (wL2.wlk.deadPending = [] ∧ (wL2.core 70).mq = [] ∧ (wL2.skein 70 6).invalHold ≠ 0) ∧
    (vl9.wlk.deadPending = [] ∧ (vl9.core 70).mq = [] ∧ (vl9.entry 4).live = true) ∧
    (vl10.wlk.deadPending = [] ∧ (vl10.core 70).mq = [] ∧ vl10.liveCmd 0 9 = some lc) := by
  refine ⟨?_, ?_, ?_, ?_, ?_, ?_, ?_, ?_, ?_, ?_, ?_, ?_, ?_, ?_⟩ <;> decide +kernel

end Sys2Proof.Tests.Witness.L

namespace Sys2Proof.Tests.Witness.M
open Sys2Proof Sys2Proof.Machine

def up0 : Port := { st := .up, width := 3, enable := true, expect := 7, accepted := true, peer := 1, lastBlockAt := 4999000000 }
def wL (f : Port → Port := id) (i : Nat := 3) : State := { wUp with wlk := { w0.wlk with shape := [2, 1, 0, 0, 0, 0], moduleId := 0, ports := (List.range 12).map fun n => if n = i then f up0 else up0 } , ptn := (List.range 16).map fun n => if n = 2 then { st := .formed, bound := true, quads := 3, admission := { en := true, lo := 0, hi := 7 } :: List.replicate 7 {}, land := { en := true, base := 0x100, limit := 0x110 } :: List.replicate 3 {}, xlatBase := 0x10000 } else {}, ob := { w0.ob with ptn := List.replicate 16 {} } }
def mapPg (s : State) (k pa : Nat) : State := s.poke (0x80000 + 16 * k) (toBytes 8 pa ++ toBytes 8 0x13)
def wK (k : Core) : State := let s := mapPg (((wL).poke 0x10000 (toBytes 8 0x80000 ++ toBytes 8 1))) 1 0x20000000; { s with cores := [(70, k), (71, { lastSlot := 4 })] }
def k0 : Skein := { st := .running, bundle := 5, units := 8, lanes := 0xF, pc := [(0, 64), (1, 64), (2, 96), (3, 64)], x := [(0 * 256 + 3, 0x80000001), (1 * 256 + 3, 0x7FFFFFFF)], u := [(5, 0x1000), (4, 77)], p := [(1, 3)], gen := [] }
def wI (k : Skein) (w : IWord) : State := wK { skeins := [(6, { k with decoded := [(64, w)] }), (7, { st := .running, bundle := 5 })], bundles := [(5, { st := .running })] }
def iss (w : IWord) : Issue := { core := 70, slot := 6, pc := 64, word := w }
def kB : Skein := { k0 with x := [(3, 0xFFFFFFFE), (0x103, 0x10), (0x303, 5), (4, 1), (0x104, 2)] }
def bw (op : Nat) (im : Nat) (gp : Nat := 7) (gn : Nat := 0) : IWord := { c := { cop := BitVec.ofNat 5 op, cimm := BitVec.ofNat 18 im, gpred := BitVec.ofNat 3 gp, gneg := BitVec.ofNat 1 gn } }
def vm1 := (wI { kB with lanes := 0xB } (bw 6 0))
def vm2 := ((wI { kB with lanes := 0xB } (bw 6 0)).skein 70 6)
def wKn (w : IWord) (n : Nat) : State := (wI { kB with lanes := 2 } w).modCore 70 fun c => { c with knots := upd c.knots 4 fun x => { x with owner := some 5, local_ := 1, participants := n, arrived := [700, 701], exited := 1, firstAt := some 9 }, bundles := [(5, { st := .running, desc := some { desc := 0, entry := 0, skeins := 2, lastThreads := 1, regUnits := 8, knots := 2, uinit := [], counter := 0, counterEn := false, add := 0, wdogUs := 0, endAddr := 0 } })] }
def vm4 := (nth {} ((wKn (bw 7 1) 9).core 70).knots 4)
def vm5 := (nth {} ((wKn (bw 7 1) 4).core 70).knots 4)
def vm8 := (wI { kB with brkPass := 0xF } (bw 10 0))
def vm9 := ((wI { kB with brkPass := 0xF } (bw 10 0)).skein 70 6)
def noDbg (s : State) : State := { s with thm := { s.thm with otp := { s.thm.otp with debug := 2 } } }
def vm10 := ((noDbg (wI kB (bw 10 0))).skein 70 6)
def wM (k : Skein) (w : IWord) : State := let s := wI k w; ((mapPg s 1 0x20000000).poke 0x20000040 ((List.range 64).map fun n => BitVec.ofNat 8 (n + 200))).poke (scratchAt 70 0x100) (toBytes 8 0x80000003DEADBEEF)
def kM : Skein := { k0 with lanes := 0x7, pc := [(0, 64), (1, 64), (2, 96)], x := [(3, 0), (0x103, 8), (10, 0x12345678), (11, 0x9ABCDEF0), (0x10A, 0x40490FDB), (12, 3), (13, 4)], u := [(5, 0x200040), (4, 0x100)] }
def wMm (m : MSlot) (k : Skein := kM) : State := wM k { m := m }
def tw (t : TSlot) : IWord := { t := t }
def vm11 := (iss (tw { top := 1, td := 9, ta := 3, tb := 3 }))
def vm12 := (wI k0 (tw { top := 1, td := 9, ta := 3, tb := 3 }))
def vm13 := ((wI k0 {}).grp (iss {}))
def vm16 := (tw { top := 0x15 })
def shm : MSlot := { mop := 0x10, ma := 255, mu := 5 }
def shK : Skein := { kM with lanes := 1 }
def wShtl : State := (wMm shm shK).poke 0x20000040 (mkBytes 64 [(0, 8, 0x200000), (8, 8, 0x300000), (16, 4, 64), (20, 2, 1), (22, 2, 1)])
def vm18 := (iss { m := shm })
def vm19 := ((wShtl.mPlan (wShtl.grp (iss { m := shm })) shm).accs.headD { lane := 0, addr := 0, key := 0, typ := 0 })

theorem witness_ArithmeticWordsIssue :
    (vm12.Issues vm11 ∧ vm11.word.c.cop = 0 ∧ vm11.word.m = { : MSlot } ∧ vm11.word.h = { : HSlot } ∧ vm11.word.t.top = 1) :=
  by unfold State.Issues; decide +kernel

theorem witness_IntegerResults :
    (vm13.act ≠ [] ∧ { top := 1, td := 9, ta := 3, tb := 3 : TSlot }.td ≠ 255 ∧
     false = ({ top := 1, td := 9, ta := 3, tb := 3 : TSlot }.tfmt == 1) ∧ { top := 1, td := 9, ta := 3, tb := 3 : TSlot }.tmod = 0 ∧
     { top := 1, td := 9, ta := 3, tb := 3 : TSlot }.top.toNat = 1) ∧
    ({ top := 18, td := 9, ta := 3, tb := 3 : TSlot }.td ≠ 255 ∧ false = ({ top := 18, td := 9, ta := 3, tb := 3 : TSlot }.tfmt == 1) ∧
     { top := 18, td := 9, ta := 3, tb := 3 : TSlot }.tmod = 0 ∧ { top := 18, td := 9, ta := 3, tb := 3 : TSlot }.top = 18) ∧
    ({ top := 8, tfmt := 1, td := 9, ta := 3, tb := 3, tmod := 64 : TSlot }.td ≠ 255 ∧
     true = ({ top := 8, tfmt := 1, td := 9, ta := 3, tb := 3, tmod := 64 : TSlot }.tfmt == 1) ∧
     { top := 8, tfmt := 1, td := 9, ta := 3, tb := 3, tmod := 64 : TSlot }.tmod = 64 ∧
     { top := 8, tfmt := 1, td := 9, ta := 3, tb := 3, tmod := 64 : TSlot }.top.toNat = 8 ∧ (8 = 8 → true = true)) ∧
    (21 ≤ vm16.t.top.toNat ∧ vm16.t.top.toNat ≤ 31 ∨ 1 ≤ vm16.t.top.toNat ∧ vm16.t.top.toNat ≤ 20 ∧ (2 ≤ vm16.t.tfmt.toNat ∨ vm16.t.top = 8 ∧ vm16.t.tfmt = 0 ∨ (vm16.t.top = 18 ∨ vm16.t.top = 19) ∧ vm16.t.tfmt = 1)) := by
  refine ⟨?_, ?_, ?_, ?_⟩ <;> decide +kernel

theorem witness_BranchesMoveGroups :
    ((wI kB (bw 2 3)).Issues (iss (bw 2 3)) ∧ (iss (bw 2 3)).word.t = { : TSlot } ∧ (iss (bw 2 3)).word.m = { : MSlot } ∧
     (iss (bw 2 3)).word.h = { : HSlot } ∧ (iss (bw 2 3)).word.c.cop = 2) :=
  by unfold State.Issues; decide +kernel

theorem witness_ControlWordsAct :
    (vm2 = vm1.skein (BitVec.toNat (iss (bw 6 0)).core) (BitVec.toNat (iss (bw 6 0)).slot) ∧ vm1.Issues (iss (bw 6 0)) ∧
     (iss (bw 6 0)).word.t = { : TSlot } ∧ (iss (bw 6 0)).word.m = { : MSlot } ∧ (iss (bw 6 0)).word.h = { : HSlot } ∧
     (iss (bw 6 0)).word.c.cop = 6 ∧ (vm1.core (BitVec.toNat (iss (bw 6 0)).core)).knotsOf vm2.bundle.toNat = []) ∧
    ((wKn (bw 7 1) 9).skein 70 6 = (wKn (bw 7 1) 9).skein (BitVec.toNat (iss (bw 7 1)).core) (BitVec.toNat (iss (bw 7 1)).slot) ∧
     (wKn (bw 7 1) 9).Issues (iss (bw 7 1)) ∧ (iss (bw 7 1)).word.t = { : TSlot } ∧ (iss (bw 7 1)).word.m = { : MSlot } ∧
     (iss (bw 7 1)).word.h = { : HSlot } ∧ ((iss (bw 7 1)).word.c.cop = if true = true then 7 else 8) ∧
     ((wKn (bw 7 1) 9).grp (iss (bw 7 1))).act = [1] ∧
     ((wKn (bw 7 1) 9).core (BitVec.toNat (iss (bw 7 1)).core)).knotNamed ((wKn (bw 7 1) 9).skein 70 6).bundle.toNat ((iss (bw 7 1)).word.c.cimm.toNat % 16) = some 4 ∧
     vm4 = nth { : Knot } ((wKn (bw 7 1) 9).core (BitVec.toNat (iss (bw 7 1)).core)).knots 4 ∧
     (¬threadKey (BitVec.toNat (iss (bw 7 1)).slot) 1 ∈ vm4.arrived) ∧
     (∀ (e : Nat × Skein), e ∈ ((wKn (bw 7 1) 9).core (BitVec.toNat (iss (bw 7 1)).core)).skeins → e.2.knotHeld = []) ∧
     vm4.arrived.length + 1 + vm4.exited < vm4.participants) ∧
    ((wKn (bw 7 1) 4).skein 70 6 = (wKn (bw 7 1) 4).skein (BitVec.toNat (iss (bw 7 1)).core) (BitVec.toNat (iss (bw 7 1)).slot) ∧
     (wKn (bw 7 1) 4).Issues (iss (bw 7 1)) ∧ ((wKn (bw 7 1) 4).grp (iss (bw 7 1))).act = [1] ∧
     ((wKn (bw 7 1) 4).core (BitVec.toNat (iss (bw 7 1)).core)).knotNamed ((wKn (bw 7 1) 4).skein 70 6).bundle.toNat ((iss (bw 7 1)).word.c.cimm.toNat % 16) = some 4 ∧
     vm5 = nth { : Knot } ((wKn (bw 7 1) 4).core (BitVec.toNat (iss (bw 7 1)).core)).knots 4 ∧
     (¬threadKey (BitVec.toNat (iss (bw 7 1)).slot) 1 ∈ vm5.arrived) ∧
     (∀ (e : Nat × Skein), e ∈ ((wKn (bw 7 1) 4).core (BitVec.toNat (iss (bw 7 1)).core)).skeins → e.2.knotHeld = []) ∧
     vm5.arrived.length + 1 + vm5.exited = vm5.participants) ∧
    ((wI kB (bw 9 0)).skein 70 6 = (wI kB (bw 9 0)).skein (BitVec.toNat (iss (bw 9 0)).core) (BitVec.toNat (iss (bw 9 0)).slot) ∧
     (wI kB (bw 9 0)).Issues (iss (bw 9 0)) ∧ (iss (bw 9 0)).word.t = { : TSlot } ∧ (iss (bw 9 0)).word.m = { : MSlot } ∧
     (iss (bw 9 0)).word.h = { : HSlot } ∧ (iss (bw 9 0)).word.c.cop = 9 ∧ ((wI kB (bw 9 0)).grp (iss (bw 9 0))).act ≠ [] ∧
     (∀ (p : Nat), p < 16 → ((wI kB (bw 9 0)).obPart p).phase = StepPhase.idle)) ∧
    ((wI kB (bw 10 0)).skein 70 6 = (wI kB (bw 10 0)).skein (BitVec.toNat (iss (bw 10 0)).core) (BitVec.toNat (iss (bw 10 0)).slot) ∧
     (wI kB (bw 10 0)).Issues (iss (bw 10 0)) ∧ (iss (bw 10 0)).word.t = { : TSlot } ∧ (iss (bw 10 0)).word.m = { : MSlot } ∧
     (iss (bw 10 0)).word.h = { : HSlot } ∧ (iss (bw 10 0)).word.c.cop = 10 ∧
     (wI kB (bw 10 0)).haltAllowed ((wI kB (bw 10 0)).partOf (BitVec.toNat (iss (bw 10 0)).core)) = true ∧
     maskOf ((wI kB (bw 10 0)).grp (iss (bw 10 0))).act &&& ~~~((wI kB (bw 10 0)).skein 70 6).brkPass ≠ 0) ∧
    (vm9 = vm8.skein (BitVec.toNat (iss (bw 10 0)).core) (BitVec.toNat (iss (bw 10 0)).slot) ∧ vm8.Issues (iss (bw 10 0)) ∧
     vm8.haltAllowed (vm8.partOf (BitVec.toNat (iss (bw 10 0)).core)) = true ∧
     maskOf (vm8.grp (iss (bw 10 0))).act &&& ~~~vm9.brkPass = 0) ∧
    (vm10 = (noDbg (wI kB (bw 10 0))).skein (BitVec.toNat (iss (bw 10 0)).core) (BitVec.toNat (iss (bw 10 0)).slot) ∧
     (noDbg (wI kB (bw 10 0))).Issues (iss (bw 10 0)) ∧
     (noDbg (wI kB (bw 10 0))).haltAllowed ((noDbg (wI kB (bw 10 0))).partOf (BitVec.toNat (iss (bw 10 0)).core)) = false ∧
     maskOf ((noDbg (wI kB (bw 10 0))).grp (iss (bw 10 0))).act &&& ~~~vm10.brkPass ≠ 0 ∧
     (∀ (p : Nat), p < 16 → ((noDbg (wI kB (bw 10 0))).obPart p).phase = StepPhase.idle)) :=
  ⟨by unfold State.Issues; decide +kernel,
    by unfold State.Issues; decide +kernel,
    by unfold State.Issues; decide +kernel,
    by unfold State.Issues; decide +kernel,
    by unfold State.Issues; decide +kernel,
    by unfold State.Issues; decide +kernel,
    by unfold State.Issues; decide +kernel⟩

theorem witness_MemoryWordsAct :
    (wShtl.Issues vm18 ∧ vm18.word.c.cop = 0 ∧ vm18.word.t = { : TSlot } ∧ vm18.word.h = { : HSlot } ∧ (wShtl.core 70).mq = [] ∧
     (wShtl.skein 70 6).fence = none ∧ (∀ (p : Pending), p ∈ (wShtl.skein 70 6).pend → p.ready = true ∧ p.stay = false) ∧
     (wShtl.grp vm18).act ≠ [] ∧ (wShtl.mPlan (wShtl.grp vm18) shm).accs = [vm19] ∧ vm19.typ ≠ 2 ∧ isReg vm19.addr = false ∧
     (wShtl.core 70).sb = [] ∧ shm.mop = 16 ∧ shtlEngine shm < (wShtl.core 70).engines.length) ∧
    shtlQueue shm < ((wShtl.core 70).engine (shtlEngine shm)).queues.length :=
  ⟨by unfold State.Issues; decide +kernel,
    by decide +kernel⟩

end Sys2Proof.Tests.Witness.M

namespace Sys2Proof.Tests.Witness.N
open Sys2Proof Sys2Proof.Machine

def up0 : Port := { st := .up, width := 3, enable := true, expect := 7, accepted := true, peer := 1, lastBlockAt := 4999000000 }
def wL (f : Port → Port := id) (i : Nat := 3) : State := { wUp with wlk := { w0.wlk with shape := [2, 1, 0, 0, 0, 0], moduleId := 0, ports := (List.range 12).map fun n => if n = i then f up0 else up0 } , ptn := (List.range 16).map fun n => if n = 2 then { st := .formed, bound := true, quads := 3, admission := { en := true, lo := 0, hi := 7 } :: List.replicate 7 {}, land := { en := true, base := 0x100, limit := 0x110 } :: List.replicate 3 {}, xlatBase := 0x10000 } else {}, ob := { w0.ob with ptn := List.replicate 16 {} } }
def mapPg (s : State) (k pa : Nat) : State := s.poke (0x80000 + 16 * k) (toBytes 8 pa ++ toBytes 8 0x13)
def wK (k : Core) : State := let s := mapPg (((wL).poke 0x10000 (toBytes 8 0x80000 ++ toBytes 8 1))) 1 0x20000000; { s with cores := [(70, k), (71, { lastSlot := 4 })] }
def k0 : Skein := { st := .running, bundle := 5, units := 8, lanes := 0xF, pc := [(0, 64), (1, 64), (2, 96), (3, 64)], x := [(0 * 256 + 3, 0x80000001), (1 * 256 + 3, 0x7FFFFFFF)], u := [(5, 0x1000), (4, 77)], p := [(1, 3)], gen := [] }
def wI (k : Skein) (w : IWord) : State := wK { skeins := [(6, { k with decoded := [(64, w)] }), (7, { st := .running, bundle := 5 })], bundles := [(5, { st := .running })] }
def iss (w : IWord) : Issue := { core := 70, slot := 6, pc := 64, word := w }
def wM (k : Skein) (w : IWord) : State := let s := wI k w; ((mapPg s 1 0x20000000).poke 0x20000040 ((List.range 64).map fun n => BitVec.ofNat 8 (n + 200))).poke (scratchAt 70 0x100) (toBytes 8 0x80000003DEADBEEF)
def kM : Skein := { k0 with lanes := 0x7, pc := [(0, 64), (1, 64), (2, 96)], x := [(3, 0), (0x103, 8), (10, 0x12345678), (11, 0x9ABCDEF0), (0x10A, 0x40490FDB), (12, 3), (13, 4)], u := [(5, 0x200040), (4, 0x100)] }
def mm (op sz sub sp : Nat) : MSlot := { mop := BitVec.ofNat 6 op, msz := BitVec.ofNat 3 sz, md := 10, ma := 3, mu := if sp = 1 then 4 else 5, msp := BitVec.ofNat 2 sp, msub := BitVec.ofNat 3 sub }
def wMm (m : MSlot) (k : Skein := kM) : State := wM k { m := m }
def vn1 := (iss { m := mm 1 0 0 0 })
def vn2 := ((wMm (mm 1 0 0 0) kM).skein 70 6)
def vn3 := (iss { m := mm 1 0 0 1 })
def vn4 := ((wMm (mm 1 0 0 1) kM).skein 70 6)
def vn25 := (iss { m := { mm 3 3 0 0 with ma := 255, md := 9 } })
def vn26 := (wMm ({ mm 3 3 0 0 with ma := 255, md := 9 }) kM)
def vn28 := ((wMm ({ mm 3 3 0 0 with ma := 255, md := 9 }) kM).skein 70 6)
def vn29 := ({ mm 3 3 0 0 with ma := 255, md := 9 })
def vn30 := (iss { m := { mm 2 2 0 0 with md := 10 } })
def vn31 := (wMm ({ mm 2 2 0 0 with md := 10 }) { kM with lanes := 1 })
def vn32 := (accSize ({ mm 2 2 0 0 with md := 10 }))
def vn33 := ((wMm ({ mm 2 2 0 0 with md := 10 }) { kM with lanes := 1 }).skein 70 6)
def vn34 := ({ mm 2 2 0 0 with md := 10 })
def vn35 := (nth { lane := 0, addr := 0, typ := 0, key := 0, data := [] } ((wMm ({ mm 2 2 0 0 with md := 10 }) { kM with lanes := 1 }).mPlan ((wMm ({ mm 2 2 0 0 with md := 10 }) { kM with lanes := 1 }).grp (iss { m := { mm 2 2 0 0 with md := 10 } })) ({ mm 2 2 0 0 with md := 10 })).accs 0)
def vn36 := (iss { m := mm 2 0 0 1 })
def vn37 := (wMm (mm 2 0 0 1) { kM with lanes := 1 })
def vn38 := ((wMm (mm 2 0 0 1) { kM with lanes := 1 }).skein 70 6)
def vn48 := (iss { m := { mop := 0x12, ma := 255, mu := 5, moff := 9 } })
def vn49 := (wMm ({ mop := 0x12, ma := 255, mu := 5, moff := 9 }) kM)
def vn51 := ((wMm ({ mop := 0x12, ma := 255, mu := 5, moff := 9 }) kM).skein 70 6)
def vn52 := (iss { m := { mop := 0x11, ma := 255, mu := 5, moff := 9 } })
def vn53 := (wMm ({ mop := 0x11, ma := 255, mu := 5, moff := 9 }) kM)
def vn55 := ((wMm ({ mop := 0x11, ma := 255, mu := 5, moff := 9 }) kM).skein 70 6)
def vn60 := (iss { m := { mop := 0x18, msub := 0 } })
def vn61 := (wMm ({ mop := 0x18, msub := 0 }) kM)
def vn63 := ((wMm ({ mop := 0x18, msub := 0 }) kM).skein 70 6)
def vn64 := (iss { m := { mop := 0x1A, msub := 0 } })
def vn65 := (wMm ({ mop := 0x1A, msub := 0 }) kM)
def vn67 := ((wMm ({ mop := 0x1A, msub := 0 }) kM).skein 70 6)
def vn68 := (iss { m := { mop := 0x19, msub := 0, ma := 3, mu := 5 } })
def vn69 := (wMm ({ mop := 0x19, msub := 0, ma := 3, mu := 5 }) kM)
def vn71 := ((wMm ({ mop := 0x19, msub := 0, ma := 3, mu := 5 }) kM).skein 70 6)
def vn96 := (iss { m := { mm 4 2 0 1 with md := 12 } })
def vn97 := (wMm ({ mm 4 2 0 1 with md := 12 }) { kM with lanes := 2, x := [(0x103, 8), (0x10C, 0x40490FDB), (0x10D, 0xBF800000), (0x10E, 7), (0x10F, 9)] })
def vn99 := ((wMm ({ mm 4 2 0 1 with md := 12 }) { kM with lanes := 2, x := [(0x103, 8), (0x10C, 0x40490FDB), (0x10D, 0xBF800000), (0x10E, 7), (0x10F, 9)] }).skein 70 6)
def vn100 := ({ mm 4 2 0 1 with md := 12 })
def vn346 := (iss { m := { mm 1 2 0 0 with md := 255 } })
def vn347 := (wMm ({ mm 1 2 0 0 with md := 255 }) kM)
def vn348 := (accSize ({ mm 1 2 0 0 with md := 255 }))
def vn349 := ((wMm ({ mm 1 2 0 0 with md := 255 }) kM).skein 70 6)
def vn350 := ({ mm 1 2 0 0 with md := 255 })
def vn351 := ((wMm ({ mm 1 2 0 0 with md := 255 }) kM).mPlan ((wMm ({ mm 1 2 0 0 with md := 255 }) kM).grp (iss { m := { mm 1 2 0 0 with md := 255 } })) ({ mm 1 2 0 0 with md := 255 })).accs
def vn352 := (iss { m := { mm 3 2 0 1 with ma := 255, md := 9 } })
def vn353 := (wMm ({ mm 3 2 0 1 with ma := 255, md := 9 }) kM)
def vn355 := ((wMm ({ mm 3 2 0 1 with ma := 255, md := 9 }) kM).skein 70 6)
def vn356 := ({ mm 3 2 0 1 with ma := 255, md := 9 })

theorem witness_MemoryWordsAct :
    ((wMm (mm 1 0 0 0)).Issues vn1 ∧ vn1.word.c.cop = 0 ∧ vn1.word.t = { : TSlot } ∧ vn1.word.h = { : HSlot } ∧
     ((wMm (mm 1 0 0 0)).core 70).mq = [] ∧ vn2.fence = none ∧ (∀ (p : Pending), p ∈ vn2.pend → p.ready = true ∧ p.stay = false) ∧
     ((wMm (mm 1 0 0 0)).grp vn1).act ≠ [] ∧ ((wMm (mm 1 0 0 0)).mPlan ((wMm (mm 1 0 0 0)).grp vn1) (mm 1 0 0 0)).causes = [] ∧
     (∀ (a : LaneAcc), a ∈ ((wMm (mm 1 0 0 0)).mPlan ((wMm (mm 1 0 0 0)).grp vn1) (mm 1 0 0 0)).accs → (a.typ = 0 ∨ a.typ = 1) ∧ isReg a.addr = false) ∧
     ((wMm (mm 1 0 0 0)).core 70).fillsFit (mm 1 0 0 0).mhint.toNat ((wMm (mm 1 0 0 0)).mPlan ((wMm (mm 1 0 0 0)).grp vn1) (mm 1 0 0 0)).accs = true ∧
     (mm 1 0 0 0).mop = 1 ∧ (∃ r, r ∈ loadRegs (RegName.x (mm 1 0 0 0).md) (accSize (mm 1 0 0 0)) ∧ discards r = false)) ∧
    (vn347.Issues vn346 ∧ vn346.word.c.cop = 0 ∧ vn346.word.t = { : TSlot } ∧ vn346.word.h = { : HSlot } ∧ (vn347.core 70).mq = [] ∧
     vn349.fence = none ∧ (∀ (p : Pending), p ∈ vn349.pend → p.ready = true ∧ p.stay = false) ∧ (vn347.grp vn346).act ≠ [] ∧
     (vn347.mPlan (vn347.grp vn346) vn350).causes = [] ∧
     (∀ (a : LaneAcc), a ∈ vn351 → (a.typ = 0 ∨ a.typ = 1) ∧ isReg a.addr = false) ∧
     (vn347.core 70).fillsFit vn350.mhint.toNat vn351 = true ∧ vn350.mop = 1 ∧
     (∀ (r : RegName), r ∈ loadRegs (RegName.x vn350.md) vn348 → discards r = true) ∧ (vn347.core 70).lq = []) ∧
    (vn26.Issues vn25 ∧ vn25.word.c.cop = 0 ∧ vn25.word.t = { : TSlot } ∧ vn25.word.h = { : HSlot } ∧ (vn26.core 70).mq = [] ∧
     vn28.fence = none ∧ (∀ (p : Pending), p ∈ vn28.pend → p.ready = true ∧ p.stay = false) ∧ (vn26.grp vn25).act ≠ [] ∧
     (vn26.mPlan (vn26.grp vn25) vn29).causes = [] ∧
     (∀ (a : LaneAcc), a ∈ (vn26.mPlan (vn26.grp vn25) vn29).accs → (a.typ = 0 ∨ a.typ = 1) ∧ isReg a.addr = false) ∧
     (vn26.core 70).fillsFit vn29.mhint.toNat (vn26.mPlan (vn26.grp vn25) vn29).accs = true ∧ vn29.mop = 3) ∧
    (∀ (a : LaneAcc), a ∈ ((wMm (mm 1 0 0 1)).mPlan ((wMm (mm 1 0 0 1)).grp vn3) (mm 1 0 0 1)).accs → a.typ = 3 ∧ isReg a.addr = false ∧ isStack a.addr = false ∧ isLpd a.addr = false) ∧
    ((wMm (mm 1 0 0 1)).Issues vn3 ∧ vn3.word.c.cop = 0 ∧ vn3.word.t = { : TSlot } ∧ vn3.word.h = { : HSlot } ∧
     ((wMm (mm 1 0 0 1)).core 70).mq = [] ∧ vn4.fence = none ∧ (∀ (p : Pending), p ∈ vn4.pend → p.ready = true ∧ p.stay = false) ∧
     ((wMm (mm 1 0 0 1)).grp vn3).act ≠ [] ∧ ((wMm (mm 1 0 0 1)).mPlan ((wMm (mm 1 0 0 1)).grp vn3) (mm 1 0 0 1)).causes = [] ∧
     ((wMm (mm 1 0 0 1)).mPlan ((wMm (mm 1 0 0 1)).grp vn3) (mm 1 0 0 1)).accs ≠ [] ∧ ((wMm (mm 1 0 0 1)).core 70).lq = [] ∧
     ((wMm (mm 1 0 0 1)).core 70).fillsFit (mm 1 0 0 1).mhint.toNat ((wMm (mm 1 0 0 1)).mPlan ((wMm (mm 1 0 0 1)).grp vn3) (mm 1 0 0 1)).accs = true ∧
     (mm 1 0 0 1).mop = 1) ∧
    (∀ (a : LaneAcc), a ∈ (vn353.mPlan (vn353.grp vn352) vn356).accs → a.typ = 3 ∧ isReg a.addr = false ∧ isStack a.addr = false ∧ isLpd a.addr = false) ∧
    (vn353.Issues vn352 ∧ vn352.word.c.cop = 0 ∧ vn352.word.t = { : TSlot } ∧ vn352.word.h = { : HSlot } ∧ (vn353.core 70).mq = [] ∧
     vn355.fence = none ∧ (∀ (p : Pending), p ∈ vn355.pend → p.ready = true ∧ p.stay = false) ∧ (vn353.grp vn352).act ≠ [] ∧
     (vn353.mPlan (vn353.grp vn352) vn356).causes = [] ∧ (vn353.mPlan (vn353.grp vn352) vn356).accs ≠ [] ∧ (vn353.core 70).lq = [] ∧
     (vn353.core 70).fillsFit vn356.mhint.toNat (vn353.mPlan (vn353.grp vn352) vn356).accs = true ∧ vn356.mop = 3) ∧
    (vn31.Issues vn30 ∧ vn30.word.c.cop = 0 ∧ vn30.word.t = { : TSlot } ∧ vn30.word.h = { : HSlot } ∧ (vn31.core 70).mq = [] ∧
     vn33.fence = none ∧ (∀ (p : Pending), p ∈ vn33.pend → p.ready = true ∧ p.stay = false) ∧ (vn31.grp vn30).act ≠ [] ∧
     (vn31.mPlan (vn31.grp vn30) vn34).causes = [] ∧ (vn31.mPlan (vn31.grp vn30) vn34).accs = [vn35] ∧ vn35.typ ≠ 2 ∧
     isReg vn35.addr = false ∧ (vn31.core 70).sb = [] ∧ vn34.mop = 2) ∧
    (vn35.typ = 0 ∧ (vn32 ≤ 8 ∨ isStack vn35.addr = true) ∧ (vn31.core 70).lq = []) ∧
    (vn37.Issues vn36 ∧ vn36.word.c.cop = 0 ∧ vn36.word.t = { : TSlot } ∧ vn36.word.h = { : HSlot } ∧ (vn37.core 70).mq = [] ∧
     vn38.fence = none ∧ (∀ (p : Pending), p ∈ vn38.pend → p.ready = true ∧ p.stay = false) ∧ (vn37.grp vn36).act ≠ [] ∧
     (vn37.mPlan (vn37.grp vn36) (mm 2 0 0 1)).causes = [] ∧ (mm 2 0 0 1).msp = 1 ∧ (vn37.grp vn36).act = [0] ∧
     (vn37.core 70).lostScratch = none ∧ (vn37.core 70).sb = [] ∧ (vn37.core 70).lq = []) ∧
    (mm 2 0 0 1).mop = 2 ∧
    (vn97.Issues vn96 ∧ vn96.word.c.cop = 0 ∧ vn96.word.t = { : TSlot } ∧ vn96.word.h = { : HSlot } ∧ (vn97.core 70).mq = [] ∧
     vn99.fence = none ∧ (∀ (p : Pending), p ∈ vn99.pend → p.ready = true ∧ p.stay = false) ∧ (vn97.grp vn96).act ≠ [] ∧
     (vn97.mPlan (vn97.grp vn96) vn100).causes = [] ∧ vn100.msp = 1 ∧ (vn97.grp vn96).act = [1] ∧ (vn97.core 70).lostScratch = none ∧
     (vn97.core 70).sb = [] ∧ (vn97.core 70).lq = []) ∧
    vn100.mop = 4#6 ∧
    (vn49.Issues vn48 ∧ vn48.word.c.cop = 0 ∧ vn48.word.t = { : TSlot } ∧ vn48.word.h = { : HSlot } ∧ (vn49.core 70).mq = [] ∧
     vn51.fence = none ∧ (∀ (p : Pending), p ∈ vn51.pend → p.ready = true ∧ p.stay = false) ∧ (vn49.grp vn48).act ≠ [] ∧
     (vn49.mPlan (vn49.grp vn48) { mop := 18, ma := 255, mu := 5, moff := 9 : MSlot }).causes = [] ∧
     { mop := 18, ma := 255, mu := 5, moff := 9 : MSlot }.mop = 18) ∧
    (vn53.Issues vn52 ∧ vn52.word.c.cop = 0 ∧ vn52.word.t = { : TSlot } ∧ vn52.word.h = { : HSlot } ∧ (vn53.core 70).mq = [] ∧
     vn55.fence = none ∧ (∀ (p : Pending), p ∈ vn55.pend → p.ready = true ∧ p.stay = false) ∧ (vn53.grp vn52).act ≠ [] ∧
     (vn53.mPlan (vn53.grp vn52) { mop := 17, ma := 255, mu := 5, moff := 9 : MSlot }).causes = [] ∧
     { mop := 17, ma := 255, mu := 5, moff := 9 : MSlot }.mop = 17) ∧
    (vn61.Issues vn60 ∧ vn60.word.c.cop = 0 ∧ vn60.word.t = { : TSlot } ∧ vn60.word.h = { : HSlot } ∧ (vn61.core 70).mq = [] ∧
     vn63.fence = none ∧ (∀ (p : Pending), p ∈ vn63.pend → p.ready = true ∧ p.stay = false) ∧ (vn61.grp vn60).act ≠ [] ∧
     (vn61.mPlan (vn61.grp vn60) { mop := 24 : MSlot }).causes = [] ∧ { mop := 24 : MSlot }.mop = 24) ∧
    (vn69.Issues vn68 ∧ vn68.word.c.cop = 0 ∧ vn68.word.t = { : TSlot } ∧ vn68.word.h = { : HSlot } ∧ (vn69.core 70).mq = [] ∧
     vn71.fence = none ∧ (∀ (p : Pending), p ∈ vn71.pend → p.ready = true ∧ p.stay = false) ∧ (vn69.grp vn68).act ≠ [] ∧
     { mop := 25, ma := 3, mu := 5 : MSlot }.mop = 25) ∧
    (vn65.Issues vn64 ∧ vn64.word.c.cop = 0 ∧ vn64.word.t = { : TSlot } ∧ vn64.word.h = { : HSlot } ∧ (vn65.core 70).mq = [] ∧
     vn67.fence = none ∧ (∀ (p : Pending), p ∈ vn67.pend → p.ready = true ∧ p.stay = false) ∧ (vn65.grp vn64).act ≠ [] ∧
     (vn65.mPlan (vn65.grp vn64) { mop := 26 : MSlot }).causes = [] ∧ { mop := 26 : MSlot }.mop = 26) :=
  ⟨by unfold State.Issues; decide +kernel,
    by unfold State.Issues; decide +kernel,
    by unfold State.Issues; decide +kernel,
    fun a ha => have x := (show ∀ a ∈ ((wMm (mm 1 0 0 1)).mPlan ((wMm (mm 1 0 0 1)).grp vn3) (mm 1 0 0 1)).accs, a.typ = 3 ∧ isReg a.addr = false ∧ isStack a.addr = false ∧ lpdBase + 0x8000000000 ≤ a.addr from by decide +kernel) a ha
      ⟨x.1, x.2.1, x.2.2.1, isLpd_high x.2.2.2⟩,
    by unfold State.Issues; decide +kernel,
    fun a ha => have x := (show ∀ a ∈ (vn353.mPlan (vn353.grp vn352) vn356).accs, a.typ = 3 ∧ isReg a.addr = false ∧ isStack a.addr = false ∧ lpdBase + 0x8000000000 ≤ a.addr from by decide +kernel) a ha
      ⟨x.1, x.2.1, x.2.2.1, isLpd_high x.2.2.2⟩,
    by unfold State.Issues; decide +kernel,
    by unfold State.Issues; decide +kernel,
    by decide +kernel,
    by unfold State.Issues; decide +kernel,
    by decide +kernel,
    by unfold State.Issues; decide +kernel,
    by decide +kernel,
    by unfold State.Issues; decide +kernel,
    by unfold State.Issues; decide +kernel,
    by unfold State.Issues; decide +kernel,
    by unfold State.Issues; decide +kernel,
    by unfold State.Issues; decide +kernel⟩

end Sys2Proof.Tests.Witness.N

namespace Sys2Proof.Tests.Witness.O
open Sys2Proof Sys2Proof.Machine

def up0 : Port := { st := .up, width := 3, enable := true, expect := 7, accepted := true, peer := 1, lastBlockAt := 4999000000 }
def wL (f : Port → Port := id) (i : Nat := 3) : State := { wUp with wlk := { w0.wlk with shape := [2, 1, 0, 0, 0, 0], moduleId := 0, ports := (List.range 12).map fun n => if n = i then f up0 else up0 } , ptn := (List.range 16).map fun n => if n = 2 then { st := .formed, bound := true, quads := 3, admission := { en := true, lo := 0, hi := 7 } :: List.replicate 7 {}, land := { en := true, base := 0x100, limit := 0x110 } :: List.replicate 3 {}, xlatBase := 0x10000 } else {}, ob := { w0.ob with ptn := List.replicate 16 {} } }
def mapPg (s : State) (k pa : Nat) : State := s.poke (0x80000 + 16 * k) (toBytes 8 pa ++ toBytes 8 0x13)
def wK (k : Core) : State := let s := mapPg (((wL).poke 0x10000 (toBytes 8 0x80000 ++ toBytes 8 1))) 1 0x20000000; { s with cores := [(70, k), (71, { lastSlot := 4 })] }
def k0 : Skein := { st := .running, bundle := 5, units := 8, lanes := 0xF, pc := [(0, 64), (1, 64), (2, 96), (3, 64)], x := [(0 * 256 + 3, 0x80000001), (1 * 256 + 3, 0x7FFFFFFF)], u := [(5, 0x1000), (4, 77)], p := [(1, 3)], gen := [] }
def wI (k : Skein) (w : IWord) : State := wK { skeins := [(6, { k with decoded := [(64, w)] }), (7, { st := .running, bundle := 5 })], bundles := [(5, { st := .running })] }
def iss (w : IWord) : Issue := { core := 70, slot := 6, pc := 64, word := w }
def kH : Skein := { k0 with lanes := 7, u := [(5, 0x1000)] }
def hSl (op : Nat) : HSlot := { hop := BitVec.ofNat 4 op, hoop := 1, sub := 0, hfmt := 0, bank := 1, plane := 1, rows := if op = 1 then 31 else 0, hu := 5, hnou := 0, hoff := 0x10, hstride := 0, haux := 0 }
def wHo (h : HSlot) (x : SubHoop := {}) : State := (wI kH { h := h }).modCore 70 fun c => { c with hoops := [{}, { subs := [x, {}, {}, {}] }, {}, {}] }
def h0_ : HSlot := { hSl 1 with bank := 0 }
def x0_ : SubHoop := {}
def i0_ : Issue := iss { h := h0_ }
def s0_ : State := wHo h0_ x0_
def h5_ : HSlot := { hSl 5 with hu := 0, hoff := 0, rows := 0, plane := 0 }
def x5_ : SubHoop := { bankB := { mode := .fp32, cells := [(3, 4)] } }
def i5_ : Issue := iss { h := h5_ }
def s5_ : State := wHo h5_ x5_
def h6_ : HSlot := { hSl 6 with hu := 0, hoff := 0, rows := 0, plane := 0, bank := 0, haux := 1 }
def x6_ : SubHoop := {}
def i6_ : Issue := iss { h := h6_ }
def s6_ : State := wHo h6_ x6_

theorem witness_HoopWordsAct :
    (h0_.hoop.toNat < (s0_.core 70).hoops.length ∧ h0_.sub.toNat < ((s0_.core 70).hoop 1).subs.length ∧ s0_.Issues i0_ ∧
     i0_.word.c.cop = 0 ∧ i0_.word.t = { : TSlot } ∧ i0_.word.m = { : MSlot } ∧ (s0_.grp i0_).act ≠ [] ∧
     (s0_.core 70).hAnswer 6 i0_.pc h0_ = HAnswer.go ∧ h0_.hop = 1) ∧
    (h5_.hoop.toNat < (s5_.core 70).hoops.length ∧ h5_.sub.toNat < ((s5_.core 70).hoop 1).subs.length ∧ s5_.Issues i5_ ∧
     i5_.word.c.cop = 0 ∧ i5_.word.t = { : TSlot } ∧ i5_.word.m = { : MSlot } ∧ (s5_.grp i5_).act ≠ [] ∧
     (s5_.core 70).hAnswer 6 i5_.pc h5_ = HAnswer.go ∧ h5_.hop = 5) ∧
    (h6_.hoop.toNat < (s6_.core 70).hoops.length ∧ h6_.sub.toNat < ((s6_.core 70).hoop 1).subs.length ∧ s6_.Issues i6_ ∧
     i6_.word.c.cop = 0 ∧ i6_.word.t = { : TSlot } ∧ i6_.word.m = { : MSlot } ∧ (s6_.grp i6_).act ≠ [] ∧
     (s6_.core 70).hAnswer 6 i6_.pc h6_ = HAnswer.go ∧ h6_.hop = 6) :=
  ⟨by unfold State.Issues; decide +kernel,
    by unfold State.Issues; decide +kernel,
    by unfold State.Issues; decide +kernel⟩

end Sys2Proof.Tests.Witness.O
end

section
/-! SUPPORT. What is read of a sparse table after a change of its entries, and what a walk over a list reaches. -/

namespace Sys2Proof.Machine

section Tables
variable {α : Type}

/-- A change of some entries that leaves an unlisted value alone acts on the value under each key. -/
theorem tget_map_if (d : α) (m : SMap α) (p : Nat × α → Bool) (g : Nat × α → α) (hd : ∀ j, p (j, d) = true → g (j, d) = d) (k : Nat) :
    tget d (m.map fun e => if p e then (e.1, g e) else e) k = if p (k, tget d m k) then g (k, tget d m k) else tget d m k := by
  induction m with
  | nil =>
    show d = if p (k, d) then g (k, d) else d
    split
    · next h => exact (hd k h).symm
    · rfl
  | cons e r ih =>
    obtain ⟨j, v⟩ := e
    by_cases h : j = k
    · subst h
      cases hp : p (j, v) <;> simp [tget, hp]
    · cases hp : p (j, v) <;> simpa [tget, h, hp] using ih

/-- A value other than an unlisted key's stands in the table. -/
theorem mem_of_tget_ne (d : α) (m : SMap α) (k : Nat) (h : tget d m k ≠ d) : (k, tget d m k) ∈ m := by
  induction m with
  | nil => exact absurd rfl h
  | cons e r ih =>
    obtain ⟨j, v⟩ := e
    by_cases hj : j = k
    · simp [tget, hj]
    · simp only [tget, beq_iff_eq, hj, if_false] at h ⊢
      exact List.mem_cons_of_mem _ (ih h)

/-- What holds of the default and of every entry holds under every key. -/
theorem tget_of_forall {P : α → Prop} (d : α) (m : SMap α) (hd : P d) (h : ∀ e ∈ m, P e.2) (k : Nat) : P (tget d m k) := by
  induction m with
  | nil => exact hd
  | cons e r ih =>
    unfold tget
    split
    · exact h e (List.mem_cons_self ..)
    · exact ih fun e he => h e (List.mem_cons_of_mem _ he)

end Tables

/-- A walk that changes nothing at any element changes nothing. -/
theorem State.each_id {α : Type} (s : State) (l : List α) (f : State → α → State) (h : ∀ a ∈ l, f s a = s) : s.each l f = s := by
  unfold State.each
  induction l with
  | nil => rfl
  | cons a r ih =>
    rw [List.foldl_cons, h a (List.mem_cons_self ..)]
    exact ih fun b hb => h b (List.mem_cons_of_mem _ hb)

/-- A walk that at one element goes from P to Q, and elsewhere leaves P only for Q and never leaves Q, ends in Q. -/
theorem State.each_reaches {α : Type} {P Q : State → Prop} {f : State → α → State} {a : α} (hP : ∀ s x, P s → P (f s x) ∨ Q (f s x))
    (hQ : ∀ s x, Q s → Q (f s x)) (hAt : ∀ s, P s → Q (f s a)) (l : List α) (ha : a ∈ l) (s : State) (hs : P s) : Q (s.each l f) := by
  induction l generalizing s with
  | nil => cases ha
  | cons x r ih =>
    have hRest (h : Q (f s x)) : Q ((f s x).each r f) := State.each_induct r f hQ _ h
    rcases List.mem_cons.1 ha with rfl | har
    · exact hRest (hAt s hs)
    · rcases hP s x hs with h | h
      · exact ih har _ h
      · exact hRest h

/-- The lowest of some values is one of them. -/
theorem lowest_mem {l : List Nat} (h : l ≠ []) : (lowest l).getD 0 ∈ l := by
  have hFold (r : List Nat) (c : Nat) : ∃ a ∈ c :: r, r.foldl (fun m c => match m with
      | none => some c
      | some d => some (min c d)) (some c) = some a := by
    induction r generalizing c with
    | nil => exact ⟨c, List.mem_cons_self .., rfl⟩
    | cons b r ih =>
      obtain ⟨a, ha, hr⟩ := ih (min b c)
      refine ⟨a, ?_, hr⟩
      rcases List.mem_cons.1 ha with rfl | ha
      · rcases Nat.le_total b c with h | h <;> simp [h]
      · simp [ha]
  cases l with
  | nil => exact absurd rfl h
  | cons c r =>
    obtain ⟨a, ha, hr⟩ := hFold r c
    have : lowest (c :: r) = some a := hr
    simpa [this] using ha

end Sys2Proof.Machine
end

section
/-! SUPPORT. What an error record leaves in the module log (R529 to R531). -/

namespace Sys2Proof.Machine

/-- The counts of records start anew with each second of global time (R531). -/
def State.inSecond (s : State) : State :=
  if s.err.second == s.now / 1000000000 then s else s.modErr fun e => { e with second := s.now / 1000000000, counts := [] }

/-- A new second touches neither the time nor the counts of records written and suppressed. -/
theorem State.inSecond_kept (s : State) :
    s.inSecond.time = s.time ∧ s.inSecond.err.written = s.err.written ∧ s.inSecond.err.suppressed = s.err.suppressed := by
  unfold State.inSecond
  split <;> simp

/-- A record that is written is counted and stands in the module log. -/
theorem State.writeRecord_err (s : State) (cls : RecCls) (acct : Acct) (r : ErrRec) :
    (s.writeRecord cls acct r).err.written = s.err.written + 1 ∧ ∃ k, (k, r) ∈ (s.writeRecord cls acct r).err.log := by
  have hEvent (b : Bool) (x : State) : (x.when b fun s => s.platformEvent 10 1).err = x.err :=
    State.when_keeps State.err x b _ (by simp)
  have hVf (b : Bool) (x : State) (fn : Nat) : (x.when b fun s => s.msix fn 1).err = x.err :=
    State.when_keeps State.err x b _ (by simp)
  cases cls with
  | corrected | module => simp [State.writeRecord, hEvent, mem_tinsert]
  | absorbed | contained =>
    simp only [State.writeRecord, State.msix_err]
    split <;> simp [mem_tinsert]
  | partition =>
    simp only [State.writeRecord]
    split <;> split <;> simp [hVf, mem_tinsert]

/-- An event with a record: written into the module log, or, where its class has a limit, counted as suppressed. -/
theorem State.record_err (s : State) (cls : RecCls) (acct : Acct) (unit source code part : Nat) (detail : List Byte) :
    ((s.record cls acct unit source code part detail).err.written = s.err.written + 1 ∧
      ∃ k, (k, ({ time := s.time.now, unit := unit, cls := cls.code, source := source, code := code, part := part,
                  detail := detail } : ErrRec)) ∈ (s.record cls acct unit source code part detail).err.log) ∨
    (recLimit cls unit acct ≠ none ∧ (s.record cls acct unit source code part detail).err.written = s.err.written ∧
      (s.record cls acct unit source code part detail).err.suppressed = satAdd s.err.suppressed 1) := by
  obtain ⟨hTime, hWritten, hSuppressed⟩ := s.inSecond_kept
  unfold State.record
  dsimp only
  generalize hb : (if s.err.second == s.now / 1000000000 then s else _) = b
  obtain rfl : s.inSecond = b := hb
  rw [hTime]
  generalize hx : State.when _ _ _ = x
  have hErr : x.err = s.inSecond.err := by
    rw [← hx]
    exact State.when_keeps State.err _ _ _ rfl
  rw [← hWritten, ← hSuppressed, ← hErr]
  split
  · exact .inl (State.writeRecord_err _ _ _ _)
  · split
    · exact .inl (State.writeRecord_err _ _ _ _)
    · next h _ => exact .inr ⟨by simp [h], rfl, rfl⟩

/-- A contained record has no limit. -/
theorem State.record_contained (s : State) (unit source code part : Nat) (detail : List Byte) :
    ∃ k, (k, ({ time := s.time.now, unit := unit, cls := 2, source := source, code := code, part := part,
                detail := detail } : ErrRec)) ∈ (s.record .contained .module unit source code part detail).err.log := by
  rcases s.record_err .contained .module unit source code part detail with h | h
  · exact h.2
  · exact absurd rfl h.1

/-- A refused register write is recorded as absorbed, and does nothing else. -/
theorem State.refusedWrite_absorbs (s : State) (unit part addr : Nat) (acct : Acct) : s.Absorbs (s.refusedWrite unit part addr acct) := by
  constructor
  · obtain ⟨_, _, _, _, _, _, h⟩ := s.record_changes .absorbed acct unit 0x0F 1 part (toBytes 8 addr)
    unfold State.RecordOnly State.refusedWrite
    rw [h]
  · rcases s.record_err .absorbed acct unit 0x0F 1 part (toBytes 8 addr) with ⟨hw, k, hk⟩ | ⟨-, hw, hs⟩
    · exact .inl ⟨hw, _, hk, rfl, rfl⟩
    · exact .inr ⟨hw, hs⟩

end Sys2Proof.Machine
end

section
/-! SUPPORT. A core's skeins and bundles through changes of other parts. -/

namespace Sys2Proof.Machine

theorem State.core_of_cores {s t : State} (h : t.cores = s.cores) (c : Nat) : t.core c = s.core c := by
  unfold State.core
  rw [h]

theorem State.skein_of_cores {s t : State} (h : t.cores = s.cores) (c n : Nat) : t.skein c n = s.skein c n := by
  unfold State.skein
  rw [State.core_of_cores h]

@[simp] theorem State.core_at (s : State) (t : Dword) (c : Nat) : (s.at_ t).core c = s.core c := State.core_of_cores (s.at_cores t) c
@[simp] theorem State.skein_at (s : State) (t : Dword) (c n : Nat) : (s.at_ t).skein c n = s.skein c n :=
  State.skein_of_cores (s.at_cores t) c n
@[simp] theorem State.obPart_at (s : State) (t : Dword) (p : Nat) : (s.at_ t).obPart p = s.obPart p := by simp [State.obPart]

theorem State.skein_modSkein_other (s : State) (c : Nat) {n m : Nat} (f : Skein → Skein) (h : m ≠ n) :
    (s.modSkein c n f).skein c m = s.skein c m := by
  simp [State.skein, State.modSkein, Core.skein_modSkein_other _ f h]

/-- Changes of knots leave the skeins of the core. -/
theorem Core.foldl_modKnot_skeins (l : List Nat) (f : Knot → Knot) (k : Core) :
    (l.foldl (fun k n => k.modKnot n f) k).skeins = k.skeins := by
  induction l generalizing k with
  | nil => rfl
  | cons n r ih => exact ih (k.modKnot n f)

@[simp] theorem Core.pauseKnots_skein (k : Core) (b : Nat) (now : Dword) (n : Nat) : (k.pauseKnots b now).skein n = k.skein n := by
  unfold Core.skein Core.pauseKnots
  rw [Core.foldl_modKnot_skeins]

@[simp] theorem Core.resumeKnots_skein (k : Core) (b : Nat) (now : Dword) (n : Nat) : (k.resumeKnots b now).skein n = k.skein n := by
  unfold Core.skein Core.resumeKnots
  split
  · rfl
  · rw [Core.foldl_modKnot_skeins]

/-- Dropping loads leaves the slots and the bundles. -/
theorem Core.foldl_dropLoads_kept (l : List Nat) (k : Core) :
    (l.foldl Core.dropLoads k).skeins = k.skeins ∧ (l.foldl Core.dropLoads k).bundles = k.bundles := by
  induction l generalizing k with
  | nil => exact ⟨rfl, rfl⟩
  | cons n r ih => exact ih (k.dropLoads n)

end Sys2Proof.Machine
end

section
/-! SUPPORT. The precise exception and the abort of its bundle (R62 to R66), and a knot's watchdog, which raises it (R61). -/

namespace Sys2Proof.Machine

/-! ## Exceptions (R62 to R66) -/

section Exceptions
variable (s : State) (c b slot cause n : Nat)

@[simp] theorem State.countExc_cores (part : Nat) : (s.countExc part cause).cores = s.cores := by
  unfold State.countExc
  split <;> simp
@[simp] theorem State.countExc_mem (part : Nat) : (s.countExc part cause).mem = s.mem := by
  unfold State.countExc
  split <;> simp
@[simp] theorem State.countExc_ob (part : Nat) : (s.countExc part cause).ob = s.ob := by
  unfold State.countExc
  split <;> simp

@[simp] theorem State.abortBundle_mem : (s.abortBundle c b slot cause).mem = s.mem := rfl
@[simp] theorem State.abortBundle_ob : (s.abortBundle c b slot cause).ob = s.ob := rfl

/-- The skein that raised the exception is left as it is by its bundle's abort. -/
theorem State.skein_abortBundle_self : (s.abortBundle c b slot cause).skein c slot = s.skein c slot := by
  simp only [State.skein, State.abortBundle, State.core_modCore, Core.skein, Core.modBundle]
  rw [tget_map_if _ _ _ _ fun _ _ => rfl]
  simp

/-- An abort changes the STATE of no other skein but one halted by the debugger. -/
theorem State.skein_abortBundle_kept (h : (s.skein c n).st ≠ .debugHalted) :
    ((s.abortBundle c b slot cause).skein c n).st = (s.skein c n).st ∧
      ((s.abortBundle c b slot cause).skein c n).bundle = (s.skein c n).bundle ∧
      ((s.abortBundle c b slot cause).skein c n).cause = (s.skein c n).cause := by
  simp only [State.skein, State.abortBundle, State.core_modCore, Core.skein, Core.modBundle] at h ⊢
  rw [tget_map_if _ _ _ _ fun _ _ => rfl]
  split
  · dsimp only
    split <;> simp_all
  · exact ⟨rfl, rfl, rfl⟩

/-- The first abort of a bundle sets its CAUSE; a later one, and one of another bundle, changes nothing of it. -/
theorem State.bundle_abortBundle : ((s.abortBundle c b slot cause).core c).bundle n =
    if n = b ∧ ((s.core c).bundle b).aborting = false then
      { (s.core c).bundle b with aborting := true, cause := BitVec.ofNat 8 cause, firstSlot := BitVec.ofNat 6 slot }
    else (s.core c).bundle n := by
  simp only [State.abortBundle, State.core_modCore, Core.bundle, Core.modBundle]
  by_cases h : n = b
  · subst h
    simp
  · simp [h, tget_tmod_other]

variable (mask : Mask) (pc addr : Dword) (extra : Nat)

@[simp] theorem State.raiseExc_mem : (s.raiseExc c slot cause mask pc addr extra).mem = s.mem := by
  unfold State.raiseExc
  dsimp only
  split <;> simp
@[simp] theorem State.raiseExc_ob : (s.raiseExc c slot cause mask pc addr extra).ob = s.ob := by
  unfold State.raiseExc
  dsimp only
  split <;> simp

/-- A skein that does not run takes no exception. -/
theorem State.raiseExc_stopped (h : (s.skein c slot).st ≠ .running) : s.raiseExc c slot cause mask pc addr extra = s := by
  simp [State.raiseExc, h]

/-- A running skein halts with its cause, and its bundle is aborted. -/
theorem State.raiseExc_running (h : (s.skein c slot).st = .running) : ∃ f : Skein → Skein,
    (∀ k, (f k).st = .excHalted ∧ (f k).cause = BitVec.ofNat 8 cause) ∧
    (s.raiseExc c slot cause mask pc addr extra).cores =
      ((s.modSkein c slot f).abortBundle c (s.skein c slot).bundle.toNat slot cause).cores := by
  unfold State.raiseExc
  simp only [h, bne_self_eq_false, Bool.false_eq_true, if_false, State.countExc_cores, State.record_cores]
  exact ⟨_, fun k => ⟨rfl, rfl⟩, rfl⟩

end Exceptions

/-! ## The watchdog of a knot (R61) -/

/-- If a bundle is aborted, then with the watchdog's cause. -/
def Bundle.ByWatchdog (x : Bundle) : Prop := x.aborting = true → x.cause = 0x0B

/-- Skein n of bundle b runs, and nothing but a watchdog has aborted its bundle. -/
def State.Watched (c n : Nat) (b : BitVec 6) (s : State) : Prop :=
  (s.skein c n).st = .running ∧ (s.skein c n).bundle = b ∧ ((s.core c).bundle b.toNat).ByWatchdog

/-- Skein n is halted by a watchdog, which aborted bundle b. -/
def State.WatchdogHalted (c n : Nat) (b : BitVec 6) (s : State) : Prop :=
  (s.skein c n).st = .excHalted ∧ (s.skein c n).cause = 0x0B ∧
    ((s.core c).bundle b.toNat).aborting = true ∧ ((s.core c).bundle b.toNat).ByWatchdog

section Watchdog
variable {s : State} {c n : Nat} {b : BitVec 6} {mask : Mask} {pc : Dword}

/-- An exception of the watchdog's cause leaves a bundle's abort one of the watchdog's; its own skein's bundle is then aborted, and an
aborted one stays so. -/
theorem State.raiseExc_bundle (m : Nat) (hb : ((s.core c).bundle b.toNat).ByWatchdog) :
    (((s.raiseExc c m 0x0B mask pc 0 0).core c).bundle b.toNat).ByWatchdog ∧
    (((s.core c).bundle b.toNat).aborting = true ∨ ((s.skein c m).st = .running ∧ (s.skein c m).bundle = b) →
      (((s.raiseExc c m 0x0B mask pc 0 0).core c).bundle b.toNat).aborting = true) := by
  by_cases hm : (s.skein c m).st = .running
  · obtain ⟨f, -, hc⟩ := State.raiseExc_running s c m 0x0B mask pc 0 0 hm
    have hk (d : Nat) : ((s.modSkein c m f).core c).bundle d = (s.core c).bundle d := by
      simp [State.modSkein, Core.modSkein, Core.bundle]
    rw [State.core_of_cores hc, State.bundle_abortBundle, hk, hk]
    split
    · exact ⟨fun _ => rfl, fun _ => rfl⟩
    · next h =>
      refine ⟨hb, fun ha => ?_⟩
      rcases ha with ha | ⟨-, rfl⟩
      · exact ha
      · simpa using h
  · rw [State.raiseExc_stopped _ _ _ _ _ _ _ _ hm]
    exact ⟨hb, fun ha => ha.elim id fun h => absurd h.1 hm⟩

/-- An exception leaves the STATE, the bundle and the cause of every skein but its own and those halted by the debugger. -/
theorem State.raiseExc_skein_other {m : Nat} (h : n ≠ m) (hd : (s.skein c n).st ≠ .debugHalted) :
    ((s.raiseExc c m 0x0B mask pc 0 0).skein c n).st = (s.skein c n).st ∧
    ((s.raiseExc c m 0x0B mask pc 0 0).skein c n).bundle = (s.skein c n).bundle ∧
    ((s.raiseExc c m 0x0B mask pc 0 0).skein c n).cause = (s.skein c n).cause := by
  by_cases hm : (s.skein c m).st = .running
  · obtain ⟨f, -, hc⟩ := State.raiseExc_running s c m 0x0B mask pc 0 0 hm
    have hk := s.skein_modSkein_other c f h
    rw [State.skein_of_cores hc, ← hk]
    exact State.skein_abortBundle_kept _ _ _ _ _ _ (hk ▸ hd)
  · rw [State.raiseExc_stopped _ _ _ _ _ _ _ _ hm]
    exact ⟨rfl, rfl, rfl⟩

/-- The watched skein's own exception halts it. -/
theorem State.Watched.raiseExc_self (h : s.Watched c n b) : (s.raiseExc c n 0x0B mask pc 0 0).WatchdogHalted c n b := by
  obtain ⟨hRun, hBundle, hBy⟩ := h
  obtain ⟨hBy', hAbort⟩ := State.raiseExc_bundle (mask := mask) (pc := pc) n hBy
  obtain ⟨f, hf, hc⟩ := State.raiseExc_running s c n 0x0B mask pc 0 0 hRun
  have hk : (s.raiseExc c n 0x0B mask pc 0 0).skein c n = f (s.skein c n) := by
    rw [State.skein_of_cores hc, State.skein_abortBundle_self, State.skein_modSkein]
  exact ⟨by rw [hk]; exact (hf _).1, by rw [hk]; exact (hf _).2, hAbort (.inr ⟨hRun, hBundle⟩), hBy'⟩

/-- Another skein's exception leaves it watched. -/
theorem State.Watched.raiseExc_other {m : Nat} (hm : n ≠ m) (h : s.Watched c n b) : (s.raiseExc c m 0x0B mask pc 0 0).Watched c n b := by
  obtain ⟨hRun, hBundle, hBy⟩ := h
  obtain ⟨hSt, hB, -⟩ := State.raiseExc_skein_other (s := s) (c := c) (mask := mask) (pc := pc) hm (by simp [hRun])
  exact ⟨hSt.trans hRun, hB.trans hBundle, (State.raiseExc_bundle m hBy).1⟩

/-- Once halted by the watchdog it stays so. -/
theorem State.WatchdogHalted.raiseExc (m : Nat) (h : s.WatchdogHalted c n b) : (s.raiseExc c m 0x0B mask pc 0 0).WatchdogHalted c n b := by
  obtain ⟨hSt, hCause, hAbort, hBy⟩ := h
  by_cases hm : n = m
  · subst hm
    rw [State.raiseExc_stopped _ _ _ _ _ _ _ _ (by simp [hSt])]
    exact ⟨hSt, hCause, hAbort, hBy⟩
  · obtain ⟨hBy', hAbort'⟩ := State.raiseExc_bundle (mask := mask) (pc := pc) m hBy
    obtain ⟨hSt', -, hCause'⟩ := State.raiseExc_skein_other (s := s) (c := c) (mask := mask) (pc := pc) hm (by simp [hSt])
    exact ⟨hSt'.trans hSt, hCause'.trans hCause, hAbort' (.inl hAbort), hBy'⟩

end Watchdog

/-- The watchdog's exception of one slot, whose threads wait at these program counters; none where none waits (R61). -/
def State.raiseWaits (c : Nat) (s : State) (e : Nat × List (Nat × Dword)) : State :=
  match e.2.find? fun w => w.1 == (lowest (e.2.map (·.1))).getD 0 with
  | none => s
  | some w => s.raiseExc c e.1 0x0B (maskOf (e.2.map (·.1))) w.2 0 0

/-- The slots of a bundle's running skeins, each with its threads that wait on a knot. -/
def Core.waitsOn (k : Core) (b : BitVec 6) (knot : Nat) : List (Nat × List (Nat × Dword)) :=
  (k.skeins.filter fun e => e.2.bundle == b && e.2.st == .running).map fun e => (e.1, e.2.waitsAt knot)

/-- A slot's exception is one of cause 0x0B, or none as none of its threads waits. -/
theorem State.raiseWaits_cases (c : Nat) (s : State) (e : Nat × List (Nat × Dword)) :
    (e.2 = [] ∧ s.raiseWaits c e = s) ∨ ∃ mask pc, s.raiseWaits c e = s.raiseExc c e.1 0x0B mask pc 0 0 := by
  unfold State.raiseWaits
  split
  · next h =>
    refine .inl ⟨Decidable.byContradiction fun hne => ?_, rfl⟩
    obtain ⟨w, hw, hl⟩ := List.mem_map.1 (lowest_mem (l := e.2.map (·.1)) (by simpa using hne))
    exact List.find?_eq_none.1 h w hw (by simp [hl])
  · exact .inr ⟨_, _, rfl⟩

@[simp] theorem State.raiseWaits_mem (c : Nat) (s : State) (e : Nat × List (Nat × Dword)) : (s.raiseWaits c e).mem = s.mem := by
  rcases s.raiseWaits_cases c e with ⟨-, h⟩ | ⟨_, _, h⟩ <;> simp [h]
@[simp] theorem State.raiseWaits_ob (c : Nat) (s : State) (e : Nat × List (Nat × Dword)) : (s.raiseWaits c e).ob = s.ob := by
  rcases s.raiseWaits_cases c e with ⟨-, h⟩ | ⟨_, _, h⟩ <;> simp [h]

/-- Of the exceptions of a knot's watchdog one reaches each running skein that has a thread waiting there. -/
theorem State.each_raiseWaits_halts {s : State} {c n : Nat} {b : BitVec 6} {ws : List (Nat × Dword)} (hws : ws ≠ [])
    (l : List (Nat × List (Nat × Dword))) (hn : (n, ws) ∈ l) (h : s.Watched c n b) : (s.each l (State.raiseWaits c)).WatchdogHalted c n b := by
  have hOne (s : State) (e : Nat × List (Nat × Dword)) (h : s.Watched c n b) :
      (s.raiseWaits c e).Watched c n b ∨ (s.raiseWaits c e).WatchdogHalted c n b := by
    rcases s.raiseWaits_cases c e with ⟨-, he⟩ | ⟨_, _, he⟩
    · exact .inl (he.symm ▸ h)
    · rw [he]
      by_cases hm : n = e.1
      · exact .inr (hm ▸ h.raiseExc_self)
      · exact .inl (h.raiseExc_other hm)
  refine State.each_reaches (P := State.Watched c n b) (Q := State.WatchdogHalted c n b) hOne ?_ ?_ l hn s h
  · intro s e h
    rcases s.raiseWaits_cases c e with ⟨-, he⟩ | ⟨_, _, he⟩
    · exact he.symm ▸ h
    · exact he.symm ▸ h.raiseExc e.1
  · intro s h
    rcases s.raiseWaits_cases c (n, ws) with ⟨hnil, -⟩ | ⟨_, _, he⟩
    · exact absurd hnil hws
    · exact he.symm ▸ h.raiseExc_self

/-- A watchdog that has run out raises its exceptions in the slots whose threads wait. -/
theorem State.knotExpiry_expired {s : State} {c : Nat} {knot : BitVec 4} {b : BitVec 6} {f : Dword}
    (hOwner : (nth {} (s.core c).knots knot.toNat).owner = some b) (hFirst : (nth {} (s.core c).knots knot.toNat).firstAt = some f)
    (hPaused : (nth {} (s.core c).knots knot.toNat).pausedAt = none)
    (hTime : f.toNat + (nth {} (s.core c).knots knot.toNat).wdogUs.toNat * 1000 ≤ s.now)
    (hAbort : ((s.core c).bundle b.toNat).aborting = false) :
    s.knotExpiry c knot = s.each ((s.core c).waitsOn b knot.toNat) (State.raiseWaits c) := by
  unfold State.knotExpiry
  simp only [hOwner, hFirst, hPaused, hTime, hAbort, and_self, if_true]
  rfl

/-- No step aborts while every partition is idle (R321). -/
theorem State.stepSettle_idle {s : State} (h : ∀ p < 16, (s.obPart p).phase = .idle) : s.stepSettle = s := by
  refine State.each_id s _ _ fun p hp => ?_
  simp [h p (List.mem_range.1 hp)]

/-- A running skein of a bundle, with a thread that waits on a knot with KNOT.WAIT, is among those the watchdog reaches. -/
theorem Core.mem_waitsOn {k : Core} {n knot : Nat} {b : BitVec 6} (hRun : (k.skein n).st = .running) (hBundle : (k.skein n).bundle = b) :
    (n, (k.skein n).waitsAt knot) ∈ k.waitsOn b knot := by
  have hListed : (n, k.skein n) ∈ k.skeins := mem_of_tget_ne _ _ _ fun h => by
    rw [Core.skein, h] at hRun
    cases hRun
  exact List.mem_map.2 ⟨_, List.mem_filter.2 ⟨hListed, by simp [hRun, hBundle]⟩, rfl⟩

/-- A thread that waits with KNOT.WAIT is among those that wait. -/
theorem Skein.waitsAt_ne_nil {k : Skein} {knot : Nat} (h : ∃ w ∈ k.knotWait, w.2.1 = knot) : k.waitsAt knot ≠ [] := by
  obtain ⟨w, hw, rfl⟩ := h
  have : (w.1, w.2.2) ∈ k.waitsAt w.2.1 :=
    List.mem_append_left _ (List.mem_map.2 ⟨w, List.mem_filter.2 ⟨hw, by simp⟩, rfl⟩)
  exact List.ne_nil_of_mem this

/-- A watchdog that has run out halts each running skein of the knot's bundle with a thread that waits there, and aborts the
bundle (R61). -/
theorem State.knotExpiry_halts {s : State} {c n : Nat} {knot : BitVec 4} {b : BitVec 6} {f : Dword}
    (hIdle : ∀ p < 16, (s.obPart p).phase = .idle) (hOwner : (nth {} (s.core c).knots knot.toNat).owner = some b)
    (hFirst : (nth {} (s.core c).knots knot.toNat).firstAt = some f) (hPaused : (nth {} (s.core c).knots knot.toNat).pausedAt = none)
    (hTime : f.toNat + (nth {} (s.core c).knots knot.toNat).wdogUs.toNat * 1000 ≤ s.now)
    (hAbort : ((s.core c).bundle b.toNat).aborting = false) (hRun : (s.skein c n).st = .running) (hBundle : (s.skein c n).bundle = b)
    (hWait : ∃ w ∈ (s.skein c n).knotWait, w.2.1 = knot.toNat) :
    (s.knotExpiry c knot).stepSettle.WatchdogHalted c n b ∧ (s.knotExpiry c knot).stepSettle.mem = s.mem := by
  rw [State.knotExpiry_expired hOwner hFirst hPaused hTime hAbort, State.stepSettle_idle]
  · constructor
    · exact State.each_raiseWaits_halts (Skein.waitsAt_ne_nil hWait) _ (Core.mem_waitsOn hRun hBundle)
        ⟨hRun, hBundle, fun h => by simp [hAbort] at h⟩
    · exact State.each_keeps State.mem _ _ (State.raiseWaits_mem c) s
  · intro p hp
    have hOb := State.each_keeps State.ob ((s.core c).waitsOn b knot.toNat) _ (State.raiseWaits_ob c) s
    unfold State.obPart at hIdle ⊢
    rw [hOb]
    exact hIdle p hp

end Sys2Proof.Machine
end

section
/-! SUPPORT. Release of an aborted bundle, halt and resume of a skein (R66, R72, R79, R80). -/

namespace Sys2Proof.Machine

@[simp] theorem State.skein_modCore (s : State) (c n : Nat) (f : Core → Core) : (s.modCore c f).skein c n = (f (s.core c)).skein n := by
  simp [State.skein]

/-- A whole write covers every field. -/
theorem covers_full {op : RegOp} (h : op.part = .full) (hi lo : Nat) : covers op hi lo = true := by simp [covers, h]

/-- A change of some of a core's skeins that leaves a free slot alone acts on each slot. -/
theorem Core.skein_map_if (k : Core) (p : Nat × Skein → Bool) (g : Nat × Skein → Skein) (hd : ∀ j, p (j, {}) = true → g (j, {}) = {})
    (n : Nat) : ({ k with skeins := k.skeins.map fun e => if p e then (e.1, g e) else e } : Core).skein n =
      if p (n, k.skein n) then g (n, k.skein n) else k.skein n := tget_map_if _ _ p g hd n

@[simp] theorem Core.foldl_dropLoads_skein (l : List Nat) (k : Core) (n : Nat) : (l.foldl Core.dropLoads k).skein n = k.skein n := by
  rw [Core.skein, (Core.foldl_dropLoads_kept l k).1]
  rfl

@[simp] theorem Core.skein_modBundle (k : Core) (b : Nat) (f : Bundle → Bundle) (n : Nat) : (k.modBundle b f).skein n = k.skein n := rfl

/-- A bundle that is not aborted is not released. -/
theorem execCoreBundleRelease_other {s : State} {core : CoreId} {op : RegOp}
    (h : ((s.core core.toNat).bundle (op.value.toNat % 64)).st ≠ .aborted) : execCoreBundleRelease core op s = .next s := by
  simp [execCoreBundleRelease, h]

section Registers
variable {s : State} {core : CoreId} {slot : SlotId} {op : RegOp} (hWide : isWide op.agent = true) (hFull : op.part = .full)
include hWide hFull

/-- The release of an aborted bundle frees its slots and no other. -/
theorem execCoreBundleRelease_aborted {b : Nat} (hb : b = op.value.toNat % 64) (h : ((s.core core.toNat).bundle b).st = .aborted) :
    ∃ u, execCoreBundleRelease core op s = .next u ∧ ((u.core core.toNat).bundle b).st = .free ∧
      (∀ n, (s.skein core.toNat n).bundle.toNat = b → (u.skein core.toNat n).st = .free) ∧
      (∀ n, (s.skein core.toNat n).bundle.toNat ≠ b → u.skein core.toNat n = s.skein core.toNat n) ∧ u.mem = s.mem := by
  unfold execCoreBundleRelease
  dsimp only
  rw [← hb, if_pos (by simp [hWide, covers_full hFull, h])]
  refine ⟨_, rfl, ?_, ?_, ?_, rfl⟩
  · rw [State.core_modCore]
    dsimp only [Core.bundle]
    rw [(Core.foldl_dropLoads_kept _ _).2]
    exact congrArg Bundle.st (Core.bundle_modBundle ..)
  all_goals
    intro n hn
    unfold State.skein at hn
    rw [State.skein_modCore, Core.skein_map_if _ _ _ (by simp), Core.foldl_dropLoads_skein, Core.skein_modBundle]
  · split
    · rfl
    · next hk => simpa [hn] using hk
  · rw [if_neg (by simp [hn])]
    rfl

/-- Where the policy permits halts, a write of SKN_CTL with both bits set is ignored, and another acts (R80). -/
theorem State.sknCtl_allowed (hAllow : s.haltAllowed (s.partOf core.toNat) = true) (f : State → State) :
    s.sknCtl core.toNat slot.toNat op f = if op.value.toNat % 4 = 3 then s else f s := by
  simp [State.sknCtl, hWide, covers_full hFull, hAllow]

/-- Where the policy forbids halts, a write of SKN_CTL is recorded as absorbed, whatever its bits (R80). -/
theorem State.sknCtl_forbidden (hForbid : s.haltAllowed (s.partOf core.toNat) = false) (f : State → State) :
    s.Absorbs (s.sknCtl core.toNat slot.toNat op f) := by
  simp only [State.sknCtl, hWide, covers_full hFull, hForbid]
  exact s.refusedWrite_absorbs ..

end Registers

/-! HALT is bit 0 of SKN_CTL and RESUME is bit 1 (R80); here from the value modulo 4. -/

theorem bit_zero_of_mod {v : Dword} (h : v.toNat % 4 = 1) : bit v 0 = true := by
  simp [bit, BitVec.getLsbD, Nat.testBit]
  omega
theorem bit_one_of_mod {v : Dword} (h : v.toNat % 4 = 2) : bit v 1 = true := by
  simp [bit, BitVec.getLsbD, Nat.testBit]
  omega

section Control
variable {s : State} {core : CoreId} {slot : SlotId} {op : RegOp} (hWide : isWide op.agent = true) (hFull : op.part = .full)
  (hAllow : s.haltAllowed (s.partOf core.toNat) = true)
include hWide hFull hAllow

/-- A HALT of a skein that does not run is ignored, and so are both bits at once. -/
theorem execSknHalt_ignored (h : op.value.toNat % 4 = 3 ∨ op.value.toNat % 4 = 1 ∧ (s.skein core.toNat slot.toNat).st ≠ .running) :
    execSknHalt core slot op s = .next s := by
  simp only [execSknHalt, State.sknCtl_allowed hWide hFull hAllow]
  rcases h with h | ⟨-, h⟩ <;> simp [h]

/-- A RESUME of a skein that is not halted by the debugger is ignored, and so are both bits at once. -/
theorem execSknResume_ignored (h : op.value.toNat % 4 = 3 ∨ op.value.toNat % 4 = 2 ∧ (s.skein core.toNat slot.toNat).st ≠ .debugHalted) :
    execSknResume core slot op s = .next s := by
  simp only [execSknResume, State.sknCtl_allowed hWide hFull hAllow]
  rcases h with h | ⟨-, h⟩ <;> simp [h]

/-- A HALT puts a running skein into STATE 5 and leaves the other slots (R79). -/
theorem execSknHalt_running (hBit : op.value.toNat % 4 = 1) (hRun : (s.skein core.toNat slot.toNat).st = .running)
    (hPending : (s.skein core.toNat slot.toNat).abortPending = false) : ∃ u, execSknHalt core slot op s = .next u ∧
      u.skein core.toNat slot.toNat = { s.skein core.toNat slot.toNat with st := .debugHalted } ∧
      (∀ n, n ≠ slot.toNat → u.skein core.toNat n = s.skein core.toNat n) ∧ u.mem = s.mem := by
  unfold execSknHalt
  dsimp only
  rw [State.sknCtl_allowed hWide hFull hAllow, if_neg (by omega), if_pos (by simp [bit_zero_of_mod hBit, hRun])]
  refine ⟨_, rfl, ?_, fun n hn => ?_, rfl⟩
  · rw [State.skein_modCore, Core.pauseKnots_skein, Core.skein_modSkein]
    exact if_neg (Bool.eq_false_iff.1 hPending)
  · rw [State.skein_modCore, Core.pauseKnots_skein, Core.skein_modSkein_other _ _ hn]
    rfl

/-- A RESUME puts a skein in STATE 5 back into STATE 2 and leaves the other slots (R79). -/
theorem execSknResume_halted (hBit : op.value.toNat % 4 = 2) (hHalt : (s.skein core.toNat slot.toNat).st = .debugHalted) :
    ∃ u, execSknResume core slot op s = .next u ∧
      u.skein core.toNat slot.toNat = { s.skein core.toNat slot.toNat with st := .running } ∧
      (∀ n, n ≠ slot.toNat → u.skein core.toNat n = s.skein core.toNat n) ∧ u.mem = s.mem := by
  unfold execSknResume
  dsimp only
  rw [State.sknCtl_allowed hWide hFull hAllow, if_neg (by omega), if_pos (by simp [bit_one_of_mod hBit, hHalt])]
  refine ⟨_, rfl, ?_, fun n hn => ?_, rfl⟩
  · rw [State.skein_modCore, Core.resumeKnots_skein, Core.skein_modSkein]
    rfl
  · rw [State.skein_modCore, Core.resumeKnots_skein, Core.skein_modSkein_other _ _ hn]
    rfl

end Control

end Sys2Proof.Machine
end

section
/-! SUPPORT. Core reset and the end of its drain (R67, R185, R202, R284). -/

namespace Sys2Proof.Machine

@[simp] theorem State.core_record (s : State) (cls : RecCls) (acct : Acct) (unit source code part : Nat) (detail : List Byte) (c : Nat) :
    (s.record cls acct unit source code part detail).core c = s.core c := State.core_of_cores (s.record_cores ..) c

@[simp] theorem State.core_setIsland (s : State) (i : Nat) (st : CSt) (c : Nat) : (s.setIsland i st).core c = s.core c := rfl

theorem State.island_of_islands {s t : State} (h : t.islands = s.islands) (i : Nat) : t.island i = s.island i := by
  unfold State.island
  rw [h]

section Reset
variable (s : State) (c e : Nat)

@[simp] theorem State.resetEngine_mem : (s.resetEngine c e).mem = s.mem := by simp [State.resetEngine]
@[simp] theorem State.resetEngine_ob : (s.resetEngine c e).ob = s.ob := by simp [State.resetEngine]
@[simp] theorem State.resetEngine_islands : (s.resetEngine c e).islands = s.islands := by simp [State.resetEngine]

/-- A reset of an engine changes of its core the engines only. -/
theorem State.resetEngine_core : ∃ g, (s.resetEngine c e).core c = { s.core c with engines := g } := by
  simp only [State.resetEngine, State.core_record, State.modEngine, State.core_modCore]
  exact ⟨_, rfl⟩

theorem State.resetEngine_core_other {d : Nat} (h : d ≠ c) : (s.resetEngine c e).core d = s.core d := by
  simp [State.resetEngine, State.modEngine, State.core_modCore_other _ _ h]

@[simp] theorem State.imageRegs_mem : (s.imageRegs c).mem = s.mem := by
  unfold State.imageRegs
  split <;> rfl
@[simp] theorem State.imageRegs_islands : (s.imageRegs c).islands = s.islands := by
  unfold State.imageRegs
  split <;> rfl

/-- Firmware writes the exponent base and the codebook slots of a core from the active image, if there is one (R178). -/
theorem State.imageRegs_core : ∃ cb, (s.imageRegs c).core c =
    { s.core c with expBase := (s.ob.image.map (·.expBase)).getD (s.core c).expBase, cb := cb } := by
  unfold State.imageRegs
  split
  · next h => exact ⟨_, by rw [h]; rfl⟩
  · next h => exact ⟨_, by rw [h, State.core_modCore]; rfl⟩

theorem State.imageRegs_core_other {d : Nat} (h : d ≠ c) : (s.imageRegs c).core d = s.core d := by
  unfold State.imageRegs
  split
  · rfl
  · exact s.core_modCore_other _ h

/-- The part of a core reset beyond the core's own fields: its engines, the registers that firmware writes, its island. -/
def State.resetUnits (s : State) (c : Nat) : State :=
  let t := ((s.resetEngine c 0).resetEngine c 1).imageRegs c
  if (t.island c).st == .gated then t else t.setIsland c .held

theorem State.resetUnits_core : ∃ g cb, (s.resetUnits c).core c =
    { s.core c with engines := g, expBase := (s.ob.image.map (·.expBase)).getD (s.core c).expBase, cb := cb } := by
  have hIsland (t : State) : (if (t.island c).st == .gated then t else t.setIsland c .held).core c = t.core c := by
    split <;> simp
  obtain ⟨g, hg⟩ := s.resetEngine_core c 0
  obtain ⟨g', hg'⟩ := (s.resetEngine c 0).resetEngine_core c 1
  obtain ⟨cb, hcb⟩ := ((s.resetEngine c 0).resetEngine c 1).imageRegs_core c
  refine ⟨g', cb, ?_⟩
  unfold State.resetUnits
  rw [hIsland, hcb, hg', hg]
  simp

theorem State.resetUnits_core_other {d : Nat} (h : d ≠ c) : (s.resetUnits c).core d = s.core d := by
  unfold State.resetUnits
  dsimp only
  split <;> simp [State.imageRegs_core_other _ _ h, State.resetEngine_core_other _ _ _ h]

@[simp] theorem State.resetUnits_mem : (s.resetUnits c).mem = s.mem := by
  unfold State.resetUnits
  dsimp only
  split <;> simp

/-- The island of a core that is reset is held, unless it is gated. -/
theorem State.resetUnits_island (h : (s.island c).st ≠ .gated) : ((s.resetUnits c).island c).st = .held := by
  unfold State.resetUnits
  have hKept : (((s.resetEngine c 0).resetEngine c 1).imageRegs c).island c = s.island c := State.island_of_islands (by simp) c
  dsimp only
  rw [hKept, if_neg (by simp [h])]
  simp [State.setIsland]

/-- What a core reset leaves (R67, R185, R284). -/
theorem State.coreReset_cleared (s : State) (c : Nat) : ∃ u, s.coreReset c = u ∧ (u.core c).skeins = [] ∧
    (∀ b, ((u.core c).bundle b).st = .free) ∧ (u.core c).mq = (s.core c).mq.filter (·.started) ∧ (u.core c).lq = [] ∧
    (u.core c).launchQ = (s.core c).launchWait.take 16 ∧ (u.core c).knots = List.replicate 16 {} ∧ (u.core c).uninit = false ∧
    (u.core c).expBase = (s.ob.image.map (·.expBase)).getD 0x5D00 ∧
    (u.core c).draining = some (s.time.now, ((s.core c).mq.filter fun e => !e.started).length, (s.core c).launchQ.length) ∧
    ((s.island c).st ≠ .gated → (u.island c).st = .held) ∧ (u.core c).cnt = (s.core c).cnt ∧
    (∀ d, d ≠ c → u.core d = s.core d) ∧ u.mem = s.mem := by
  refine ⟨(s.modCore c _).resetUnits c, rfl, ?_⟩
  obtain ⟨g, cb, hCore⟩ := State.resetUnits_core (s.modCore c _) c
  rw [hCore, State.core_modCore]
  refine ⟨rfl, fun b => ?_, rfl, rfl, rfl, rfl, rfl, rfl, rfl, fun h => ?_, rfl, fun d hd => ?_, ?_⟩
  · refine tget_of_forall (P := fun x : Bundle => x.st = .free) _ _ rfl (fun e he => ?_) b
    obtain ⟨x, -, rfl⟩ := List.mem_map.1 (List.mem_filter.1 he).1
    rfl
  · exact State.resetUnits_island _ _ h
  · rw [State.resetUnits_core_other _ _ hd, State.core_modCore_other _ _ hd]
  · simp

end Reset

/-- The end of a core reset's drain: what is left is discarded, and the record names how much (R284). -/
theorem State.endDrain_discards (s : State) (c m l : Nat) : ((s.endDrain c m l).core c).sb = [] ∧ ((s.endDrain c m l).core c).unacked = [] ∧
    ((s.endDrain c m l).core c).mq = [] ∧ ((s.endDrain c m l).core c).draining = none ∧
    (∀ d, d ≠ c → (s.endDrain c m l).core d = s.core d) ∧ (s.endDrain c m l).mem = s.mem ∧
    ∃ k, (k, ({ time := s.time.now, unit := unitId 1 c, cls := 2, source := 0x0E, code := 3, part := s.partByte c
                detail := toBytes 16 0 ++ toBytes 4 m ++ toBytes 4 (s.core c).sb.length ++ toBytes 4 l } : ErrRec)) ∈
      (s.endDrain c m l).err.log := by
  unfold State.endDrain
  dsimp only
  generalize ht : State.when _ _ _ = t
  have hCores : t.cores = (s.modCore c fun k => { k with mq := [], sb := [], unacked := [], draining := none }).cores :=
    ht ▸ State.when_keeps State.cores _ _ _ rfl
  have hTime : t.time = s.time := ht ▸ State.when_keeps State.time _ _ _ rfl
  have hMem : t.mem = s.mem := ht ▸ State.when_keeps State.mem _ _ _ rfl
  have hPart : t.partByte c = s.partByte c := ht ▸ State.when_keeps (State.partByte · c) _ _ _ rfl
  simp only [State.core_record, State.core_of_cores hCores, State.core_modCore, State.record_mem, hMem, hPart, ← hTime, true_and]
  exact ⟨fun d hd => State.core_modCore_other _ _ hd, State.record_contained ..⟩

end Sys2Proof.Machine
end

section
/-! CLAIM. Skeins stop, halt, resume and are reset: the statement O47. -/

namespace Sys2Proof.Machine

section Commands
variable (core : CoreId) (slot : SlotId) (s : State)

/-- Of the lanes with a stall hint, those stay whose hint ends after another's (R50). -/
theorem execStallHintEnd_ends : ∃ u, execStallHintEnd core slot s = .next u ∧
    (∀ e ∈ (u.skein core.toNat slot.toNat).stall, ∃ f ∈ (s.skein core.toNat slot.toNat).stall, f.2 < e.2) ∧
    (∀ e ∈ (s.skein core.toNat slot.toNat).stall, (∃ f ∈ (s.skein core.toNat slot.toNat).stall, f.2 < e.2) →
      e ∈ (u.skein core.toNat slot.toNat).stall) ∧
    (∀ n, n ≠ slot.toNat → u.skein core.toNat n = s.skein core.toNat n) ∧ u.mem = s.mem := by
  refine ⟨_, rfl, fun e he => ?_, fun e he hf => ?_, fun n hn => State.skein_modSkein_other _ _ _ hn, rfl⟩
  · rw [State.skein_modSkein] at he
    simpa using (List.mem_filter.1 he).2
  · rw [State.skein_modSkein]
    exact List.mem_filter.2 ⟨he, by simpa using hf⟩

/-- A skein of an aborted bundle stops at its next issue boundary (R64). -/
theorem execSkeinAbortStop_stops (hPending : (s.skein core.toNat slot.toNat).abortPending = true)
    (hSt : (s.skein core.toNat slot.toNat).st = .running ∨ (s.skein core.toNat slot.toNat).st = .loading) :
    ∃ u, execSkeinAbortStop core slot s = .next u ∧
      u.skein core.toNat slot.toNat = { s.skein core.toNat slot.toNat with st := .abortHalted, abortPending := false } ∧
      (∀ n, n ≠ slot.toNat → u.skein core.toNat n = s.skein core.toNat n) ∧ u.mem = s.mem := by
  refine ⟨_, rfl, ?_, fun n hn => State.skein_modSkein_other _ _ _ hn, rfl⟩
  rw [State.skein_modSkein, if_pos (by simpa [hPending] using hSt)]

end Commands

/-- Settles O47: command by command, each clause is the rule of that command. -/
theorem skeinsStopAndReset : Obligations.SkeinsStopAndReset := by
  unfold Obligations.SkeinsStopAndReset
  intro core slot s
  refine ⟨rfl, execStallHintEnd_ends core slot s, ?watchdog, execSkeinAbortStop_stops core slot s, ?registers, ?reset, ?drain⟩
  case watchdog =>
    intro knot t b f n hIdle hOwner hFirst hPaused hTime hAbort hRun hBundle hWait
    rw [← s.skein_at t] at hRun hBundle hWait
    rw [← s.core_at t] at hOwner hFirst hPaused hTime hAbort
    obtain ⟨hHalted, hMem⟩ := State.knotExpiry_halts (s := s.at_ t) (by simpa using hIdle) hOwner hFirst hPaused hTime hAbort hRun hBundle hWait
    obtain ⟨hSt, hCause, hAborted, hBy⟩ := hHalted
    exact ⟨_, rfl, hSt, hCause, hAborted, hBy hAborted, hMem.trans (s.at_mem t)⟩
  case registers =>
    intro op hWide hFull
    refine ⟨fun b hb h => execCoreBundleRelease_aborted hWide hFull hb h, fun h => execCoreBundleRelease_other h,
      fun hAllow h => execSknHalt_ignored hWide hFull hAllow h, fun hAllow h => execSknResume_ignored hWide hFull hAllow h,
      fun hAllow hBit hRun hPending => execSknHalt_running hWide hFull hAllow hBit hRun hPending,
      fun hAllow hBit hHalt => execSknResume_halted hWide hFull hAllow hBit hHalt, fun hForbid c hc => ?_⟩
    have hAbsorbs (f : State → State) := State.sknCtl_forbidden (slot := slot) hWide hFull hForbid f
    simp only [List.mem_cons, List.not_mem_nil, or_false] at hc
    rcases hc with rfl | rfl
    · exact ⟨_, rfl, hAbsorbs _⟩
    · exact ⟨_, rfl, hAbsorbs _⟩
  case reset =>
    obtain ⟨u, rfl, hSkeins, hBundles, hMq, hLq, hQueue, hKnots, hUninit, hExp, hDrain, hIsland, hCnt, hOther, hMem⟩ :=
      s.coreReset_cleared core.toNat
    refine ⟨_, rfl, hSkeins, hBundles, hMq, hLq, hQueue, hKnots, hUninit, fun i hi => ?_, fun hNone => ?_, hDrain, hIsland, hCnt,
      hOther, hMem⟩
    · simp [hExp, hi]
    · simp [hExp, hNone]
  case drain =>
    intro t start m l hDrain hTime
    obtain ⟨hSb, hUnacked, hMq, hDone, hOther, hMem, k, hk⟩ := (s.at_ t).endDrain_discards core.toNat m l
    have hExec : exec (.coreResetDrainExpiry core t) s = .next ((s.at_ t).endDrain core.toNat m l) := by
      show execCoreResetDrainExpiry core t s = _
      simp [execCoreResetDrainExpiry, hDrain, hTime]
    simp only [State.core_at, State.at_mem] at hOther hMem hk
    exact ⟨_, hExec, hSb, hUnacked, hMq, hDone, hOther, hMem, k, by simpa [State.partByte, State.partOf, State.part] using hk⟩

end Sys2Proof.Machine
end

section
/-! CLAIM. Instruction words, their fields and their bytes determine each other: the statement O59. -/

namespace Sys2Proof.Machine

/-! ## Little-endian bytes (R2) -/

theorem toBytes_succ (n v : Nat) : toBytes (n + 1) v = BitVec.ofNat 8 v :: toBytes n (v / 256) := by
  unfold toBytes
  rw [List.range_succ_eq_map, List.map_cons, List.map_map]
  congr 1
  · simp
  · refine List.map_congr_left fun i _ => ?_
    rw [Function.comp_apply, Nat.div_div_eq_div_mul, Nat.succ_eq_add_one, Nat.mul_succ, Nat.add_comm, Nat.pow_add]

theorem ofBytes_toBytes (n v : Nat) : ofBytes (toBytes n v) = v % 256 ^ n := by
  induction n generalizing v with
  | zero => simp [toBytes, ofBytes, Nat.mod_one]
  | succ n ih =>
    rw [toBytes_succ, ofBytes, ih, BitVec.toNat_ofNat, Nat.pow_succ' (m := 256)]
    exact Nat.mod_mul.symm

theorem ofBytes_lt (bs : List Byte) : ofBytes bs < 256 ^ bs.length := by
  induction bs with
  | nil => simp [ofBytes]
  | cons b r ih =>
    rw [ofBytes, List.length_cons, Nat.pow_succ]
    have := b.isLt
    omega

theorem toBytes_ofBytes (bs : List Byte) : toBytes bs.length (ofBytes bs) = bs := by
  induction bs with
  | nil => rfl
  | cons b r ih =>
    have hLow : BitVec.ofNat 8 (b.toNat + 256 * ofBytes r) = b := by
      apply BitVec.eq_of_toNat_eq
      have := b.isLt
      simp only [BitVec.toNat_ofNat]
      omega
    have hHigh : (b.toNat + 256 * ofBytes r) / 256 = ofBytes r := by
      have := b.isLt
      omega
    rw [ofBytes, List.length_cons, toBytes_succ, hLow, hHigh, ih]

/-! ## The fields of a word (R81, R89, R93, R106, R114)

A field of a concatenation lies in its high or in its low part. `no_index` lets simp find the concatenation in a word whose width is
written as one numeral. -/

theorem extract_append_high {m n start len : Nat} (x : BitVec m) (y : BitVec n) (h : n ≤ start) :
    BitVec.extractLsb' start len (no_index (x ++ y)) = x.extractLsb' (start - n) len :=
  BitVec.extractLsb'_append_eq_of_le h

theorem extract_append_low {m n start len : Nat} (x : BitVec m) (y : BitVec n) (h : start + len ≤ n) :
    BitVec.extractLsb' start len (no_index (x ++ y)) = y.extractLsb' start len :=
  BitVec.extractLsb'_append_eq_of_add_le h

/-- Every field is read back from its own bits. -/
theorem decodeWord_encodeWord (w : IWord) : decodeWord (encodeWord w) = w := by
  unfold decodeWord encodeWord
  simp [extract_append_high, extract_append_low]

/-- The fields leave no bit out: neighbouring fields join to the bits they were read from. -/
theorem encodeWord_decodeWord (v : BitVec 256) : encodeWord (decodeWord v) = v := by
  unfold encodeWord decodeWord
  dsimp only
  repeat rw [BitVec.extractLsb'_append_extractLsb'_eq_extractLsb' (by rfl)]
  exact BitVec.extractLsb'_eq_self

/-- A word is read back from its 32 bytes (R82). -/
theorem wordOfBytes_toBytes (v : BitVec 256) : wordOfBytes (toBytes 32 v.toNat) = decodeWord v := by
  have hLt : v.toNat < 256 ^ 32 := v.isLt
  rw [wordOfBytes, ofBytes_toBytes, Nat.mod_eq_of_lt hLt, BitVec.ofNat_toNat, BitVec.setWidth_eq]

/-- The 32 bytes of a word that was read from 32 bytes are those (R82). -/
theorem toBytes_wordOfBytes (bs : List Byte) (h : bs.length = 32) : toBytes 32 (encodeWord (wordOfBytes bs)).toNat = bs := by
  have hLt : ofBytes bs < 2 ^ 256 := by simpa [h] using ofBytes_lt bs
  rw [wordOfBytes, encodeWord_decodeWord, BitVec.toNat_ofNat, Nat.mod_eq_of_lt hLt, ← h, toBytes_ofBytes]

/-- Settles O59: the fields are the word's, both ways, and the word's bytes are the word. -/
theorem instructionWordsRoundTrip : Obligations.InstructionWordsRoundTrip := by
  unfold Obligations.InstructionWordsRoundTrip
  refine ⟨fun w => ⟨decodeWord_encodeWord w, ?bytes, ?c, ?t, ?m, ?h⟩, encodeWord_decodeWord, toBytes_wordOfBytes⟩
  case bytes => rw [wordOfBytes_toBytes, decodeWord_encodeWord]
  all_goals
    unfold encodeWord
    simp [extract_append_high, extract_append_low]

end Sys2Proof.Machine
end

section
/-! SUPPORT. What each integer operation of the T-slot computes, as an operation on bit vectors (R96, R97). -/

namespace Sys2Proof.Machine

/-! ## Results modulo 2^32, and held within the type's range (R96) -/

section Results
variable (sg : Bool) (a b c : Word)

@[simp] theorem ofInt_asInt : BitVec.ofInt 32 (asInt sg a) = a := by
  cases sg
  · simp [asInt]
  · exact BitVec.ofInt_toInt

theorem intResult_wrap (v : Int) : intResult sg false v = BitVec.ofInt 32 v := rfl

/-- With SAT the result is the exact one, clamped to the range of its type. -/
theorem asInt_intResult_sat (v : Int) : asInt sg (intResult sg true v) =
    max (if sg then -(2 ^ 31) else 0) (min (if sg then 2 ^ 31 - 1 else 2 ^ 32 - 1) v) := by
  cases sg
  · simp only [asInt, intResult, if_true, Bool.false_eq_true, if_false, BitVec.toNat_ofInt]
    omega
  · simp only [asInt, intResult, if_true]
    rw [BitVec.toInt_ofInt_eq_self] <;> omega

theorem asInt_lt_iff : asInt sg a < asInt sg b ↔ (if sg then a.slt b else a.ult b) = true := by
  cases sg
  · simp [asInt, BitVec.ult]
  · simp [asInt, BitVec.slt]

theorem aluAdd_wrap : aluAdd sg false a b = a + b := by
  simp [aluAdd, intResult_wrap, BitVec.ofInt_add]

theorem aluSub_wrap : aluSub sg false a b = a - b := by
  simp [aluSub, intResult_wrap, Int.sub_eq_add_neg, BitVec.ofInt_add, BitVec.ofInt_neg, BitVec.sub_eq_add_neg]

theorem aluMul_wrap : aluMul sg false a b = a * b := by
  simp [aluMul, intResult_wrap, BitVec.ofInt_mul]

theorem aluMad_wrap : aluMad sg false a b c = a * b + c := by
  simp [aluMad, intResult_wrap, BitVec.ofInt_add, BitVec.ofInt_mul]

theorem aluMulhi_eq : aluMulhi sg a b =
    BitVec.ofInt 32 ((if sg then a.toInt * b.toInt else (a.toNat : Int) * (b.toNat : Int)) / 2 ^ 32) := by
  cases sg <;> rfl

theorem aluMin_eq : aluMin sg a b = if (if sg then b.slt a else b.ult a) then b else a := by
  simp [aluMin, asInt_lt_iff]

theorem aluMax_eq : aluMax sg a b = if (if sg then a.slt b else a.ult b) then b else a := by
  simp [aluMax, asInt_lt_iff]

theorem aluAbs_eq (sat : Bool) : aluAbs sat a = intResult true sat (max (asInt true a) (-asInt true a)) := by
  have hAbs : (a.toInt.natAbs : Int) = max a.toInt (-a.toInt) := by omega
  rw [aluAbs, hAbs]
  rfl

theorem aluAbs_wrap : aluAbs false a = if a.msb then -a else a := by
  rw [aluAbs, intResult_wrap]
  split
  · next h =>
    have := BitVec.toInt_neg_of_msb_true h
    rw [Int.ofNat_natAbs_of_nonpos (by omega), BitVec.ofInt_neg, BitVec.ofInt_toInt]
  · next h =>
    have := BitVec.toInt_nonneg_of_msb_false (by simpa using h)
    rw [Int.natAbs_of_nonneg this, BitVec.ofInt_toInt]

end Results

/-! ## Shifts and counts (R97) -/

section Shifts
variable (sg : Bool) (a b : Word)

theorem aluShl_eq : aluShl a b = a <<< b.toNat := by
  unfold aluShl
  split
  · next h => exact (BitVec.shiftLeft_eq_zero h).symm
  · rfl

/-- A shift to the right by more than 32 is one by 32: 0, or the sign in every bit. -/
theorem aluShr_eq : aluShr sg a b = if sg then a.sshiftRight b.toNat else a >>> b.toNat := by
  unfold aluShr
  dsimp only
  rcases Nat.le_total b.toNat 32 with h | h
  · rw [Nat.min_eq_left h]
  · have hSigned : a.sshiftRight 32 = a.sshiftRight b.toNat := by
      ext i hi
      rw [BitVec.getElem_sshiftRight, BitVec.getElem_sshiftRight, dif_neg (by omega), dif_neg (by omega)]
    rw [Nat.min_eq_right h, hSigned, BitVec.ushiftRight_eq_zero h, BitVec.ushiftRight_eq_zero (Nat.le_refl 32)]

theorem aluPopc_eq : aluPopc a = BitVec.ofNat 32 ((List.range 32).countP fun i => a.getLsbD i) := by
  rw [List.countP_eq_length_filter]
  rfl

/-- The leading zeros of a value other than 0 are those above its highest bit, the logarithm's. -/
theorem aluClz_eq : aluClz a = a.clz := by
  unfold aluClz
  by_cases h : a = 0
  · subst h
    rfl
  · have hLow := BitVec.two_pow_sub_clz_le_toNat_of_ne_zero (by decide) h
    have hHigh := BitVec.toNat_lt_two_pow_sub_clz (x := a)
    have hLt : a.clz.toNat < 32 := BitVec.clz_lt_iff_ne_zero.2 h
    have hNe : a.toNat ≠ 0 := by simpa [BitVec.toNat_eq] using h
    have hLog : log2 a.toNat = 31 - a.clz.toNat := by
      refine (Nat.log2_eq_iff hNe).2 ⟨hLow, ?_⟩
      rwa [show 31 - a.clz.toNat + 1 = 32 - a.clz.toNat by omega]
    rw [if_neg (by simpa using h), hLog, show 31 - (31 - a.clz.toNat) = a.clz.toNat by omega, BitVec.ofNat_toNat,
      BitVec.setWidth_eq]

end Shifts

/-! ## Bit fields (R97) -/

section Fields
variable (sg : Bool) (a b : Word) (pos n : Nat)

/-- Bits pos to pos + n − 1 of a value, extended beyond its 32 bits as its type has it. -/
def bitField : BitVec n := ((if sg then a.signExtend 64 else a.setWidth 64) >>> pos).setWidth n

/-- Bits below 2^w do not depend on what stands above. -/
theorem emod_ediv_emod (x : Int) {p n w : Nat} (h : p + n ≤ w) : x % 2 ^ w / 2 ^ p % 2 ^ n = x / 2 ^ p % 2 ^ n := by
  obtain ⟨d, rfl⟩ := Nat.exists_eq_add_of_le h
  have hPow : (2 : Int) ^ (p + n + d) = 2 ^ p * (2 ^ n * 2 ^ d) := by
    rw [Int.pow_add, Int.pow_add, Int.mul_assoc]
  have hx : x % 2 ^ (p + n + d) + 2 ^ p * (2 ^ n * (2 ^ d * (x / 2 ^ (p + n + d)))) = x := by
    rw [← Int.mul_assoc (2 ^ n), ← Int.mul_assoc (2 ^ p), ← hPow, Int.emod_add_mul_ediv]
  have hPos : (2 : Int) ^ p ≠ 0 := Int.ne_of_gt (Int.pow_pos (by decide))
  calc x % 2 ^ (p + n + d) / 2 ^ p % 2 ^ n
      = (x % 2 ^ (p + n + d) + 2 ^ p * (2 ^ n * (2 ^ d * (x / 2 ^ (p + n + d))))) / 2 ^ p % 2 ^ n := by
        rw [Int.add_mul_ediv_left _ _ hPos, Int.add_mul_emod_self_left]
    _ = x / 2 ^ p % 2 ^ n := by rw [hx]

variable {pos n}

/-- The field as a number is the quotient and remainder that BFE takes. -/
theorem toNat_bitField (h : pos + n ≤ 64) : ((bitField sg a pos n).toNat : Int) = asInt sg a / 2 ^ pos % 2 ^ n := by
  have hWide : (((if sg then a.signExtend 64 else a.setWidth 64).toNat : Nat) : Int) = asInt sg a % 2 ^ 64 := by
    cases sg
    · simp [asInt]
    · exact (congrArg Int.ofNat (BitVec.toNat_ofInt a.toInt)).trans (Int.toNat_of_nonneg (Int.emod_nonneg _ (by decide)))
  rw [bitField, BitVec.toNat_setWidth, BitVec.toNat_ushiftRight, Nat.shiftRight_eq_div_pow]
  push_cast
  rw [hWide, emod_ediv_emod _ h]

/-- Shifted to the top and back, the low n bits stand alone. -/
theorem shl_ushr_setWidth (y : BitVec 64) (h : n ≤ 32) :
    ((y <<< (64 - n)) >>> (64 - n)).setWidth 32 = (y.setWidth n).setWidth 32 := by
  ext i hi
  simp only [BitVec.getElem_setWidth, BitVec.getLsbD_ushiftRight, BitVec.getLsbD_shiftLeft, BitVec.getLsbD_setWidth]
  by_cases hn : i < n
  · simp [hn, show 64 - n + i < 64 by omega]
  · simp [hn]
    omega

/-- Shifted to the top and back with the sign, the low n bits stand with the highest of them repeated. -/
theorem shl_sshr_setWidth (y : BitVec 64) (h : n ≤ 32) (h0 : n ≠ 0) :
    ((y <<< (64 - n)).sshiftRight (64 - n)).setWidth 32 = (y.setWidth n).signExtend 32 := by
  ext i hi
  simp only [BitVec.getElem_setWidth, BitVec.getLsbD_sshiftRight, BitVec.getElem_signExtend, BitVec.getLsbD_shiftLeft,
    BitVec.getLsbD_setWidth, BitVec.msb_eq_getLsbD_last]
  by_cases hn : i < n
  · simp [hn, show 64 - n + i < 64 by omega, show i < 64 by omega, show ¬ 64 ≤ i by omega, show ¬ 64 - n + i < 64 - n by omega]
  · simp [hn, show ¬ 64 - n + i < 64 by omega, show ¬ 64 ≤ i by omega, show 63 - (64 - n) = n - 1 by omega,
      show ¬ 63 < 64 - n by omega, show n - 1 < n by omega]

/-- A value counts below zero where its highest bit is set. -/
theorem toInt_of_highest (z : BitVec n) (h0 : n ≠ 0) :
    (if 2 ^ (n - 1) ≤ (z.toNat : Int) then (z.toNat : Int) - 2 ^ n else z.toNat) = z.toInt := by
  obtain ⟨m, rfl⟩ := Nat.exists_eq_succ_of_ne_zero h0
  have hTop : (2 ^ m ≤ (z.toNat : Int)) ↔ ¬ 2 * z.toNat < 2 ^ (m + 1) := by
    rw [Nat.pow_succ]
    norm_cast
    omega
  rw [BitVec.toInt_eq_toNat_cond, Nat.succ_sub_one, ite_congr (propext hTop) (fun _ => rfl) (fun _ => rfl), ite_not]
  push_cast
  rfl

/-- BFE is the field, sign-extended where the type is signed. -/
theorem aluBfe_bitField (hn : n = min (b.toNat / 256 % 64) 32) (h0 : n ≠ 0) :
    aluBfe sg a b = if sg then (bitField sg a (b.toNat % 32) n).signExtend 32 else (bitField sg a (b.toNat % 32) n).setWidth 32 := by
  have hPos : nbits b.toNat 4 0 = b.toNat % 32 := by simp [nbits]
  have hLen : min (nbits b.toNat 13 8) 32 = n := hn.symm
  unfold aluBfe
  dsimp only
  rw [hPos, hLen, ← toNat_bitField sg a (by omega)]
  cases sg
  · simp
  · simp [h0, BitVec.signExtend, toInt_of_highest _ h0]

theorem aluBfe_eq : aluBfe sg a b =
    (let n := min (b.toNat / 256 % 64) 32
     let v := (if sg then a.signExtend 64 else a.setWidth 64) >>> (b.toNat % 32)
     if n = 0 then 0 else if sg then ((v <<< (64 - n)).sshiftRight (64 - n)).setWidth 32 else ((v <<< (64 - n)) >>> (64 - n)).setWidth 32) := by
  generalize hn : min (b.toNat / 256 % 64) 32 = n
  dsimp only
  split
  · next h0 =>
    subst h0
    have hLen : min (nbits b.toNat 13 8) 32 = 0 := hn
    simp [aluBfe, hLen]
  · next h0 =>
    rw [aluBfe_bitField sg a b hn.symm h0, shl_ushr_setWidth _ (by omega), shl_sshr_setWidth _ (by omega) h0]
    rfl

end Fields

end Sys2Proof.Machine
end

section
/-! CLAIM. The results of the integer operations, and the words that decode refuses among them: the statement O52. -/

namespace Sys2Proof.Machine

/-! ## The lanes' results (R96, R97) -/

theorem setWidth_and_low32 (w : Word) : w.setWidth 64 &&& 0xFFFFFFFF#64 = w.setWidth 64 := by
  apply BitVec.eq_of_toNat_eq
  have := w.isLt
  simp only [BitVec.toNat_and, BitVec.toNat_setWidth, BitVec.toNat_ofNat]
  exact Nat.and_two_pow_sub_one_of_lt_two_pow (n := 32) (by omega) |>.trans (by omega)

/-- A 32-bit thread result without UDST goes to x[TD] of every active lane. -/
theorem thrWord_lanes {t : TSlot} (hTd : t.td ≠ 255) (hU : tUdst t = false) (act : List Nat) (f : Nat → Word) :
    thrWord t act f = [{ dest := .x t.td, fromMem := false, vals := act.map fun l => (l, (f l).setWidth 64) }] := by
  have hDest : t.td ≠ 255#8 := hTd
  simp [thrWord, thrPend, hDest, hU, setWidth_and_low32]

/-- An integer operation has one result. -/
theorem State.tPend_int (s : State) {g : Grp} {t : TSlot} (hAct : g.act ≠ []) (hTd : t.td ≠ 255) (hU : tUdst t = false)
    (hTop : t.top.toNat ≠ 0) (hInt : t.top.toNat < 0x20) :
    s.tPend g t = [{ dest := .x t.td, fromMem := false
                     vals := g.act.map fun l => (l, (intLane (s.skein g.core g.slot) t l).setWidth 64) }] := by
  rw [← thrWord_lanes hTd hU]
  simp [State.tPend, hAct, hTop, hInt, State.skein]

/-! ## Words that decode refuses (R84, R97) -/

theorem threeForm_ok {t : TSlot} {a b c ok : Bool} (h : (threeForm t a b c ok).ok = true) : ok = true := by
  simp only [threeForm, Bool.and_eq_true] at h
  exact h.1.1.1.1.1

/-- An integer operation is one of the table's twenty, in a format that the table gives it. -/
theorem intInfo_ok {t : TSlot} (h : (intInfo t).ok = true) : t.top.toNat ≤ 0x14 ∧
    (if t.top.toNat == 8 then t.tfmt == 1 else if t.top.toNat == 0x12 || t.top.toNat == 0x13 then t.tfmt == 0
      else decide (t.tfmt.toNat ≤ 1)) = true := by
  unfold intInfo at h
  dsimp only at h
  generalize hOk : (_ && decide (t.top.toNat ≤ 0x14)) = ok at h
  have hTrue : ok = true := by
    repeat' split at h
    · exact threeForm_ok h
    · exact threeForm_ok h
    · exact (Bool.and_eq_true_iff.1 (threeForm_ok h)).1
    · exact threeForm_ok h
    · exact threeForm_ok h
  subst hOk
  simp only [Bool.and_eq_true, decide_eq_true_eq] at hTrue
  obtain ⟨⟨⟨hFmt, -⟩, -⟩, hOp⟩ := hTrue
  exact ⟨hOp, hFmt⟩

/-- A word with an illegal T-slot raises cause 0x01. -/
theorem decodeCause_of_tSlot {units : Nat} {w : IWord} (h : (tInfo w.t).ok = false) : decodeCause units w = some 1 := by
  simp [decodeCause, wordInfo, h]

theorem tInfo_int {t : TSlot} (hTop : t.top.toNat ≠ 0) (hInt : t.top.toNat < 0x20) : tInfo t = intInfo t := by
  simp [tInfo, hTop, hInt]

/-- Settles O52: an operation's result is its lane's, which its lemma gives; decode refuses what `intInfo_ok` excludes. -/
theorem integerResults : Obligations.IntegerResults := by
  unfold Obligations.IntegerResults
  refine ⟨?results, ?refused⟩
  case results =>
    rintro g t s k a b c sg rfl hAct hTd rfl rfl rfl hSg
    obtain rfl : sg = tSg t := hSg
    refine ⟨fun hMod x hx hTop => ?wrap, fun hMod hTop => ?sel, fun hMod x hx hTop hSigned int hInt => ?sat⟩
    case wrap =>
      have hU : tUdst t = false := by rw [tUdst, hMod]; rfl
      have hSat : tSat t = false := by rw [tSat, hMod]; rfl
      simp only [List.mem_cons, List.not_mem_nil, or_false] at hx
      rcases hx with rfl | rfl | rfl | rfl | rfl | rfl | rfl | rfl | rfl | rfl | rfl | rfl | rfl | rfl | rfl | rfl | rfl | rfl | rfl
      all_goals
        rw [s.tPend_int hAct hTd hU (by omega) (by omega)]
        simp only [intLane, hTop, hSat, aluAdd_wrap, aluSub_wrap, aluMul_wrap, aluMulhi_eq, aluMad_wrap, aluMin_eq, aluMax_eq, aluAbs_wrap,
          aluShl_eq, aluShr_eq, aluPopc_eq, aluClz_eq, aluBrev, aluBfe_eq]
    case sel =>
      have hU : tUdst t = false := by rw [tUdst, hMod]; rfl
      rw [s.tPend_int hAct hTd hU (by simp [hTop]) (by simp [hTop])]
      simp only [intLane, hTop]
      rfl
    case sat =>
      have hU : tUdst t = false := by rw [tUdst, hMod]; rfl
      have hSat : tSat t = true := by rw [tSat, hMod]; rfl
      obtain rfl : int = asInt (tSg t) := hInt
      have hOp : 1 ≤ x.1 ∧ x.1 ≤ 8 := by
        simp only [List.mem_cons, List.not_mem_nil, or_false] at hx
        rcases hx with rfl | rfl | rfl | rfl | rfl <;> decide
      refine ⟨intLane (s.skein g.core g.slot) t, s.tPend_int hAct hTd hU (by omega) (by omega), fun l => ?_⟩
      refine Eq.trans ?_ (asInt_intResult_sat ..)
      simp only [List.mem_cons, List.not_mem_nil, or_false] at hx
      rcases hx with rfl | rfl | rfl | rfl | rfl
      case inr.inr.inr.inr => simp only [intLane, hTop, hSat, show tSg t = true from hSigned rfl, aluAbs_eq]
      all_goals simp only [intLane, hTop, hSat, aluAdd, aluSub, aluMul, aluMad]
  case refused =>
    intro units w h
    refine decodeCause_of_tSlot (Bool.eq_false_iff.2 fun hOk => ?_)
    rw [tInfo_int (by omega) (by omega)] at hOk
    obtain ⟨hOp, hFmt⟩ := intInfo_ok hOk
    rcases h with h | ⟨-, -, h | ⟨h, hf⟩ | ⟨h, hf⟩⟩
    · omega
    · split at hFmt
      · simp [eq_of_beq hFmt] at h
      · split at hFmt
        · simp [eq_of_beq hFmt] at h
        · simp at hFmt
          omega
    · simp [h, hf] at hFmt
    · rcases h with h | h <;> simp [h, hf] at hFmt

end Sys2Proof.Machine
end

section
/-! SUPPORT. The issue of a word that Needle selects: the checks, the causes, and for a word of the C-slot alone its whole effect
(R45 to R50, R62, R82, R84, R87). -/

namespace Sys2Proof.Machine

/-! ## Where a group goes (R90) -/

/-- Values written under the keys of a list stand there, and what is under another key stays. -/
theorem tget_foldl_tset {α : Type} [DecidableEq α] (d : α) (f : Nat → α) (l : List Nat) (m : SMap α) (j : Nat) :
    tget d ((l.map fun a => (a, f a)).foldl (fun m e => tset d m e.1 e.2) m) j = if j ∈ l then f j else tget d m j := by
  induction l generalizing m with
  | nil => rfl
  | cons a r ih =>
    rw [List.map_cons, List.foldl_cons, ih, tget_tset]
    by_cases hr : j ∈ r
    · simp [hr]
    · by_cases ha : j = a <;> simp [hr, ha]

/-- An operation of the C-slot other than a branch, call or return goes on to the next word. -/
theorem nextPc_straight {c : CSlot} (h : 6 ≤ c.cop.toNat) (k : Skein) (pc : Dword) (l : Nat) : nextPc k c pc l = pc + 32 := by
  unfold nextPc
  dsimp only
  split
  case h_6 => rfl
  all_goals omega

theorem callPend_other {c : CSlot} (h : c.cop ≠ 4) (pc : Dword) (act : List Nat) : callPend c pc act = [] := by
  have : c.cop ≠ 4#5 := h
  simp [callPend, this]

/-! ## A selected word (R45 to R49) -/

/-- A slot with a runnable group runs, and holds a thread that has not exited (R46). -/
theorem Core.running_of_groups {k : Core} {n : Nat} (h : (k.groups n).isEmpty = false) :
    (k.skein n).st = .running ∧ (k.skein n).lanes &&& ~~~(k.skein n).exited ≠ 0 := by
  unfold Core.groups at h
  dsimp only at h
  split at h
  · cases h
  · next hIssues =>
    have hRun : (k.skein n).st = .running := by
      simp [Skein.issues] at hIssues
      exact hIssues.1
    refine ⟨hRun, fun hNone => ?_⟩
    have hFree : (k.skein n).freeLanes = [] := by simp [Skein.freeLanes, hNone, lanesOf, offMask]
    simp [hFree, dedup] at h

/-- The slot that comes next has a runnable group (R45). -/
theorem Core.groups_of_nextSlot {k : Core} {n : Nat} (h : k.nextSlot = some n) : (k.groups n).isEmpty = false := by
  simpa using List.find?_some h

/-- The core after an issue opportunity went to a group (R45, R48). -/
def Core.opened (k : Core) (slot : SlotId) (lanes : List Nat) : Core :=
  ({ k with lastSlot := slot } : Core).modSkein slot.toNat fun x => x.opportunity (k.groups slot.toNat) lanes

/-- The state in which a selected word's checks are made. -/
def State.opened (s : State) (i : Issue) : State := s.modCore i.core.toNat fun _ => (s.core i.core.toNat).opened i.slot (s.grp i).lanes

@[simp] theorem State.core_opened (s : State) (i : Issue) :
    (s.opened i).core i.core.toNat = (s.core i.core.toNat).opened i.slot (s.grp i).lanes := State.core_modCore ..

/-- An opportunity used changes of the skein the counts of Needle alone. -/
@[simp] theorem State.skein_opened (s : State) (i : Issue) : (s.opened i).skein i.core.toNat i.slot.toNat =
    (s.skein i.core.toNat i.slot.toNat).opportunity ((s.core i.core.toNat).groups i.slot.toNat) (s.grp i).lanes := by
  rw [State.skein, State.core_opened]
  exact Core.skein_modSkein ..

section Selected
variable {s : State} {i : Issue} (hIssues : s.Issues i)
include hIssues

theorem State.Issues.running : (s.skein i.core.toNat i.slot.toNat).st = .running ∧
    (s.skein i.core.toNat i.slot.toNat).lanes &&& ~~~(s.skein i.core.toNat i.slot.toNat).exited ≠ 0 := by
  obtain ⟨hSel, -, -, -⟩ := hIssues
  simp only [State.selected, Bool.and_eq_true, beq_iff_eq] at hSel
  exact Core.running_of_groups (Core.groups_of_nextSlot hSel.1)

/-- The group that Needle selects issues its word. -/
theorem State.issueWord_opened : s.issueWord i true = (s.opened i).issueGroup (s.grp i) i.word := by
  obtain ⟨hSel, hWord, -, -⟩ := hIssues
  unfold State.issueWord
  simp only [hWord, hSel, Bool.not_true, bne_self_eq_false, Bool.or_self, Bool.false_eq_true, if_false, if_true]
  rfl

/-- Its checks at decode pass. -/
theorem State.decodes_opened : decodeCause ((s.opened i).skein (s.grp i).core (s.grp i).slot).units i.word = none := by
  obtain ⟨-, -, hDecode, -⟩ := hIssues
  exact (congrArg (fun k : Skein => decodeCause k.units i.word) (s.skein_opened i)).trans hDecode

end Selected

/-! ## The checks and causes of a word (R62, R63, R84) -/

/-- With its cause alone a list of causes has that as its lowest. -/
theorem lowestCause_single (x : Cause) : lowestCause [x] = some x := by
  simp [lowestCause, lowest]

section Group
variable {s : State} {g : Grp} {w : IWord} (hDecode : decodeCause (s.skein g.core g.slot).units w = none)
include hDecode

theorem State.issueGroup_breaks (hBreaks : s.breaks g w = true) : s.issueGroup g w = s.breakAt g := by
  simp [State.issueGroup, hDecode, hBreaks]

theorem State.issueGroup_fires (hBreaks : s.breaks g w = false) (hCauses : s.cCauses g w.c ++ s.mCause g w.m ++ s.hCause g w.h = []) :
    s.issueGroup g w = s.fire g w := by
  simp only [State.issueGroup, hDecode, hBreaks, hCauses]
  rfl

theorem State.issueGroup_raises {x : Cause} (hBreaks : s.breaks g w = false)
    (hCauses : s.cCauses g w.c ++ s.mCause g w.m ++ s.hCause g w.h = [x]) : s.issueGroup g w = s.raiseCause g w x := by
  simp only [State.issueGroup, hDecode, hBreaks, hCauses, lowestCause_single]
  rfl

end Group

/-! ## Empty slots (R83) -/

section Empty
variable (s : State) (g : Grp)

theorem State.mCause_empty : s.mCause g {} = [] := rfl

theorem State.hCause_empty : s.hCause g {} = [] := by
  unfold State.hCause
  split <;> rfl

theorem State.mIssue_empty : s.mIssue g {} = s := rfl

theorem State.hIssue_empty (c slot : Nat) (pc : Dword) : s.hIssue c slot pc {} = s := rfl

theorem State.tSlot_empty : s.tSlot g {} = s.modSkein g.core g.slot fun k => k := by
  have hPend : s.tPend g {} = [] := by simp [State.tPend]
  unfold State.tSlot
  dsimp only
  rw [hPend]
  simp [badBlocks, Skein.tGen, tDraws]

/-- Without a module found dead, a command's end adds nothing. -/
theorem State.settle_quiet {s : State} (h : s.wlk.deadPending = []) : s.settle = s := by
  simp [State.settle, State.settleMarks, h]

end Empty

/-! ## A word of the C-slot alone -/

/-- What a group's operation of the C-slot does to its core: every thread goes on, then what the operation controls. -/
def Core.stepC (k : Core) (c : CSlot) (g : Grp) (cycle now : Dword) : Core :=
  ((k.modSkein g.slot fun x => x.moveOn c g cycle).control c g now).modSkein g.slot Skein.prune

/-- A word whose other slots are empty acts on its core alone. -/
theorem State.fire_cSlot {s : State} {w : IWord} (g : Grp) (hT : w.t = {}) (hM : w.m = {}) (hH : w.h = {}) (hQuiet : s.wlk.deadPending = []) :
    s.fire g w = s.modCore g.core fun k => k.stepC w.c g (s.cycles g.core) s.time.now := by
  unfold State.fire
  rw [hT, hM, hH, State.tSlot_empty]
  dsimp only
  rw [State.mIssue_empty, State.hIssue_empty, ite_self, State.settle_quiet (by exact hQuiet)]
  simp only [State.modSkein, State.modCore_modCore, Core.modSkein_modSkein]
  rfl

section CSlot
variable {s : State} {i : Issue} (hIssues : s.Issues i) (hT : i.word.t = {}) (hM : i.word.m = {}) (hH : i.word.h = {})

/-- The core after the issue of a word of the C-slot alone. -/
def State.coreAfter (s : State) (i : Issue) : Core :=
  ((s.core i.core.toNat).opened i.slot (s.grp i).lanes).stepC i.word.c (s.grp i) (s.cycles i.core.toNat) s.time.now

include hM hH

/-- Its causes are those of its C-slot. -/
theorem State.causes_cSlot (t : State) :
    t.cCauses (s.grp i) i.word.c ++ t.mCause (s.grp i) i.word.m ++ t.hCause (s.grp i) i.word.h = t.cCauses (s.grp i) i.word.c := by
  rw [hM, hH, State.mCause_empty, State.hCause_empty, List.append_nil, List.append_nil]

include hIssues hT

/-- With no cause and no halt, it has its effect. -/
theorem State.issueWord_fires (hBreaks : (s.opened i).breaks (s.grp i) i.word = false)
    (hCauses : (s.opened i).cCauses (s.grp i) i.word.c = []) :
    s.issueWord i true = s.modCore i.core.toNat fun _ => s.coreAfter i := by
  obtain ⟨-, -, hDecode, hQuiet⟩ := id hIssues
  have hOpened : (s.opened i).wlk.deadPending = [] := hQuiet
  rw [State.issueWord_opened hIssues, State.issueGroup_fires (State.decodes_opened hIssues) hBreaks ((State.causes_cSlot hM hH _).trans hCauses),
    State.fire_cSlot _ hT hM hH hOpened]
  exact State.modCore_modCore s i.core.toNat _ _

omit hT in
/-- With one cause, it raises that. -/
theorem State.issueWord_raises {x : Cause} (hBreaks : (s.opened i).breaks (s.grp i) i.word = false)
    (hCauses : (s.opened i).cCauses (s.grp i) i.word.c = [x]) :
    s.issueWord i true = (s.opened i).raiseCause (s.grp i) i.word x := by
  rw [State.issueWord_opened hIssues,
    State.issueGroup_raises (State.decodes_opened hIssues) hBreaks ((State.causes_cSlot hM hH _).trans hCauses)]

omit hT hM hH in
/-- At a BRK that halts, it does nothing else. -/
theorem State.issueWord_breaks (hBreaks : (s.opened i).breaks (s.grp i) i.word = true) :
    s.issueWord i true = (s.opened i).breakAt (s.grp i) := by
  rw [State.issueWord_opened hIssues, State.issueGroup_breaks (State.decodes_opened hIssues) hBreaks]

end CSlot

end Sys2Proof.Machine
end

section
/-! SUPPORT. Words of the C-slot that go on to the next word: what their group's registers and program counters are then (R47, R90), and
the threads that EXIT ends (R59, R90). -/

namespace Sys2Proof.Machine

/-! ## The group goes on -/

/-- The registers, predicates and program counters of a skein are those of another. -/
def Skein.SameRegs (k k' : Skein) : Prop := k'.x = k.x ∧ k'.u = k.u ∧ k'.p = k.p ∧ k'.pc = k.pc

theorem Skein.SameRegs.trans {k k' k'' : Skein} (h : k.SameRegs k') (h' : k'.SameRegs k'') : k.SameRegs k'' := by
  obtain ⟨hx, hu, hp, hpc⟩ := h
  obtain ⟨hx', hu', hp', hpc'⟩ := h'
  exact ⟨hx'.trans hx, hu'.trans hu, hp'.trans hp, hpc'.trans hpc⟩

theorem Skein.sameRegs_prune (k : Skein) : k.SameRegs k.prune := ⟨rfl, rfl, rfl, rfl⟩

section Moves
variable (s : State) (i : Issue)

/-- A skein when its group's threads have gone on. -/
def State.moves (x : Skein) : Skein :=
  (x.opportunity ((s.core i.core.toNat).groups i.slot.toNat) (s.grp i).lanes).moveOn i.word.c (s.grp i) (s.cycles i.core.toNat)

/-- The core when the group's threads have gone on, before what the C-slot controls. -/
def State.coreMoved : Core := ({ s.core i.core.toNat with lastSlot := i.slot } : Core).modSkein i.slot.toNat (s.moves i)

theorem State.coreAfter_eq : s.coreAfter i =
    ((s.coreMoved i).control i.word.c (s.grp i) s.time.now).modSkein i.slot.toNat Skein.prune := by
  unfold State.coreAfter Core.stepC Core.opened
  rw [show (s.grp i).slot = i.slot.toNat from rfl, Core.modSkein_modSkein]
  rfl

@[simp] theorem State.coreMoved_skein : (s.coreMoved i).skein i.slot.toNat = s.moves i (s.skein i.core.toNat i.slot.toNat) :=
  Core.skein_modSkein ..

theorem State.coreMoved_skein_other {m : Nat} (h : m ≠ i.slot.toNat) : (s.coreMoved i).skein m = s.skein i.core.toNat m :=
  Core.skein_modSkein_other _ _ h

/-- Going on by another operation than a call queues no result. -/
theorem State.moves_pend {s : State} {i : Issue} (h : i.word.c.cop ≠ 4) (x : Skein) : (s.moves i x).pend = x.pend :=
  (congrArg (x.pend ++ ·) (callPend_other h _ _)).trans (List.append_nil _)

variable {s i} {u : State} (hStraight : 6 ≤ i.word.c.cop.toNat)
include hStraight

/-- A group has moved to the next word where its skein holds what going on left there. -/
theorem State.moved_of_sameRegs (hSlot : (u.core i.core.toNat).lastSlot = i.slot)
    (hRegs : (s.moves i (s.skein i.core.toNat i.slot.toNat)).SameRegs (u.skein i.core.toNat i.slot.toNat)) :
    s.Moved u i fun _ => i.pc + 32 := by
  obtain ⟨hx, hu, hp, hpc⟩ := hRegs
  have hTo (l : Nat) : tget 0 (u.skein i.core.toNat i.slot.toNat).pc l =
      if l ∈ (s.grp i).lanes then i.pc + 32 else tget 0 (s.skein i.core.toNat i.slot.toNat).pc l := by
    rw [hpc]
    refine (tget_foldl_tset ..).trans ?_
    simp only [nextPc_straight hStraight, ite_self]
    rfl
  refine ⟨hSlot, hx, hu, hp, fun l hl => ?_, fun l hl => ?_⟩
  · rw [hTo, if_pos hl, ite_self]
  · rw [hTo, if_neg hl]

/-- Where the core's skein slot alone changed, so did nothing else of the state. -/
theorem State.moved_alone {f : Skein → Skein} (hAfter : s.coreAfter i = ({ s.core i.core.toNat with lastSlot := i.slot } : Core).modSkein i.slot.toNat f)
    (hRegs : (s.moves i (s.skein i.core.toNat i.slot.toNat)).SameRegs (f (s.skein i.core.toNat i.slot.toNat)))
    (hu : u = s.modCore i.core.toNat fun _ => s.coreAfter i) :
    s.Moved u i (fun _ => i.pc + 32) ∧ s.OnlySkein u i.core.toNat i.slot.toNat ∧
      u.skein i.core.toNat i.slot.toNat = f (s.skein i.core.toNat i.slot.toNat) := by
  subst hu
  rw [hAfter]
  have hSkein : (s.modCore i.core.toNat fun _ => ({ s.core i.core.toNat with lastSlot := i.slot } : Core).modSkein i.slot.toNat f).skein
      i.core.toNat i.slot.toNat = f (s.skein i.core.toNat i.slot.toNat) := by
    rw [State.skein_modCore]
    exact Core.skein_modSkein ..
  refine ⟨State.moved_of_sameRegs hStraight (by rw [State.core_modCore]; rfl) (hSkein ▸ hRegs), ⟨rfl, fun m hm => ?_, fun d hd => ?_, ?_⟩, hSkein⟩
  · rw [State.skein_modCore]
    exact Core.skein_modSkein_other _ _ hm
  · exact State.core_modCore_other _ _ hd
  · rw [State.core_modCore]
    rfl

end Moves

/-! ## Threads that exit (R59) -/

/-- A lane's thread ends, and the skein with its last one. -/
def Skein.exitLane (x : Skein) (lane : Nat) : Skein :=
  let y := { x with exited := x.exited ||| laneBit lane }
  if y.lanes &&& ~~~y.exited == 0 && y.st == .running then { y with st := .ending } else y

/-- In a bundle without knots a thread's exit changes its skein alone. -/
theorem Core.threadExit_alone {k : Core} {n : Nat} {f : Skein → Skein} (h : k.knotsOf (f (k.skein n)).bundle.toNat = []) (lane : Nat)
    (now : Dword) : (k.modSkein n f).threadExit n lane now = k.modSkein n fun x => (f x).exitLane lane := by
  have hKnots : (k.modSkein n fun x => { f x with exited := (f x).exited ||| laneBit lane }).knotsOf (f (k.skein n)).bundle.toNat = [] := h
  unfold Core.threadExit
  dsimp only
  rw [Core.skein_modSkein, Core.modSkein_modSkein, hKnots, List.foldl_nil, Core.modSkein_modSkein]
  rfl

@[simp] theorem Skein.exitLane_bundle (x : Skein) (a : Nat) : (x.exitLane a).bundle = x.bundle := by
  unfold Skein.exitLane
  dsimp only
  split <;> rfl

theorem Core.foldl_threadExit {k : Core} {n : Nat} (l : List Nat) {f : Skein → Skein} (now : Dword)
    (h : k.knotsOf (f (k.skein n)).bundle.toNat = []) :
    l.foldl (fun k a => k.threadExit n a now) (k.modSkein n f) = k.modSkein n fun x => l.foldl Skein.exitLane (f x) := by
  induction l generalizing f with
  | nil => rfl
  | cons a r ih =>
    rw [List.foldl_cons, Core.threadExit_alone h, ih (by rwa [Skein.exitLane_bundle])]
    rfl

theorem maskOf_cons (a : Nat) (l : List Nat) : maskOf (a :: l) = laneBit a ||| maskOf l := by
  have hFrom (l : List Nat) (m : Mask) : l.foldl (fun m l => m ||| laneBit l) m = m ||| maskOf l := by
    induction l generalizing m with
    | nil => simp [maskOf]
    | cons b r ih =>
      have hTail : maskOf (b :: r) = 0 ||| laneBit b ||| maskOf r := ih _
      rw [List.foldl_cons, ih, hTail, ← BitVec.or_assoc, ← BitVec.or_assoc, show m ||| 0 = m from BitVec.or_zero]
  exact (hFrom l _).trans (congrArg (· ||| maskOf l) BitVec.zero_or)

/-- A skein runs while it holds a thread that has not exited. -/
def Skein.Alive (x : Skein) : Prop := x.st = if x.lanes &&& ~~~x.exited = 0 then .ending else .running

/-- A thread's exit takes the skein to its end with the last one. -/
theorem Skein.exitLane_alive {x : Skein} (h : x.Alive) (a : Nat) : x.exitLane a =
    { x with exited := x.exited ||| laneBit a
             st := if x.lanes &&& ~~~(x.exited ||| laneBit a) = 0 then .ending else .running } := by
  have hMore (hNone : x.lanes &&& ~~~x.exited = 0) : x.lanes &&& ~~~(x.exited ||| laneBit a) = 0 := by
    rw [BitVec.not_or, ← BitVec.and_assoc, hNone]
    exact BitVec.zero_and
  unfold Skein.exitLane Skein.Alive at *
  by_cases hLast : x.lanes &&& ~~~(x.exited ||| laneBit a) = 0#32
  · by_cases hNone : x.lanes &&& ~~~x.exited = 0
    · have hSt : x.st = .ending := by rw [h, if_pos hNone]
      simp [hLast, hSt]
    · have hSt : x.st = .running := by rw [h, if_neg hNone]
      simp [hLast, hSt]
  · have hSt : x.st = .running := by rw [h, if_neg fun hNone => hLast (hMore hNone)]
    simp [hLast, hSt]

/-- The exits of some threads. -/
theorem Skein.foldl_exitLane (l : List Nat) {x : Skein} (h : x.Alive) : l.foldl Skein.exitLane x =
    { x with exited := x.exited ||| maskOf l
             st := if x.lanes &&& ~~~(x.exited ||| maskOf l) = 0 then .ending else .running } := by
  induction l generalizing x with
  | nil =>
    have hNone : x.exited ||| maskOf [] = x.exited := BitVec.or_zero
    rw [hNone, ← h]
    rfl
  | cons a r ih =>
    have hNext : ({ x with exited := x.exited ||| laneBit a
                           st := if x.lanes &&& ~~~(x.exited ||| laneBit a) = 0 then .ending else .running } : Skein).Alive := rfl
    rw [List.foldl_cons, Skein.exitLane_alive h, ih hNext, maskOf_cons]
    simp only [BitVec.or_assoc]

end Sys2Proof.Machine
end

section
/-! SUPPORT. The arrival of a thread at a knot, and the end of its phase (R57, R58). -/

namespace Sys2Proof.Machine

section Knots
variable {k : Core} {slot lane n b : Nat} {wait : Bool} {pc now : Dword}

/-- A knot that a bundle names is one of the core's and has an owner. -/
theorem Core.knotNamed_owned {v : Nat} (h : k.knotNamed b v = some n) : n < k.knots.length ∧ (nth {} k.knots n).owner.isSome = true := by
  have hOwner : (nth {} k.knots n).owner = some (BitVec.ofNat 6 b) := by
    simpa using (List.mem_filter.1 (List.mem_of_find?_eq_some h)).2
  refine ⟨Nat.lt_of_not_le fun hn => ?_, by rw [hOwner]; rfl⟩
  rw [nth, List.getElem?_eq_none hn] at hOwner
  cases hOwner

/-- No thread of the core is held by a second arrival at a knot (R58). -/
def Core.Unheld (k : Core) : Prop := ∀ e ∈ k.skeins, e.2.knotHeld = []

theorem Core.Unheld.skein (h : k.Unheld) (m : Nat) : (k.skein m).knotHeld = [] :=
  tget_of_forall (P := fun x : Skein => x.knotHeld = []) {} k.skeins rfl h m

theorem Core.Unheld.modSkein (h : k.Unheld) {f : Skein → Skein} (hf : ∀ x, (f x).knotHeld = x.knotHeld) : (k.modSkein slot f).Unheld := by
  have hSlot : (f (k.skein slot)).knotHeld = [] := (hf _).trans (h.skein slot)
  intro e he
  unfold Core.modSkein tmod tset at he
  dsimp only at he
  split at he
  · exact h e (List.mem_filter.1 he).1
  · rcases (mem_tinsert ..).1 he with rfl | he
    · exact hSlot
    · exact h e (List.mem_filter.1 he).1

theorem Core.Unheld.heldAt (h : k.Unheld) : k.heldAt b n = [] := by
  refine List.flatMap_eq_nil_iff.2 fun e he => ?_
  rw [h e (List.mem_filter.1 (List.mem_filter.1 he).1).1]
  rfl

section Arrive
variable {x : Knot} {key : Nat} {paused : Bool} (h : key ∉ x.arrived)
include h

theorem Knot.arrive_arrived : (x.arrive key now paused).arrived = key :: x.arrived := by
  simp [Knot.arrive, h]

/-- A knot's phase is complete with an arrival where all participants have then arrived or exited (R59). -/
theorem Knot.arrive_complete (hOwner : x.owner.isSome = true) :
    (x.arrive key now paused).complete = (x.arrived.length + 1 + x.exited == x.participants) := by
  have hFields : (x.arrive key now paused).complete = (x.owner.isSome && (x.arrive key now paused).arrived.length + x.exited == x.participants
      && x.participants != 0) := rfl
  rw [hFields, Knot.arrive_arrived h, hOwner, List.length_cons, Bool.true_and, Bool.eq_iff_iff]
  simp only [Bool.and_eq_true, beq_iff_eq, bne_iff_ne]
  omega

end Arrive

/-- The core when an arrival has been counted, before the phase ends if it is the last. -/
def Core.counted (k : Core) (slot lane n : Nat) (wait : Bool) (pc now : Dword) : Core :=
  let t := k.modKnot n fun x => x.arrive (threadKey slot lane) now (k.bundlePaused (k.skein slot).bundle.toNat)
  if wait then t.modSkein slot fun x => { x with knotWait := tinsert (terase x.knotWait lane) lane (n, pc) } else t

theorem Core.knotArrive_counted (h : threadKey slot lane ∉ (nth {} k.knots n).arrived) :
    k.knotArrive slot lane n wait pc now = (k.counted slot lane n wait pc now).settleKnot (k.skein slot).bundle.toNat n now := by
  unfold Core.knotArrive
  rw [if_neg (by simpa using h)]
  rfl

theorem Core.counted_knot (h : n < k.knots.length) : nth {} (k.counted slot lane n wait pc now).knots n =
    (nth {} k.knots n).arrive (threadKey slot lane) now (k.bundlePaused (k.skein slot).bundle.toNat) := by
  cases wait <;> exact nth_upd_same _ _ _ _ h

theorem Core.counted_knots_length : (k.counted slot lane n wait pc now).knots.length = k.knots.length := by
  cases wait <;> exact upd_length ..

theorem Core.counted_lastSlot : (k.counted slot lane n wait pc now).lastSlot = k.lastSlot := by
  cases wait <;> rfl

/-- A thread that arrives with KNOT.WAIT waits there; of its skein, and of every other, all else stays. -/
theorem Core.counted_skein (m : Nat) : (k.counted slot lane n wait pc now).skein m =
    if wait ∧ m = slot then { k.skein m with knotWait := tinsert (terase (k.skein m).knotWait lane) lane (n, pc) } else k.skein m := by
  cases wait
  · rfl
  · by_cases hm : m = slot
    · subst hm
      simp only [and_self, if_true]
      exact Core.skein_modSkein ..
    · simp only [hm, and_false, if_false]
      exact Core.skein_modSkein_other _ _ hm

theorem Core.Unheld.counted (h : k.Unheld) : (k.counted slot lane n wait pc now).Unheld := by
  cases wait
  · exact h
  · exact Core.Unheld.modSkein (k := k.modKnot n _) h fun _ => rfl

/-- The knot of a new phase. -/
def Knot.renewed (x : Knot) : Knot := { x with phase := !x.phase, arrived := [], firstAt := none, pausedAt := none }

/-- A skein whose threads a knot lets go on, and counts those it held. -/
def Skein.released (x : Skein) (n : Nat) : Skein := { x with
  knotWait := (x.knotWait.filter fun w => w.2.1 != n) ++ ((x.knotHeld.filter fun h => h.2.1 == n && h.2.2.1).map fun h => (h.1, (n, h.2.2.2)))
  knotHeld := x.knotHeld.filter fun h => h.2.1 != n }

/-- Of a skein's threads that go on none waits there any longer. -/
theorem Skein.released_waits {x : Skein} (h : x.knotHeld = []) : ∀ w ∈ (x.released n).knotWait, w.2.1 ≠ n := by
  intro w hw
  have : w ∈ x.knotWait ∧ w.2.1 ≠ n := by simpa [Skein.released, h] using hw
  exact this.2

/-- The core when a phase has ended at which no thread was held. -/
def Core.phaseEnded (k : Core) (b n : Nat) : Core :=
  { k.modKnot n Knot.renewed with skeins := k.skeins.map fun e => if e.2.bundle.toNat == b then (e.1, e.2.released n) else e }

theorem Core.settleKnot_incomplete (h : (nth {} k.knots n).complete = false) : k.settleKnot b n now = k := by
  rw [Core.settleKnot, if_neg (by rw [h]; decide)]

theorem Core.settleKnot_complete (h : (nth {} k.knots n).complete = true) (hn : n < k.knots.length) (hHeld : k.Unheld) :
    k.settleKnot b n now = k.phaseEnded b n := by
  have hEnd : k.endPhase b n now = k.phaseEnded b n := by
    unfold Core.endPhase
    rw [hHeld.heldAt]
    rfl
  have hKnot : (nth {} (k.phaseEnded b n).knots n).arrived = [] := congrArg Knot.arrived (nth_upd_same _ _ _ Knot.renewed hn)
  unfold Core.settleKnot
  rw [if_pos h, hEnd]
  dsimp only
  rw [hKnot, List.isEmpty_nil, Bool.not_true, Bool.and_false]
  rfl

theorem Core.phaseEnded_knot (hn : n < k.knots.length) : nth {} (k.phaseEnded b n).knots n = (nth {} k.knots n).renewed :=
  nth_upd_same _ _ _ _ hn

theorem Core.phaseEnded_skein (m : Nat) : (k.phaseEnded b n).skein m =
    if (k.skein m).bundle.toNat == b then (k.skein m).released n else k.skein m :=
  Core.skein_map_if k (fun e => e.2.bundle.toNat == b) (fun e => e.2.released n) (fun _ _ => rfl) m

end Knots

end Sys2Proof.Machine
end

section
/-! CLAIM. EXIT, knots, TRAP and BRK: the statement O54. -/

namespace Sys2Proof.Machine

/-! ## The causes of the C-slot (R56, R90, R91) -/

section Causes
variable {s : State} {g : Grp} {w : IWord}

theorem State.breaks_other (h : w.c.cop ≠ 10) : s.breaks g w = false := by
  have : w.c.cop ≠ 10#5 := h
  simp [State.breaks, this]

theorem State.cCauses_exit {c : CSlot} (h : c.cop = 6) : s.cCauses g c = [] := by
  simp [State.cCauses, h]

theorem State.cCauses_knot {c : CSlot} {n : Nat} (wait : Bool) (h : c.cop = if wait then 7 else 8)
    (hName : (s.core g.core).knotNamed ((s.core g.core).skein g.slot).bundle.toNat (c.cimm.toNat % 16) = some n) : s.cCauses g c = [] := by
  cases wait <;> simp [State.cCauses, h, hName]

theorem State.cCauses_trap {c : CSlot} (h : c.cop = 9) (hAct : g.act ≠ []) :
    s.cCauses g c = [{ code := 0x0E, mask := maskOf g.act, addr := 0 }] := by
  simp [State.cCauses, h, hAct]

/-- A BRK raises nothing where the policy permits halts, and where its threads pass it. -/
theorem State.cCauses_brk {c : CSlot} (h : c.cop = 10)
    (hPass : s.haltAllowed (s.partOf g.core) = true ∨ maskOf g.act &&& ~~~(s.skein g.core g.slot).brkPass = 0) : s.cCauses g c = [] := by
  have hTest : (s.haltAllowed (s.partOf g.core) || maskOf g.act &&& ~~~((s.core g.core).skein g.slot).brkPass == 0) = true := by
    rw [Bool.or_eq_true, beq_iff_eq]
    exact hPass
  unfold State.cCauses
  dsimp only
  rw [h, hTest]
  split <;> rfl

theorem State.cCauses_brk_forbidden {c : CSlot} (h : c.cop = 10) (hForbid : s.haltAllowed (s.partOf g.core) = false)
    (hHalt : maskOf g.act &&& ~~~(s.skein g.core g.slot).brkPass ≠ 0) :
    s.cCauses g c = [{ code := 0x0F, mask := maskOf g.act, addr := 0 }] := by
  have hTest : (s.haltAllowed (s.partOf g.core) || maskOf g.act &&& ~~~((s.core g.core).skein g.slot).brkPass == 0) = false := by
    rw [hForbid, Bool.false_or]
    exact beq_false_of_ne hHalt
  have hAct : g.act ≠ [] := fun hNone => hHalt (by rw [hNone]; exact BitVec.zero_and)
  unfold State.cCauses
  dsimp only
  rw [h, hTest, if_neg (by simpa using hAct)]
  rfl

end Causes

/-! ## The exception of a running skein (R62, R63) -/

/-- What R76 and R77 record of it; the registers and the program counters stay. -/
theorem State.skein_raiseExc {s : State} {c slot cause : Nat} {mask : Mask} {pc addr : Dword} {extra : Nat}
    (h : (s.skein c slot).st = .running) : (s.raiseExc c slot cause mask pc addr extra).skein c slot =
      { s.skein c slot with
        st := .excHalted, cause := BitVec.ofNat 8 cause, excMask := mask, excPc := pc
        excAddr := if causeHasAddr cause then addr else 0, abortPending := false } := by
  unfold State.raiseExc
  simp only [h, bne_self_eq_false, Bool.false_eq_true, if_false]
  rw [State.skein_of_cores (State.countExc_cores ..), State.skein_of_cores (State.record_cores ..), State.skein_abortBundle_self,
    State.skein_modSkein]

/-- A cause that concerns no data and no descriptor is raised as it stands, and no step aborts while every partition is idle. -/
theorem State.raiseCause_plain {s : State} (g : Grp) (w : IWord) {x : Cause} (hPlace : x.place = none) (hCode : x.code ≠ 0x0D)
    (hIdle : ∀ p < 16, (s.obPart p).phase = .idle) :
    s.raiseCause g w x = s.raiseExc g.core g.slot x.code x.mask g.pc x.addr x.extra := by
  unfold State.raiseCause
  simp only [hPlace, bne_iff_ne, ne_eq, hCode, not_false_eq_true, if_true]
  refine State.stepSettle_idle fun p hp => ?_
  unfold State.obPart
  rw [State.raiseExc_ob]
  exact hIdle p hp

/-! ## The words -/

section Words
variable {i : Issue} {s u : State} {k' : Skein} (hIssues : s.Issues i) (hT : i.word.t = {}) (hM : i.word.m = {}) (hH : i.word.h = {})
include hIssues hM hH

/-- A word whose C-slot has one cause, of its active threads, halts the skein with it at the word's own address. -/
theorem State.issueWord_halts {code : Nat} (hCode : code ≠ 0x0D) (hIdle : ∀ p < 16, (s.obPart p).phase = .idle)
    (hBreaks : (s.opened i).breaks (s.grp i) i.word = false)
    (hCauses : (s.opened i).cCauses (s.grp i) i.word.c = [{ code := code, mask := maskOf (s.grp i).act, addr := 0 }])
    (hu : s.issueWord i true = u) (hk : u.skein i.core.toNat i.slot.toNat = k') :
    k'.st = .excHalted ∧ k'.cause = BitVec.ofNat 8 code ∧ k'.excPc = i.pc ∧ k'.excMask = maskOf (s.grp i).act ∧
      k'.pc = (s.skein i.core.toNat i.slot.toNat).pc ∧ k'.x = (s.skein i.core.toNat i.slot.toNat).x ∧ u.mem = s.mem := by
  have hRun : ((s.opened i).skein i.core.toNat i.slot.toNat).st = .running := by
    rw [State.skein_opened]
    exact (State.Issues.running hIssues).1
  rw [State.issueWord_raises hIssues hM hH hBreaks hCauses, State.raiseCause_plain (s := s.opened i) _ _ rfl hCode hIdle] at hu
  subst hu
  obtain rfl := (State.skein_raiseExc hRun).symm.trans hk
  exact ⟨rfl, rfl, rfl, rfl, (congrArg Skein.pc (s.skein_opened i) :), (congrArg Skein.x (s.skein_opened i) :), State.raiseExc_mem ..⟩

omit hM hH in
/-- A BRK that permits it halts the skein where it stands; the threads halted there are marked (R91). -/
theorem State.issueWord_brk_halts (hCop : i.word.c.cop = 10) (hAllow : s.haltAllowed (s.partOf i.core.toNat) = true)
    (hHalt : maskOf (s.grp i).act &&& ~~~(s.skein i.core.toNat i.slot.toNat).brkPass ≠ 0)
    (hu : s.issueWord i true = u) (hk : u.skein i.core.toNat i.slot.toNat = k') :
    k'.st = .debugHalted ∧ k'.pc = (s.skein i.core.toNat i.slot.toNat).pc ∧ k'.pend = (s.skein i.core.toNat i.slot.toNat).pend ∧
      u.mem = s.mem ∧ k'.brkPass = (s.skein i.core.toNat i.slot.toNat).brkPass ||| maskOf (s.grp i).act := by
  have hBreaks : (s.opened i).breaks (s.grp i) i.word = true := by
    have hHalt' : maskOf (s.grp i).act &&& ~~~((s.opened i).skein (s.grp i).core (s.grp i).slot).brkPass ≠ 0 := by
      rw [show (s.opened i).skein (s.grp i).core (s.grp i).slot = _ from s.skein_opened i]
      exact hHalt
    have hAllow' : (s.opened i).haltAllowed ((s.opened i).partOf (s.grp i).core) = true := hAllow
    rw [State.breaks, hCop, hAllow', bne_iff_ne.2 hHalt']
    rfl
  rw [State.issueWord_breaks hIssues hBreaks] at hu
  subst hu
  have hSkein : ((s.opened i).breakAt (s.grp i)).skein i.core.toNat i.slot.toNat =
      { (s.opened i).skein i.core.toNat i.slot.toNat with
        st := .debugHalted
        brkPass := ((s.opened i).skein i.core.toNat i.slot.toNat).brkPass ||| maskOf (s.grp i).act } := by
    refine (State.skein_modCore ..).trans ?_
    rw [Core.pauseKnots_skein]
    exact Core.skein_modSkein ..
  rw [State.skein_opened] at hSkein
  obtain rfl := hSkein.symm.trans hk
  exact ⟨rfl, rfl, rfl, rfl, rfl⟩

include hT

/-- EXIT, in a bundle without knots, ends the active threads and nothing else (R59). -/
theorem State.issueWord_exit (hCop : i.word.c.cop = 6)
    (hKnots : (s.core i.core.toNat).knotsOf (s.skein i.core.toNat i.slot.toNat).bundle.toNat = [])
    (hu : s.issueWord i true = u) (hk : u.skein i.core.toNat i.slot.toNat = k') :
    s.Moved u i (fun _ => i.pc + 32) ∧ s.OnlySkein u i.core.toNat i.slot.toNat ∧ k'.pend = (s.skein i.core.toNat i.slot.toNat).pend ∧
      k'.exited = (s.skein i.core.toNat i.slot.toNat).exited ||| maskOf (s.grp i).act ∧
      k'.st = if (s.skein i.core.toNat i.slot.toNat).lanes &&&
        ~~~((s.skein i.core.toNat i.slot.toNat).exited ||| maskOf (s.grp i).act) = 0 then .ending else .running := by
  obtain ⟨hRun, hSome⟩ := State.Issues.running hIssues
  have hExits := Skein.foldl_exitLane (x := s.moves i (s.skein i.core.toNat i.slot.toNat)) (s.grp i).act (hRun.trans (if_neg hSome).symm)
  have hAfter : s.coreAfter i = ({ s.core i.core.toNat with lastSlot := i.slot } : Core).modSkein i.slot.toNat fun x =>
      ((s.grp i).act.foldl Skein.exitLane (s.moves i x)).prune := by
    have hControl : (s.coreMoved i).control i.word.c (s.grp i) s.time.now = ({ s.core i.core.toNat with lastSlot := i.slot } : Core).modSkein
        i.slot.toNat fun x => (s.grp i).act.foldl Skein.exitLane (s.moves i x) := by
      rw [Core.control, hCop]
      exact Core.foldl_threadExit _ _ hKnots
    rw [State.coreAfter_eq, hControl, Core.modSkein_modSkein]
  rw [State.issueWord_fires hIssues hT hM hH (State.breaks_other (by rw [hCop]; decide)) (State.cCauses_exit hCop)] at hu
  obtain ⟨hMoved, hOnly, hSkein⟩ := State.moved_alone (by rw [hCop]; decide) hAfter (by rw [hExits]; exact ⟨rfl, rfl, rfl, rfl⟩) hu.symm
  rw [hExits] at hSkein
  obtain rfl := hSkein.symm.trans hk
  exact ⟨hMoved, hOnly, State.moves_pend (by rw [hCop]; decide) _, rfl, rfl⟩

/-- A BRK that no thread stops at is passed (R91). -/
theorem State.issueWord_brk_passed (hCop : i.word.c.cop = 10)
    (hPass : maskOf (s.grp i).act &&& ~~~(s.skein i.core.toNat i.slot.toNat).brkPass = 0) (hu : s.issueWord i true = u) :
    s.Moved u i (fun _ => i.pc + 32) ∧ s.OnlySkein u i.core.toNat i.slot.toNat ∧ (u.skein i.core.toNat i.slot.toNat).st = .running := by
  obtain ⟨hRun, -⟩ := State.Issues.running hIssues
  have hPassed : maskOf (s.grp i).act &&& ~~~((s.opened i).skein (s.grp i).core (s.grp i).slot).brkPass = 0 :=
    (congrArg (fun x : Skein => maskOf (s.grp i).act &&& ~~~x.brkPass) (s.skein_opened i)).trans hPass
  have hAfter : s.coreAfter i = ({ s.core i.core.toNat with lastSlot := i.slot } : Core).modSkein i.slot.toNat fun x => (s.moves i x).prune := by
    rw [State.coreAfter_eq, Core.control, hCop]
    exact Core.modSkein_modSkein ..
  have hBreaks : (s.opened i).breaks (s.grp i) i.word = false := by
    unfold State.breaks
    rw [hPassed]
    simp
  rw [State.issueWord_fires hIssues hT hM hH hBreaks (State.cCauses_brk hCop (.inr hPassed))] at hu
  obtain ⟨hMoved, hOnly, hSkein⟩ := State.moved_alone (by rw [hCop]; decide) hAfter ⟨rfl, rfl, rfl, rfl⟩ hu.symm
  exact ⟨hMoved, hOnly, hSkein ▸ hRun⟩

end Words

/-! ### Knots (R57, R58) -/

section Knots
variable {i : Issue} {s u : State} {l n : Nat} {wait : Bool} (hIssues : s.Issues i) (hT : i.word.t = {}) (hM : i.word.m = {}) (hH : i.word.h = {})
  (hCop : i.word.c.cop = if wait then 7 else 8) (hAct : (s.grp i).act = [l])
  (hName : (s.core i.core.toNat).knotNamed (s.skein i.core.toNat i.slot.toNat).bundle.toNat (i.word.c.cimm.toNat % 16) = some n)
  (hNew : threadKey i.slot.toNat l ∉ (nth {} (s.core i.core.toNat).knots n).arrived)

/-- The core when the thread's arrival has been counted. -/
def State.coreCounted (s : State) (i : Issue) (l n : Nat) (wait : Bool) : Core :=
  (s.coreMoved i).counted i.slot.toNat l n wait i.pc s.time.now

include hCop hAct hName hNew in
/-- The arrival is counted, then the phase ends if it is complete. -/
theorem State.coreAfter_knot : s.coreAfter i =
    ((s.coreCounted i l n wait).settleKnot (s.skein i.core.toNat i.slot.toNat).bundle.toNat n s.time.now).modSkein i.slot.toNat Skein.prune := by
  have hBundle : ((s.coreMoved i).skein i.slot.toNat).bundle = (s.skein i.core.toNat i.slot.toNat).bundle := by
    rw [State.coreMoved_skein]
    rfl
  have hName' : (s.coreMoved i).knotNamed ((s.coreMoved i).skein (s.grp i).slot).bundle.toNat (i.word.c.cimm.toNat % 16) = some n := by
    rw [show (s.grp i).slot = i.slot.toNat from rfl, hBundle]
    exact hName
  have hArrive : (s.coreMoved i).control i.word.c (s.grp i) s.time.now =
      (s.coreMoved i).knotArrive i.slot.toNat l n wait i.pc s.time.now := by
    unfold Core.control
    rw [hName', hAct, hCop]
    cases wait <;> rfl
  rw [State.coreAfter_eq, hArrive, Core.knotArrive_counted (k := s.coreMoved i) hNew, hBundle]
  rfl

/-- The skeins of the core then: those of the group's slot have gone on, and with KNOT.WAIT its thread waits. -/
theorem State.coreCounted_skein : (s.coreCounted i l n wait).skein i.slot.toNat =
    if wait then { s.moves i (s.skein i.core.toNat i.slot.toNat) with
      knotWait := tinsert (terase (s.skein i.core.toNat i.slot.toNat).knotWait l) l (n, i.pc) }
    else s.moves i (s.skein i.core.toNat i.slot.toNat) := by
  rw [State.coreCounted, Core.counted_skein, State.coreMoved_skein]
  simp only [and_true]
  rfl

theorem State.coreCounted_sameRegs :
    (s.moves i (s.skein i.core.toNat i.slot.toNat)).SameRegs ((s.coreCounted i l n wait).skein i.slot.toNat) := by
  rw [State.coreCounted_skein]
  cases wait <;> exact ⟨rfl, rfl, rfl, rfl⟩

theorem State.coreCounted_bundle (m : Nat) : ((s.coreCounted i l n wait).skein m).bundle = (s.skein i.core.toNat m).bundle := by
  by_cases hm : m = i.slot.toNat
  · subst hm
    rw [State.coreCounted_skein]
    cases wait <;> rfl
  · rw [State.coreCounted, Core.counted_skein, if_neg (fun h => hm h.2), State.coreMoved_skein_other _ _ hm]

theorem State.coreCounted_unheld (h : (s.core i.core.toNat).Unheld) : (s.coreCounted i l n wait).Unheld := by
  have hMoved : (s.coreMoved i).Unheld := Core.Unheld.modSkein (k := { s.core i.core.toNat with lastSlot := i.slot }) h fun _ => rfl
  exact hMoved.counted

/-- The core when the thread's arrival has ended the phase. -/
def State.coreEnded (s : State) (i : Issue) (l n : Nat) (wait : Bool) : Core :=
  (s.coreCounted i l n wait).phaseEnded (s.skein i.core.toNat i.slot.toNat).bundle.toNat n

theorem State.coreEnded_skein {m : Nat} (hm : (s.skein i.core.toNat m).bundle = (s.skein i.core.toNat i.slot.toNat).bundle) :
    (s.coreEnded i l n wait).skein m = ((s.coreCounted i l n wait).skein m).released n := by
  rw [State.coreEnded, Core.phaseEnded_skein, State.coreCounted_bundle, hm, beq_self_eq_true, if_pos rfl]

section Named
include hName

theorem State.coreCounted_knot : ∃ paused, nth {} (s.coreCounted i l n wait).knots n =
    (nth {} (s.core i.core.toNat).knots n).arrive (threadKey i.slot.toNat l) s.time.now paused := by
  obtain ⟨hn, -⟩ := Core.knotNamed_owned hName
  exact ⟨_, Core.counted_knot hn⟩

theorem State.coreEnded_knot : (nth {} (s.coreEnded i l n wait).knots n).arrived = [] ∧
    (nth {} (s.coreEnded i l n wait).knots n).phase = (!(nth {} (s.core i.core.toNat).knots n).phase) ∧
    (nth {} (s.coreEnded i l n wait).knots n).firstAt = none := by
  obtain ⟨hn, -⟩ := Core.knotNamed_owned hName
  obtain ⟨paused, hKnot⟩ := State.coreCounted_knot (l := l) (wait := wait) hName
  rw [State.coreEnded, Core.phaseEnded_knot (Core.counted_knots_length.symm ▸ hn), hKnot]
  exact ⟨rfl, rfl, rfl⟩

include hCop hAct hNew

/-- With the last thread the phase ends. -/
theorem State.coreAfter_ends (hLast : (nth {} (s.core i.core.toNat).knots n).arrived.length + 1 +
      (nth {} (s.core i.core.toNat).knots n).exited = (nth {} (s.core i.core.toNat).knots n).participants)
    (hHeld : (s.coreCounted i l n wait).Unheld) : s.coreAfter i = (s.coreEnded i l n wait).modSkein i.slot.toNat Skein.prune := by
  obtain ⟨hn, hOwner⟩ := Core.knotNamed_owned hName
  obtain ⟨paused, hKnot⟩ := State.coreCounted_knot (l := l) (wait := wait) hName
  rw [State.coreAfter_knot hCop hAct hName hNew, Core.settleKnot_complete _ (Core.counted_knots_length.symm ▸ hn) hHeld]
  · rfl
  · rw [hKnot, Knot.arrive_complete hNew hOwner]
    exact beq_iff_eq.2 hLast

/-- With another it does not. -/
theorem State.coreAfter_waits (hMore : (nth {} (s.core i.core.toNat).knots n).arrived.length + 1 +
      (nth {} (s.core i.core.toNat).knots n).exited < (nth {} (s.core i.core.toNat).knots n).participants) :
    s.coreAfter i = (s.coreCounted i l n wait).modSkein i.slot.toNat Skein.prune := by
  obtain ⟨-, hOwner⟩ := Core.knotNamed_owned hName
  obtain ⟨paused, hKnot⟩ := State.coreCounted_knot (l := l) (wait := wait) hName
  rw [State.coreAfter_knot hCop hAct hName hNew, Core.settleKnot_incomplete]
  rw [hKnot, Knot.arrive_complete hNew hOwner]
  exact beq_false_of_ne (by omega)

end Named

include hIssues hT hM hH hCop hName

theorem State.issueWord_knot_fires : s.issueWord i true = s.modCore i.core.toNat fun _ => s.coreAfter i := by
  have hName' : ((s.opened i).core (s.grp i).core).knotNamed (((s.opened i).core (s.grp i).core).skein (s.grp i).slot).bundle.toNat
      (i.word.c.cimm.toNat % 16) = some n := by
    rw [show ((s.opened i).core (s.grp i).core).skein (s.grp i).slot = _ from s.skein_opened i,
      show (s.opened i).core (s.grp i).core = _ from s.core_opened i]
    exact hName
  exact State.issueWord_fires hIssues hT hM hH (State.breaks_other (by rw [hCop]; cases wait <;> decide)) (State.cCauses_knot wait hCop hName')

include hAct hNew

/-- A thread that is not the last counts as arrived, and waits with KNOT.WAIT. -/
theorem State.issueWord_knot_waits (hMore : (nth {} (s.core i.core.toNat).knots n).arrived.length + 1 +
      (nth {} (s.core i.core.toNat).knots n).exited < (nth {} (s.core i.core.toNat).knots n).participants)
    (hu : s.issueWord i true = u) :
    s.Moved u i (fun _ => i.pc + 32) ∧
      (nth {} (u.core i.core.toNat).knots n).arrived = threadKey i.slot.toNat l :: (nth {} (s.core i.core.toNat).knots n).arrived ∧
      (nth {} (u.core i.core.toNat).knots n).phase = (nth {} (s.core i.core.toNat).knots n).phase ∧
      (wait = true → (l, (n, i.pc)) ∈ (u.skein i.core.toNat i.slot.toNat).knotWait) ∧
      (wait = false → (u.skein i.core.toNat i.slot.toNat).knotWait = (s.skein i.core.toNat i.slot.toNat).knotWait) ∧ u.mem = s.mem := by
  rw [State.issueWord_knot_fires hIssues hT hM hH hCop hName, State.coreAfter_waits hCop hAct hName hNew hMore] at hu
  obtain ⟨paused, hKnot⟩ := State.coreCounted_knot (l := l) (wait := wait) hName
  have hCore : u.core i.core.toNat = (s.coreCounted i l n wait).modSkein i.slot.toNat Skein.prune := by
    rw [← hu, State.core_modCore]
  have hKnots : nth {} (u.core i.core.toNat).knots n = nth {} (s.coreCounted i l n wait).knots n := by rw [hCore]; rfl
  have hSkein : u.skein i.core.toNat i.slot.toNat = ((s.coreCounted i l n wait).skein i.slot.toNat).prune := by
    rw [State.skein, hCore, Core.skein_modSkein]
  have hStraight : 6 ≤ i.word.c.cop.toNat := by rw [hCop]; cases wait <;> decide
  have hMem : u.mem = s.mem := by rw [← hu, State.modCore_mem]
  rw [hKnots, hKnot, Knot.arrive_arrived hNew]
  refine ⟨State.moved_of_sameRegs hStraight ?_ ?_, rfl, rfl, ?_, ?_, hMem⟩
  · rw [hCore]
    exact Core.counted_lastSlot
  · rw [hSkein]
    exact State.coreCounted_sameRegs.trans (Skein.sameRegs_prune _)
  · rintro rfl
    rw [hSkein, State.coreCounted_skein, if_pos rfl]
    exact (mem_tinsert ..).2 (.inl rfl)
  · rintro rfl
    rw [hSkein, State.coreCounted_skein]
    rfl

/-- The last thread ends the phase, and those that waited go on. -/
theorem State.issueWord_knot_ends (hLast : (nth {} (s.core i.core.toNat).knots n).arrived.length + 1 +
      (nth {} (s.core i.core.toNat).knots n).exited = (nth {} (s.core i.core.toNat).knots n).participants)
    (hHeld : (s.core i.core.toNat).Unheld) (hu : s.issueWord i true = u) :
    s.Moved u i (fun _ => i.pc + 32) ∧ (nth {} (u.core i.core.toNat).knots n).arrived = [] ∧
      (nth {} (u.core i.core.toNat).knots n).phase = (!(nth {} (s.core i.core.toNat).knots n).phase) ∧
      (nth {} (u.core i.core.toNat).knots n).firstAt = none ∧
      (∀ m, (s.skein i.core.toNat m).bundle = (s.skein i.core.toNat i.slot.toNat).bundle →
        ∀ w ∈ (u.skein i.core.toNat m).knotWait, w.2.1 ≠ n) ∧ u.mem = s.mem := by
  have hUnheld : (s.coreCounted i l n wait).Unheld := State.coreCounted_unheld hHeld
  rw [State.issueWord_knot_fires hIssues hT hM hH hCop hName, State.coreAfter_ends hCop hAct hName hNew hLast hUnheld] at hu
  obtain ⟨hArrived, hPhase, hFirst⟩ := State.coreEnded_knot (s := s) (i := i) (l := l) (wait := wait) hName
  have hCore : u.core i.core.toNat = (s.coreEnded i l n wait).modSkein i.slot.toNat Skein.prune := by
    rw [← hu, State.core_modCore]
  have hSkein : u.skein i.core.toNat i.slot.toNat = (((s.coreCounted i l n wait).skein i.slot.toNat).released n).prune := by
    rw [State.skein, hCore, Core.skein_modSkein, State.coreEnded_skein rfl]
  have hRegs : ((s.coreCounted i l n wait).skein i.slot.toNat).SameRegs (u.skein i.core.toNat i.slot.toNat) := by
    rw [hSkein]
    exact ⟨rfl, rfl, rfl, rfl⟩
  have hStraight : 6 ≤ i.word.c.cop.toNat := by rw [hCop]; cases wait <;> decide
  have hMem : u.mem = s.mem := by rw [← hu, State.modCore_mem]
  refine ⟨State.moved_of_sameRegs hStraight ?_ (State.coreCounted_sameRegs.trans hRegs), ?_, ?_, ?_, fun m hm => ?_, hMem⟩
  · rw [hCore]
    exact Core.counted_lastSlot
  · rw [hCore]
    exact hArrived
  · rw [hCore]
    exact hPhase
  · rw [hCore]
    exact hFirst
  · have hWaits := Skein.released_waits (n := n) (hUnheld.skein m)
    by_cases hSlot : m = i.slot.toNat
    · subst hSlot
      rw [hSkein]
      exact hWaits
    · rw [State.skein, hCore, Core.skein_modSkein_other _ _ hSlot, State.coreEnded_skein hm]
      exact hWaits

end Knots

/-! ## The statement -/

section Rows
variable {i : Issue} {s : State}

/-- A row issues a word that holds its operation. -/
theorem issueWord_own {a b : BitVec 5} (h : a = b) : (.next (s.issueWord i (a == b)) : Out) = .next (s.issueWord i true) := by
  rw [h, beq_self_eq_true]

theorem exec_exit (h : i.word.c.cop = 6) : exec (.exit i) s = .next (s.issueWord i true) := issueWord_own h
theorem exec_trap (h : i.word.c.cop = 9) : exec (.trap i) s = .next (s.issueWord i true) := issueWord_own h
theorem exec_brk (h : i.word.c.cop = 10) : exec (.brk i) s = .next (s.issueWord i true) := issueWord_own h
theorem exec_knot {wait : Bool} (h : i.word.c.cop = if wait then 7 else 8) :
    exec (if wait then .knotWait i else .knotArrive i) s = .next (s.issueWord i true) := by
  cases wait <;> exact issueWord_own h

end Rows

/-- Settles O54: word by word, each clause is what the issue of that word does. -/
theorem controlWordsAct : Obligations.ControlWordsAct := by
  unfold Obligations.ControlWordsAct
  rintro i s k rfl hIssues hT hM hH
  refine ⟨fun hCop hKnots => ?exit, fun l n x wait hCop hAct hName hx hNew hHeld => ?knot, fun hCop hAct hIdle => ?trap,
    fun hCop hAllow => ⟨fun hHalt => ?halts, fun hPass => ?passed⟩, fun hCop hForbid hHalt hIdle => ?forbidden⟩
  case exit => exact ⟨_, exec_exit hCop, State.issueWord_exit hIssues hT hM hH hCop hKnots rfl rfl⟩
  case knot =>
    subst hx
    exact ⟨fun hMore => ⟨_, exec_knot hCop, State.issueWord_knot_waits hIssues hT hM hH hCop hAct hName hNew hMore rfl⟩,
      fun hLast => ⟨_, exec_knot hCop, State.issueWord_knot_ends hIssues hT hM hH hCop hAct hName hNew hLast hHeld rfl⟩⟩
  case trap =>
    exact ⟨_, exec_trap hCop, State.issueWord_halts hIssues hM hH (by decide) hIdle (State.breaks_other (by rw [hCop]; decide))
      (State.cCauses_trap hCop hAct) rfl rfl⟩
  case halts => exact ⟨_, exec_brk hCop, State.issueWord_brk_halts hIssues hCop hAllow hHalt rfl rfl⟩
  case passed => exact ⟨_, exec_brk hCop, State.issueWord_brk_passed hIssues hT hM hH hCop hPass rfl⟩
  case forbidden =>
    have hForbid' : (s.opened i).haltAllowed ((s.opened i).partOf (s.grp i).core) = false := hForbid
    have hHalt' : maskOf (s.grp i).act &&& ~~~((s.opened i).skein (s.grp i).core (s.grp i).slot).brkPass ≠ 0 := by
      rw [show (s.opened i).skein (s.grp i).core (s.grp i).slot = _ from s.skein_opened i]
      exact hHalt
    obtain ⟨hSt, hCause, hPc, -, hAt, -, hMem⟩ := State.issueWord_halts hIssues hM hH (by decide) hIdle (by rw [State.breaks, hForbid', Bool.and_false])
      (State.cCauses_brk_forbidden hCop hForbid' hHalt') rfl rfl
    exact ⟨_, exec_brk hCop, hSt, hCause, hPc, hAt, hMem⟩

end Sys2Proof.Machine
end

section
/-! SUPPORT. What a write of a stitch counter does to the waits on it (R197, R204): a wait is compared from when its SWAIT has started,
and one whose SWAIT still stands in the M-slot queue is left as it is (R113, R264). -/

namespace Sys2Proof.Machine

/-- A counter set compares the waits of every skein of its core. -/
theorem State.skein_cntSet (s : State) (c n : Nat) (v : Dword) (slot : Nat) :
    (s.cntSet c n v).skein c slot = (s.skein c slot).compareWaits n v := by
  rw [State.cntSet, State.skein_modCore]
  exact tget_map_if {} (s.core c).skeins (fun _ => true) (fun e => e.2.compareWaits n v) (fun _ _ => rfl) slot

/-- Waits whose SWAIT has not started are not compared. -/
theorem Skein.compareWaits_unstarted {k : Skein} (h : ∀ w ∈ k.waits, w.started = false) (n : Nat) (v : Dword) :
    k.compareWaits n v = k := by
  have hWaits : (k.compareWaits n v).waits = k.waits :=
    (List.map_congr_left fun w hw => by simp [h w hw]).trans (List.map_id _)
  exact congrArg (fun l => { k with waits := l }) hWaits

/-- A whole write of a counter by PF0 or firmware sets it (R204). -/
theorem execShtCntWrite_full {core : CoreId} {n : BitVec 8} {op : RegOp} {s : State} (hWide : isWide op.agent = true)
    (hFull : op.part = .full) : execShtCntWrite core n op s = .next (s.cntSet core.toNat n.toNat op.value) := by
  simp [execShtCntWrite, hWide, covers_full hFull]

end Sys2Proof.Machine
end

section
/-! SUPPORT. Shuttles and counters (R189 to R204): where a write of a counter finds a wait that is not compared yet. -/

namespace Sys2Proof.Machine

/-- SWAIT on counter 9, its target in u5, for the group of skein 6 on core 70 at 64. -/
def swaitWord : Issue := { core := 70, slot := 6, pc := 64, word := { m := { mop := 0x11, ma := 255, mu := 5, moff := 9 } } }

/-- A skein of one thread that has that word next, with target 4096, while its fence holds its later M-slot operations (R264). -/
def fencedSkein : Skein :=
  { st := .running, bundle := 5, units := 8, lanes := 1, pc := [(0, 64)], u := [(5, 4096)], decoded := [(64, swaitWord.word)]
    fence := some .module }

/-- The module on whose core 70 that skein runs. -/
def fencedState : State := { State.reset with cores := [(70, { skeins := [(6, fencedSkein)], bundles := [(5, { st := .running })] })] }

/-- The SWAIT issues, and its thread waits; behind the fence it does not start. -/
theorem exec_swaitWord : ∃ s, exec (.swait swaitWord) fencedState = .next s ∧ (s.skein 70 6).waits =
    [{ lanes := 1, counter := 9, target := 4096, diff := false, satisfied := false, started := false }] :=
  ⟨fencedState.issueWord swaitWord true, rfl, by decide +kernel⟩

/-- Refutes O44, at its clause on a write of a counter: that clause has every wait on the counter compared with the value written. A wait
whose SWAIT a fence still holds in the M-slot queue is not, although 4096 is its target: it stays as it was. -/
theorem not_shuttlesCopyAndCount : ¬ Obligations.ShuttlesCopyAndCount := by
  unfold Obligations.ShuttlesCopyAndCount
  rintro ⟨-, hWrite, -, -⟩
  obtain ⟨s, -, hQueued⟩ := exec_swaitWord
  obtain ⟨u, hu, -, -, -, hWaits, -⟩ := hWrite 70 9 { agent := .firmware, part := .full, value := 4096 } s rfl rfl
  obtain rfl : s.cntSet 70 9 4096 = u := Host.Outcome.next.inj ((execShtCntWrite_full rfl rfl).symm.trans hu)
  have hKept : (s.cntSet 70 9 4096).skein 70 6 = s.skein 70 6 := by
    rw [State.skein_cntSet, Skein.compareWaits_unstarted (by simp [hQueued])]
  have hClaim : (s.skein 70 6).waits = (s.skein 70 6).waits.map fun w =>
      if w.counter == 9 && swaitMet w.diff 4096 w.target then { w with satisfied := true } else w :=
    (congrArg Skein.waits hKept).symm.trans (hWaits 6)
  rw [hQueued] at hClaim
  exact absurd hClaim (by decide)

end Sys2Proof.Machine
end

section
/-! SUPPORT. An absorbed record, and who may write a partition's registers (R244, R324, R531). -/

namespace Sys2Proof.Machine

/-- An absorbed event is recorded, or suppressed, and does nothing else. -/
theorem State.record_absorbs (s : State) (acct : Acct) (unit source code part : Nat) (detail : List Byte) :
    s.Absorbs (s.record .absorbed acct unit source code part detail) := by
  constructor
  · obtain ⟨_, _, _, _, _, _, h⟩ := s.record_changes .absorbed acct unit source code part detail
    unfold State.RecordOnly
    rw [h]
  · rcases s.record_err .absorbed acct unit source code part detail with ⟨hWritten, k, hk⟩ | ⟨-, hWritten, hSuppressed⟩
    · exact .inl ⟨hWritten, _, hk, rfl, rfl⟩
    · exact .inr ⟨hWritten, hSuppressed⟩

theorem State.wideWrite_wide {agent : Agent} (h : isWide agent = true) (s : State) (addr : Nat) (f : State → State) :
    s.wideWrite agent addr f = f s := by
  cases agent with
  | vf n => cases h
  | pf0 | firmware => rfl

@[simp] theorem State.vfDrop_ob (s : State) (n a : Nat) : (s.vfDrop n a).ob = s.ob := by
  unfold State.vfDrop
  split <;> simp
@[simp] theorem State.vfDrop_cores (s : State) (n a : Nat) : (s.vfDrop n a).cores = s.cores := by
  unfold State.vfDrop
  split <;> simp
@[simp] theorem State.vfDrop_mem (s : State) (n a : Nat) : (s.vfDrop n a).mem = s.mem := by
  unfold State.vfDrop
  split <;> simp

/-- A partition's Order Book state is the Order Book's alone. -/
theorem State.obPart_of_ob {s t : State} (h : t.ob = s.ob) (p : Nat) : t.obPart p = s.obPart p := by
  unfold State.obPart
  rw [h]

theorem State.obPart_modObPart {s : State} {p : Nat} (h : p < s.ob.ptn.length) (f : PtnOb → PtnOb) :
    (s.modObPart p f).obPart p = f (s.obPart p) := nth_upd_same _ _ _ _ h

@[simp] theorem State.modObPart_entries (s : State) (p : Nat) (f : PtnOb → PtnOb) : (s.modObPart p f).ob.entries = s.ob.entries := rfl

theorem State.grouped_of_wlk {s t : State} (h : t.wlk = s.wlk) : t.grouped = s.grouped := by
  unfold State.grouped
  rw [h]

end Sys2Proof.Machine
end

section
/-! SUPPORT. The cores of a partition reset one after the other: each is left without a skein, and the Order Book as it was (R67, R328). -/

namespace Sys2Proof.Machine

@[simp] theorem State.imageRegs_ob (s : State) (c : Nat) : (s.imageRegs c).ob = s.ob := by
  unfold State.imageRegs
  split <;> rfl
@[simp] theorem State.imageRegs_wlk (s : State) (c : Nat) : (s.imageRegs c).wlk = s.wlk := by
  unfold State.imageRegs
  split <;> rfl
@[simp] theorem State.resetEngine_wlk (s : State) (c e : Nat) : (s.resetEngine c e).wlk = s.wlk := by simp [State.resetEngine]

@[simp] theorem State.coreReset_ob (s : State) (c : Nat) : (s.coreReset c).ob = s.ob := by
  unfold State.coreReset
  dsimp only
  split <;> simp [State.setIsland]
@[simp] theorem State.coreReset_wlk (s : State) (c : Nat) : (s.coreReset c).wlk = s.wlk := by
  unfold State.coreReset
  dsimp only
  split <;> simp [State.setIsland]

/-- A core that holds no skein holds none after a reset of any core. -/
theorem State.coreReset_skeins_nil {s : State} {c : Nat} (h : (s.core c).skeins = []) (d : Nat) : ((s.coreReset d).core c).skeins = [] := by
  obtain ⟨u, rfl, hSkeins, -, -, -, -, -, -, -, -, -, -, hOther, -⟩ := s.coreReset_cleared d
  by_cases hc : c = d
  · rw [hc]
    exact hSkeins
  · rw [hOther c hc, h]

/-- Every core of a mask reset, in order. -/
def State.resetCores (s : State) (quads : BitVec 16) : State := s.each (coresOf quads) State.coreReset

@[simp] theorem State.resetCores_ob (s : State) (quads : BitVec 16) : (s.resetCores quads).ob = s.ob :=
  State.each_keeps State.ob _ _ State.coreReset_ob s
@[simp] theorem State.resetCores_wlk (s : State) (quads : BitVec 16) : (s.resetCores quads).wlk = s.wlk :=
  State.each_keeps State.wlk _ _ State.coreReset_wlk s

theorem State.resetCores_skeins (s : State) {quads : BitVec 16} {c : Nat} (hc : c < 1024) (hQuad : quads.getLsbD (quadOf c) = true) :
    ((s.resetCores quads).core c).skeins = [] := by
  have hMem : c ∈ coresOf quads := List.mem_filter.2 ⟨List.mem_range.2 hc, hQuad⟩
  refine State.each_reaches (P := fun _ => True) (Q := fun x => (x.core c).skeins = []) (fun _ _ _ => .inl trivial)
    (fun _ d h => State.coreReset_skeins_nil h d) (fun x _ => ?_) _ hMem s trivial
  obtain ⟨u, rfl, hSkeins, -⟩ := x.coreReset_cleared c
  exact hSkeins

end Sys2Proof.Machine
end

section
/-! SUPPORT. How a step ends and aborts in a partition outside any group while the Order Book holds no entry (R321, R322). -/

namespace Sys2Proof.Machine

/-- A partition's Order Book state as an abort leaves it (R321). -/
def PtnOb.aborted (o : PtnOb) : PtnOb :=
  { o with aborts := satAdd o.aborts 1, running := none, phase := .idle, waitBundles := true, listed := [], backup := [] }

/-- A partition's Order Book state once its step is over. -/
def PtnOb.ended (o : PtnOb) : PtnOb :=
  { o with phase := .idle, rows := 0, running := none, mainNext := [], backup := [], draftSeg := none, listed := [] }

/-- The sequences that an abort concerns, no store being lost. -/
def State.abortSeqs (s : State) (p : Nat) : List Nat :=
  match (s.obPart p).running with
  | some l => (groupRows l.rows).map (·.1) |>.filter (s.obPart p).listed.contains
  | none => (s.obPart p).listed

theorem State.abortSeqs_unlisted {s : State} {p : Nat} (h : (s.obPart p).listed = []) : s.abortSeqs p = [] := by
  unfold State.abortSeqs
  split <;> simp [h]

/-- The record and the event of an abort; the record names the lowest sequence concerned, 16383 where there is none (log entry 60). -/
def State.abortNoted (s : State) (p : Nat) (seqs : List Nat) (step : Word) : State :=
  (s.record .contained .module (unitId 0x10 p) 0x0D 1 p (toBytes 4 (seqs.foldl min 16383) ++ toBytes 4 step.toNat)).partEvent p .abort

section NoEntries
variable {s : State} {p : Nat}

theorem State.seqsOf_nil (h : s.ob.entries = []) : s.seqsOf p = [] := by simp [State.seqsOf, h]

theorem State.entry_not_live (h : s.ob.entries = []) (q : Nat) : (s.entry q).live = false := by
  have : s.entry q = {} := by rw [State.entry, h]; rfl
  rw [this]
  rfl

theorem State.pagesTrigger_nil (h : s.ob.entries = []) : s.pagesTrigger p = s := by
  have hHeld : s.heldSeqs p = [] := by
    rw [State.heldSeqs, State.seqsOf_nil h]
    unfold PtnOb.soloOnly
    split <;> rfl
  rw [State.pagesTrigger, hHeld]
  rfl

theorem State.barrierTry_ungrouped (h : s.grouped = false) : s.barrierTry p = s := by simp [State.barrierTry, State.inGroup, h]

theorem State.stepEnd_nil (hEntries : s.ob.entries = []) (hGroup : s.grouped = false) : s.stepEnd p = s.modObPart p PtnOb.ended := by
  have hNone : (s.modObPart p PtnOb.ended).ob.entries = [] := hEntries
  have hCancels : (s.modObPart p PtnOb.ended).doCancels p = s.modObPart p PtnOb.ended := by
    rw [State.doCancels, State.seqsOf_nil hNone]
    rfl
  calc s.stepEnd p
    _ = ((((s.modObPart p PtnOb.ended).doCancels p).each
          ((((s.modObPart p PtnOb.ended).doCancels p).seqsOf p).filter fun e => e.2.preemptPending) fun x e =>
          x.preemptNow e.1 .host).pagesTrigger p).barrierTry p := rfl
    _ = ((s.modObPart p PtnOb.ended).pagesTrigger p).barrierTry p := by
      rw [hCancels, State.seqsOf_nil hNone]
      rfl
    _ = s.modObPart p PtnOb.ended := by
      rw [State.pagesTrigger_nil hNone]
      exact State.barrierTry_ungrouped hGroup

/-- An abort of a step with a list running, where no sequence takes a strike or ends and no tree is put back. -/
theorem State.stepAbort_nil (hPhase : (s.obPart p).phase ≠ .idle) (hEntries : s.ob.entries = []) (hBackup : (s.obPart p).backup = [])
    (hGroup : s.grouped = false) : s.stepAbort p false =
      ((s.modObPart p PtnOb.aborted).abortNoted p (s.abortSeqs p) (s.obPart p).step).modObPart p PtnOb.ended := by
  have hNone : ((s.modObPart p PtnOb.aborted).abortNoted p (s.abortSeqs p) (s.obPart p).step).ob.entries = [] := by
    simpa [State.abortNoted] using hEntries
  have hAlone : ((s.modObPart p PtnOb.aborted).abortNoted p (s.abortSeqs p) (s.obPart p).step).grouped = false :=
    (State.grouped_of_wlk (by simp [State.abortNoted])).trans hGroup
  rw [← State.stepEnd_nil hNone hAlone]
  unfold State.stepAbort
  rw [if_neg (by simpa using hPhase)]
  simp only [hBackup]
  show ((State.abortNoted (s.modObPart p PtnOb.aborted) p (s.abortSeqs p) (s.obPart p).step).each (s.abortSeqs p) _).stepEnd p = _
  congr 1
  exact State.each_id _ _ _ fun q _ => if_pos (by simp [State.entry_not_live hNone])

/-- What an abort leaves then: no list running, one more abort counted, the record that names the step; cores and memory as they were. -/
theorem State.stepAbort_leaves (hp : p < s.ob.ptn.length) (hPhase : (s.obPart p).phase ≠ .idle) (hEntries : s.ob.entries = [])
    (hBackup : (s.obPart p).backup = []) (hGroup : s.grouped = false) :
    (s.stepAbort p false).obPart p = (s.obPart p).aborted.ended ∧ (s.stepAbort p false).cores = s.cores ∧
      (s.stepAbort p false).mem = s.mem ∧
      ∃ k, (k, ({ time := s.time.now, unit := unitId 0x10 p, cls := 2, source := 0x0D, code := 1, part := p
                  detail := toBytes 4 ((s.abortSeqs p).foldl min 16383) ++ toBytes 4 (s.obPart p).step.toNat } : ErrRec)) ∈
        (s.stepAbort p false).err.log := by
  rw [State.stepAbort_nil hPhase hEntries hBackup hGroup]
  have hOb : ((s.modObPart p PtnOb.aborted).abortNoted p (s.abortSeqs p) (s.obPart p).step).ob = (s.modObPart p PtnOb.aborted).ob := by
    simp [State.abortNoted]
  refine ⟨?_, by simp [State.abortNoted], by simp [State.abortNoted], ?_⟩
  · rw [State.obPart_modObPart (by rw [hOb]; exact (upd_length ..).symm ▸ hp), State.obPart_of_ob hOb, State.obPart_modObPart hp]
  · simpa [State.abortNoted] using State.record_contained (s.modObPart p PtnOb.aborted) (unitId 0x10 p) 0x0D 1 p _

end NoEntries

end Sys2Proof.Machine
end

section
/-! CLAIM. Steps end, abort or exceed their limit: the statement O22. -/

namespace Sys2Proof.Machine

section Done
variable {p : Nat} {op : RegOp} {t : Dword} {l : CutList} {s : State}

/-- What a write of OB_STEP_DONE has to name for the engine to take it: the running list, in a whole write, before PHASE 3 (R331). -/
def PtnOb.Named (o : PtnOb) (op : RegOp) (l : CutList) : Prop :=
  o.phase ≠ .updating ∧ op.part = .full ∧ op.value.extractLsb' 32 32 = o.step ∧ op.value.toNat % 256 = l.lkind

theorem State.strayDone_absorbs (s : State) (p : Nat) (op : RegOp) : s.Absorbs (s.strayDone p op) := State.record_absorbs ..

theorem execObStepDone_none (hWide : isWide op.agent = true) (hRun : (s.obPart p).running = none) :
    execObStepDone p op t s = .next ((s.at_ t).strayDone p op) := by
  simp [execObStepDone, State.wideWrite_wide hWide, hRun]

theorem execObStepDone_other (hWide : isWide op.agent = true) (hRun : (s.obPart p).running = some l)
    (hName : ¬ (s.obPart p).Named op l) : execObStepDone p op t s = .next ((s.at_ t).strayDone p op) := by
  simp only [execObStepDone, State.wideWrite_wide hWide, State.obPart_at, hRun]
  rw [if_neg (by simpa [PtnOb.Named, bits, and_assoc] using hName)]

theorem execObStepDone_named (hWide : isWide op.agent = true) (hRun : (s.obPart p).running = some l)
    (hName : (s.obPart p).Named op l) : execObStepDone p op t s =
      .next (if op.value.getLsbD 8 then (s.at_ t).stepAbort p false
        else (s.at_ t).modObPart p fun o => { o with phase := .updating }) := by
  simp only [execObStepDone, State.wideWrite_wide hWide, State.obPart_at, hRun]
  rw [if_pos (by simpa [PtnOb.Named, bits, and_assoc] using hName)]
  rfl

theorem execObStepDone_vf {n : Nat} (h : op.agent = .vf n) :
    execObStepDone p op t s = .next ((s.at_ t).vfDrop n (ptnRegAddr p 0x400018)) := by
  simp only [execObStepDone, h, State.wideWrite]

theorem execStepLimitExpiry_expired (hRun : (s.obPart p).running = some l) (hPhase : (s.obPart p).phase ≠ .updating)
    (hLimit : l.publishAt.toNat + (s.obPart p).listLimit * 1000000 ≤ (s.at_ t).now) :
    execStepLimitExpiry p t s = .next (((s.at_ t).resetCores (s.part p).quads).stepAbort p false) := by
  have hPart : (s.at_ t).part p = s.part p := by simp [State.part]
  simp only [execStepLimitExpiry, State.obPart_at, hRun, hPart]
  rw [if_pos (by simpa [hPhase] using hLimit)]
  rfl

/-- A list that is published and not yet reported done stands in a PHASE that is neither the first nor the last. -/
theorem StepPhase.neither_end {x : StepPhase} (h : x = .draft ∨ x = .main) : x ≠ .idle ∧ x ≠ .updating := by
  rcases h with rfl | rfl <;> decide

end Done

/-- Settles O22: a write of OB_STEP_DONE is one of its four cases, and both ways to abort go through the same `stepAbort`. -/
theorem stepsEnd : Obligations.StepsEnd := by
  unfold Obligations.StepsEnd
  refine ⟨?stray, ?mismatch, ?named, ?vf, ?limit, ?limitEnds⟩
  case stray =>
    intro p op t s hWide hRun
    exact ⟨_, execObStepDone_none hWide hRun, State.strayDone_absorbs ..⟩
  case mismatch =>
    intro p op t l s hWide hRun hOther
    refine ⟨_, execObStepDone_other hWide hRun fun ⟨hPhase, hFull, hStep, hKind⟩ => ?_, State.strayDone_absorbs ..⟩
    rcases hOther with h | h | h | h
    · exact hPhase h
    · exact h hFull
    · exact h hStep
    · exact h hKind
  case named =>
    intro p op t l s hp hWide hRun hPhase hFull hStep hKind
    obtain ⟨hBusy, hOpen⟩ := StepPhase.neither_end hPhase
    have hDone := execObStepDone_named (t := t) hWide hRun ⟨hOpen, hFull, hStep, hKind⟩
    have hAbort (hErr : op.value.getLsbD 8 = true) : exec (.obStepDone p op t) s = .next ((s.at_ t).stepAbort p false) :=
      hDone.trans (by rw [if_pos hErr])
    refine ⟨hAbort, fun hErr hEntries hListed hBackup hGroup => ?_, fun hErr => hDone.trans (by rw [hErr]; rfl)⟩
    have hGroup' : (s.at_ t).grouped = false := (State.grouped_of_wlk (s.at_wlk t)).trans hGroup
    obtain ⟨hOb, hCores, hMem, hRec⟩ := State.stepAbort_leaves (s := s.at_ t) (p := p) (by simpa using hp) (by simpa using hBusy)
      (by simpa using hEntries) (by simpa using hBackup) hGroup'
    rw [State.abortSeqs_unlisted (by simpa using hListed), State.obPart_at] at hRec
    rw [State.obPart_at] at hOb
    exact ⟨_, hAbort hErr, congrArg PtnOb.running hOb, congrArg PtnOb.phase hOb, congrArg PtnOb.waitBundles hOb,
      congrArg PtnOb.aborts hOb, hCores.trans (s.at_cores t), hMem.trans (s.at_mem t), hRec⟩
  case vf =>
    intro p n op t s hVf
    exact ⟨_, execObStepDone_vf hVf, State.obPart_of_ob (by simp) p, by simp, by simp, by simp⟩
  case limit =>
    intro p t l s hRun hPhase hLimit
    exact execStepLimitExpiry_expired hRun (StepPhase.neither_end hPhase).2 hLimit
  case limitEnds =>
    intro p t l s hp hRun hPhase hLimit hEntries hBackup hGroup
    obtain ⟨hBusy, hOpen⟩ := StepPhase.neither_end hPhase
    have hReset : ((s.at_ t).resetCores (s.part p).quads).ob = s.ob := by simp
    have hGroup' : ((s.at_ t).resetCores (s.part p).quads).grouped = false :=
      (State.grouped_of_wlk ((State.resetCores_wlk _ _).trans (s.at_wlk t))).trans hGroup
    have hBook := State.obPart_of_ob hReset p
    obtain ⟨hOb, hCores, -⟩ := State.stepAbort_leaves (s := (s.at_ t).resetCores (s.part p).quads) (p := p)
      (by rw [hReset]; exact hp) (by rw [hBook]; exact hBusy) (by rw [hReset]; exact hEntries) (by rw [hBook]; exact hBackup) hGroup'
    rw [hBook] at hOb
    refine ⟨_, execStepLimitExpiry_expired hRun hOpen hLimit, congrArg PtnOb.running hOb, congrArg PtnOb.phase hOb,
      congrArg PtnOb.aborts hOb, fun c hc hQuad => ?_⟩
    rw [State.core_of_cores hCores]
    exact State.resetCores_skeins _ hc hQuad

end Sys2Proof.Machine
end

section
/-! SUPPORT. What the packets and the deaths of modules that a command brings about neither read nor write: what a reset of PF0 ends or
keeps (R382, R525), whether PF0 is in D3hot (R383), and the reductions, where none runs. Each operation commutes with putting other such
values in their place (`_withAside`), so it keeps them (`State.aside_kept`). Here the values, and what is read without them. -/

namespace Sys2Proof.Machine

/-- Values that stand aside while a command ends: those of a state, and whether PF0 enters D3hot. -/
structure Aside where
  inbox : List InEntry
  cmds : List LiveCmd
  enters : Bool
  load : Option Load
  image : Option ModelImage
  phase : ImgPhase
  otp : Otp
  seams : List PtnSeam
  cal : CalSt
  jobs : List MeasureJob
  latches : List Latch
  tangle : Option TangleJob
  fit : Option FitJob

/-- The values of a state, PF0 staying as it is. -/
def State.aside (s : State) : Aside :=
  { inbox := s.hif.inbox, cmds := s.hif.cmds, enters := false
    load := s.ob.load, image := s.ob.image, phase := s.ob.phase
    otp := s.thm.otp, seams := s.seam.ptn, cal := s.cal
    jobs := s.msr.jobs, latches := s.msr.latches, tangle := s.msr.tangle, fit := s.err.fit }

/-- A state with other values in their place. -/
def State.withAside (s : State) (k : Aside) : State :=
  { s with
    ob := { s.ob with load := k.load, image := k.image, phase := k.phase }
    hif := { s.hif with
      inbox := k.inbox, cmds := k.cmds, fns := upd s.hif.fns 0 fun f => { f with d3hot := f.d3hot || k.enters } }
    thm := { s.thm with otp := k.otp }
    seam := { s.seam with ptn := k.seams }
    cal := k.cal
    msr := { s.msr with jobs := k.jobs, latches := k.latches, tangle := k.tangle }
    err := { s.err with fit := k.fit } }

theorem State.withAside_self (s : State) : s.withAside s.aside = s := by
  have h (l : List FnSt) : (upd l 0 fun f => { f with d3hot := f.d3hot || false }) = l := by cases l <;> simp [upd]
  exact congrArg (fun l => { s with hif := { s.hif with fns := l } }) (h s.hif.fns)

/-- What commutes with putting a state's own values in their place keeps them. -/
theorem State.aside_kept (s : State) {F : State → State} (h : F (s.withAside s.aside) = (F s).withAside s.aside) :
    (F s).aside = s.aside := by
  rw [State.withAside_self] at h
  rw [h]
  rfl

section Reads
variable (s : State) (k : Aside)

@[simp] theorem State.withAside_time : (s.withAside k).time = s.time := (rfl)
@[simp] theorem State.withAside_cores : (s.withAside k).cores = s.cores := (rfl)
@[simp] theorem State.withAside_mem : (s.withAside k).mem = s.mem := (rfl)
@[simp] theorem State.withAside_wlk : (s.withAside k).wlk = s.wlk := (rfl)
@[simp] theorem State.withAside_hif_msix : (s.withAside k).hif.msix = s.hif.msix := (rfl)
@[simp] theorem State.withAside_mgmt : (s.withAside k).mgmt = s.mgmt := (rfl)
@[simp] theorem State.withAside_err_written : (s.withAside k).err.written = s.err.written := (rfl)
@[simp] theorem State.withAside_err_moduleFault : (s.withAside k).err.moduleFault = s.err.moduleFault := (rfl)
@[simp] theorem State.withAside_err_second : (s.withAside k).err.second = s.err.second := (rfl)
@[simp] theorem State.withAside_err_counts : (s.withAside k).err.counts = s.err.counts := (rfl)
@[simp] theorem State.withAside_island (i : Nat) : (s.withAside k).island i = s.island i := (rfl)
@[simp] theorem State.withAside_mayGate (i : Nat) : (s.withAside k).mayGate i = s.mayGate i := (rfl)
@[simp] theorem State.withAside_drained (i : Nat) : (s.withAside k).drained i = s.drained i := (rfl)
@[simp] theorem State.withAside_core (c : Nat) : (s.withAside k).core c = s.core c := (rfl)
@[simp] theorem State.withAside_skein (c n : Nat) : (s.withAside k).skein c n = s.skein c n := (rfl)
@[simp] theorem State.withAside_part (p : Nat) : (s.withAside k).part p = s.part p := (rfl)
@[simp] theorem State.withAside_obPart (p : Nat) : (s.withAside k).obPart p = s.obPart p := (rfl)
@[simp] theorem State.withAside_entry (q : Nat) : (s.withAside k).entry q = s.entry q := (rfl)
@[simp] theorem State.withAside_port (p : Nat) : (s.withAside k).port p = s.port p := (rfl)
@[simp] theorem State.withAside_seqsOf (p : Nat) : (s.withAside k).seqsOf p = s.seqsOf p := (rfl)
@[simp] theorem State.withAside_now : (s.withAside k).now = s.now := (rfl)

@[simp] theorem State.withAside_route (p : Packet) (a : Option Nat) : (s.withAside k).route p a = s.route p a := (rfl)
@[simp] theorem State.withAside_channelOut (p : Packet) (a : Option Nat) : (s.withAside k).channelOut p a = s.channelOut p a := (rfl)
@[simp] theorem State.withAside_newPacket (kind dst part : Nat) : (s.withAside k).newPacket kind dst part = s.newPacket kind dst part := (rfl)
@[simp] theorem State.withAside_seamEntry (p : Packet) : (s.withAside k).seamEntry p = s.seamEntry p := (rfl)
@[simp] theorem State.withAside_inGroup (p : Nat) : (s.withAside k).inGroup p = s.inGroup p := (rfl)
@[simp] theorem State.withAside_grouped : (s.withAside k).grouped = s.grouped := (rfl)
@[simp] theorem State.withAside_isAnchor : (s.withAside k).isAnchor = s.isAnchor := (rfl)
@[simp] theorem State.withAside_myId : (s.withAside k).myId = s.myId := (rfl)
@[simp] theorem State.withAside_liveMember (id : Nat) : (s.withAside k).liveMember id = s.liveMember id := (rfl)
@[simp] theorem State.withAside_barrierMsg (dst p : Nat) (step : Word) (go : Bool) :
    (s.withAside k).barrierMsg dst p step go = s.barrierMsg dst p step go := (rfl)
@[simp] theorem State.withAside_groupParts : (s.withAside k).groupParts = s.groupParts := (rfl)
@[simp] theorem State.withAside_zeroesPages (e : Entry) : (s.withAside k).zeroesPages e = s.zeroesPages e := (rfl)
@[simp] theorem State.withAside_inStep (q : Nat) : (s.withAside k).inStep q = s.inStep q := (rfl)
@[simp] theorem State.withAside_members : (s.withAside k).members = s.members := (rfl)
@[simp] theorem State.withAside_firstMember (but : Nat) : (s.withAside k).firstMember but = s.firstMember but := (rfl)
@[simp] theorem State.withAside_within20ms (t : Option Dword) : (s.withAside k).within20ms t = s.within20ms t := (rfl)
@[simp] theorem State.withAside_partByte (c : Nat) : (s.withAside k).partByte c = s.partByte c := (rfl)
@[simp] theorem State.withAside_lineAt (line : Nat) : (s.withAside k).lineAt line = s.lineAt line := (rfl)
@[simp] theorem State.withAside_sliceOf (a : Nat) : (s.withAside k).sliceOf a = s.sliceOf a := (rfl)
@[simp] theorem State.withAside_sliceCache (n : Nat) : (s.withAside k).sliceCache n = s.sliceCache n := (rfl)
@[simp] theorem State.withAside_damagedAt (a n : Nat) : (s.withAside k).damagedAt a n = s.damagedAt a n := (rfl)
@[simp] theorem State.withAside_usableWay (n : Nat) : (s.withAside k).usableWay n = s.usableWay n := (rfl)
@[simp] theorem State.withAside_bytesAt (a n : Nat) : (s.withAside k).bytesAt a n = s.bytesAt a n := (rfl)
@[simp] theorem State.withAside_keyBytes (key a n : Nat) : (s.withAside k).keyBytes key a n = s.keyBytes key a n := (rfl)
@[simp] theorem State.withAside_queuedCtr : (s.withAside k).ob.queuedCtr = s.ob.queuedCtr := (rfl)

@[simp] theorem State.withAside_blocked (id d : Nat) (m : Bool) : (s.withAside k).blocked id d m = s.blocked id d m := (rfl)

@[simp] theorem State.withAside_lastHop (d target n id : Nat) (m : Bool) :
    (s.withAside k).lastHop d target n id m = s.lastHop d target n id m := by
  induction n generalizing id m with
  | zero => rfl
  | succ n ih => simp [State.lastHop, ih]

@[simp] theorem State.withAside_hopTo (id : Nat) : (s.withAside k).hopTo id = s.hopTo id := by simp [State.hopTo]
@[simp] theorem State.withAside_parentOf (id : Nat) : (s.withAside k).parentOf id = s.parentOf id := by simp [State.parentOf]
@[simp] theorem State.withAside_parentPort : (s.withAside k).parentPort = s.parentPort := by simp [State.parentPort]
@[simp] theorem State.withAside_depthOf (id : Nat) : (s.withAside k).depthOf id = s.depthOf id := by simp [State.depthOf]
@[simp] theorem State.withAside_children : (s.withAside k).children = s.children := by simp [State.children]
@[simp] theorem State.withAside_heldSeqs (p : Nat) : (s.withAside k).heldSeqs p = s.heldSeqs p := by simp [State.heldSeqs]
@[simp] theorem State.withAside_ownStack (g n : Nat) : (s.withAside k).ownStack g n = s.ownStack g n := (rfl)
@[simp] theorem State.withAside_pte (table i : Nat) : (s.withAside k).pte table i = s.pte table i := (rfl)
@[simp] theorem State.withAside_ptrOk (e : Nat × Nat) (n : Nat) : (s.withAside k).ptrOk e n = s.ptrOk e n := (rfl)
@[simp] theorem State.withAside_leafForm (e : Nat × Nat) (n : Nat) : (s.withAside k).leafForm e n = s.leafForm e n := (rfl)
@[simp] theorem State.withAside_clientKey (c : Nat) : (s.withAside k).clientKey c = s.clientKey c := (rfl)
@[simp] theorem State.withAside_leafOk (e : Nat × Nat) (n : Nat) : (s.withAside k).leafOk e n = s.leafOk e n := by simp [State.leafOk]
@[simp] theorem State.withAside_walk (p va : Nat) : (s.withAside k).walk p va = s.walk p va := by simp [State.walk]
@[simp] theorem State.withAside_lpdHere (a : Nat) : (s.withAside k).lpdHere a = s.lpdHere a := (rfl)
@[simp] theorem State.withAside_freeWindow (p c n b : Nat) : (s.withAside k).freeWindow p c n b = s.freeWindow p c n b := by
  unfold State.freeWindow
  simp only [State.withAside_clientKey, State.withAside_walk]
  cases s.clientKey c with
  | none => rfl
  | some key =>
    refine congrArg (List.filterMap · (List.range n)) (funext fun x => ?_)
    cases s.walk p (b + x * kvPage) with
    | none => rfl
    | some l =>
      dsimp only
      rw [State.withAside_myId, State.withAside_lpdHere, State.withAside_obPart]
@[simp] theorem State.withAside_windowLeft (p c : Nat) : (s.withAside k).windowLeft p c = s.windowLeft p c := by simp [State.windowLeft]
@[simp] theorem State.withAside_pagesComing (p : Nat) : (s.withAside k).pagesComing p = s.pagesComing p := by simp [State.pagesComing]

end Reads

end Sys2Proof.Machine
end

section
/-! SUPPORT. How the elementary operations, records, messages and packets commute with the values put aside (R379, R430,
R529 to R534). -/

namespace Sys2Proof.Machine

section Ops
variable (s : State) (k : Aside)

@[simp] theorem State.ite_withAside (c : Prop) [Decidable c] (a b : State) :
    (if c then a.withAside k else b.withAside k) = (if c then a else b).withAside k := (apply_ite (State.withAside · k) c a b).symm

@[simp] theorem State.each_withAside {α : Type} {f : State → α → State} (h : ∀ s a, f (s.withAside k) a = (f s a).withAside k) (l : List α) :
    (s.withAside k).each l f = (s.each l f).withAside k := by
  unfold State.each
  induction l generalizing s with
  | nil => rfl
  | cons a r ih => rw [List.foldl_cons, h, ih, List.foldl_cons]

@[simp] theorem State.when_withAside {f : State → State} (h : ∀ s, f (s.withAside k) = (f s).withAside k) (b : Bool) :
    (s.withAside k).when b f = (s.when b f).withAside k := by cases b <;> simp [h]

@[simp] theorem State.modCore_withAside (c : Nat) (f : Core → Core) : (s.withAside k).modCore c f = (s.modCore c f).withAside k := (rfl)
@[simp] theorem State.modSkein_withAside (c n : Nat) (f : Skein → Skein) : (s.withAside k).modSkein c n f = (s.modSkein c n f).withAside k := (rfl)
@[simp] theorem State.modMem_withAside (f : MemSt → MemSt) : (s.withAside k).modMem f = (s.modMem f).withAside k := (rfl)
@[simp] theorem State.modPart_withAside (p : Nat) (f : Ptn → Ptn) : (s.withAside k).modPart p f = (s.modPart p f).withAside k := (rfl)
@[simp] theorem State.modWlk_withAside (f : WlkSt → WlkSt) : (s.withAside k).modWlk f = (s.modWlk f).withAside k := (rfl)
@[simp] theorem State.modPort_withAside (p : Nat) (f : Port → Port) : (s.withAside k).modPort p f = (s.modPort p f).withAside k := (rfl)
@[simp] theorem State.modObPart_withAside (p : Nat) (f : PtnOb → PtnOb) : (s.withAside k).modObPart p f = (s.modObPart p f).withAside k := (rfl)
@[simp] theorem State.modEntry_withAside (q : Nat) (f : Entry → Entry) : (s.withAside k).modEntry q f = (s.modEntry q f).withAside k := (rfl)
@[simp] theorem State.modAcct_withAside (c : Nat) (f : Account → Account) : (s.withAside k).modAcct c f = (s.modAcct c f).withAside k := (rfl)
@[simp] theorem State.aonAdd_withAside (r i n : Nat) : (s.withAside k).aonAdd r i n = (s.aonAdd r i n).withAside k := (rfl)
@[simp] theorem State.zeroRange_withAside (a n : Nat) : (s.withAside k).zeroRange a n = (s.zeroRange a n).withAside k := (rfl)
@[simp] theorem State.hostWrite_withAside (fn : Nat) (a : Dword) (bs : List Byte) :
    (s.withAside k).hostWrite fn a bs = (s.hostWrite fn a bs).withAside k := (rfl)

theorem upd_upd_comm {α : Type} (l : List α) (i j : Nat) (f g : α → α) (h : ∀ x, f (g x) = g (f x)) :
    upd (upd l i f) j g = upd (upd l j g) i f := by
  induction l generalizing i j with
  | nil => rfl
  | cons a r ih => cases i <;> cases j <;> simp [upd, h, ih]

@[simp] theorem State.modErr_withAside (f : ErrSt → ErrSt) (hf : ∀ e, f { e with fit := k.fit } = { f e with fit := k.fit }) :
    (s.withAside k).modErr f = (s.modErr f).withAside k :=
  congrArg (fun e => { s.withAside k with err := e }) (hf s.err)

@[simp] theorem State.msix_withAside (fn v : Nat) : (s.withAside k).msix fn v = (s.msix fn v).withAside k := by
  simp only [State.msix, State.withAside_hif_msix, State.withAside_time, ← State.ite_withAside]
  rfl

@[simp] theorem State.platformEvent_withAside (n : Nat) (r : Int) : (s.withAside k).platformEvent n r = (s.platformEvent n r).withAside k := by
  simp only [State.platformEvent, State.withAside_mgmt, ← State.ite_withAside]
  rfl

theorem State.withAside_fn (n : Nat) : ∃ b, (s.withAside k).fn n = { s.fn n with d3hot := b } := by
  by_cases h : n = 0
  · subst h
    unfold State.fn
    cases hl : s.hif.fns with
    | nil => exact ⟨_, by simp [State.withAside, hl, nth, upd]; rfl⟩
    | cons a r => exact ⟨a.d3hot || k.enters, by simp [State.withAside, hl, nth, upd]⟩
  · exact ⟨(s.fn n).d3hot, nth_upd_other _ _ _ h⟩

@[simp] theorem State.withAside_fn_enabled (n : Nat) : ((s.withAside k).fn n).enabled = (s.fn n).enabled := by
  obtain ⟨b, h⟩ := s.withAside_fn k n
  rw [h]

@[simp] theorem State.withAside_fn_hasBit (n : Nat) (b : FnBit) : ((s.withAside k).fn n).hasBit b = (s.fn n).hasBit b := by
  obtain ⟨d, h⟩ := s.withAside_fn k n
  rw [h]
  cases b <;> rfl

@[simp] theorem State.setBit_withAside (n : Nat) (b : FnBit) :
    ((s.withAside k).modFn n fun f => f.setBit b) = (s.modFn n fun f => f.setBit b).withAside k := by
  have h := upd_upd_comm s.hif.fns 0 n (fun f => { f with d3hot := f.d3hot || k.enters }) (fun f => f.setBit b) (by cases b <;> simp [FnSt.setBit])
  exact congrArg (fun l => { s.withAside k with hif := { (s.withAside k).hif with fns := l } }) h

@[simp] theorem State.bitMsix_withAside (fn : Nat) : (s.withAside k).bitMsix fn = (s.bitMsix fn).withAside k := by
  simp [State.bitMsix]

@[simp] theorem State.fnEvent_withAside (fn : Nat) (b : FnBit) : (s.withAside k).fnEvent fn b = (s.fnEvent fn b).withAside k := by
  simp [State.fnEvent]

@[simp] theorem State.partEvent_withAside (p : Nat) (b : FnBit) : (s.withAside k).partEvent p b = (s.partEvent p b).withAside k := by
  simp [State.partEvent]

/-- A record put in the module log. -/
def State.recordLogged (s : State) (cls : RecCls) (r : ErrRec) : State :=
  let slot := s.err.written.toNat % 2048
  let s := s.modErr fun e => { e with log := e.log.filter (fun x => !(x.1 == slot)), written := e.written + 1 }
  let s := s.when (!s.err.moduleFault && decide (cls = .module)) fun s => s.platformEvent 10 1
  (s.modErr fun e => { e with moduleFault := e.moduleFault || decide (cls = .module), log := tinsert e.log slot r }).aonAdd 0 1 1

/-- The partition whose log takes a copy of a record. -/
def copyPart (cls : RecCls) (acct : Acct) (part : Nat) : Option Nat :=
  match cls with
  | .contained | .partition => if part < 16 then some part else none
  | .absorbed => match acct with
    | .fn n => if 1 ≤ n ∧ n ≤ 16 then some (n - 1) else none
    | _ => none
  | _ => none

/-- A record's copy in a partition log. -/
def State.recordCopied (s : State) (part : Option Nat) (r : ErrRec) : State :=
  match part with
  | some p =>
    let k := p * 64 + (s.part p).written.toNat % 64
    (s.modErr fun e => { e with plog := tinsert (terase e.plog k) k r }).modPart p fun x => { x with written := x.written + 1 }
  | none => s

/-- The messages of a record. -/
def State.recordTold (s : State) (cls : RecCls) (r : ErrRec) : State :=
  match cls with
  | .corrected => s
  | .absorbed | .contained => s.msix 0 1
  | .partition =>
    let s := s.msix 0 0
    if r.part < 16 then
      (s.modPart r.part fun x => { x with ptnRecords := satAdd x.ptnRecords 1 }).when (s.fn (r.part + 1)).enabled fun s => s.msix (r.part + 1) 1
    else s
  | .module => s.msix 0 0

theorem State.writeRecord_eq (cls : RecCls) (acct : Acct) (r : ErrRec) :
    s.writeRecord cls acct r = ((s.recordLogged cls r).recordCopied (copyPart cls acct r.part) r).recordTold cls r := rfl

@[simp] theorem State.recordLogged_withAside (cls : RecCls) (r : ErrRec) :
    (s.withAside k).recordLogged cls r = (s.recordLogged cls r).withAside k := by
  simp [State.recordLogged]
@[simp] theorem State.recordCopied_withAside (part : Option Nat) (r : ErrRec) :
    (s.withAside k).recordCopied part r = (s.recordCopied part r).withAside k := by
  cases part <;> simp [State.recordCopied]
@[simp] theorem State.recordTold_withAside (cls : RecCls) (r : ErrRec) : (s.withAside k).recordTold cls r = (s.recordTold cls r).withAside k := by
  cases cls <;> simp [State.recordTold]

@[simp] theorem State.writeRecord_withAside (cls : RecCls) (acct : Acct) (r : ErrRec) :
    (s.withAside k).writeRecord cls acct r = (s.writeRecord cls acct r).withAside k := by
  rw [State.writeRecord_eq, State.writeRecord_eq]
  simp

@[simp] theorem State.record_withAside (cls : RecCls) (acct : Acct) (unit source code part : Nat) (detail : List Byte) :
    (s.withAside k).record cls acct unit source code part detail = (s.record cls acct unit source code part detail).withAside k := by
  cases h : recLimit cls unit acct <;> simp [State.record, h]

@[simp] theorem State.flushPort_withAside (port n : Nat) : (s.withAside k).flushPort port n = (s.flushPort port n).withAside k := by
  induction n generalizing s with
  | zero => rfl
  | succ n ih =>
    rcases h : takeBlock 15 (s.port port).credits [] (s.port port).queue with ⟨_ | ⟨p, ps⟩, rest, cr⟩ <;> simp [State.flushPort, h, ih]

@[simp] theorem State.enqueue_withAside (port : Nat) (p : Packet) : (s.withAside k).enqueue port p = (s.enqueue port p).withAside k := by
  simp [State.enqueue]

@[simp] theorem State.markDead_withAside (id : Nat) (a : Option Nat) : (s.withAside k).markDead id a = (s.markDead id a).withAside k := by
  simp [State.markDead]

@[simp] theorem State.seamOut_withAside (port : Nat) (p : Packet) : (s.withAside k).seamOut port p = (s.seamOut port p).withAside k := by
  cases hMet : combine (s.seamEntry p).holdUntil (s.port port).seamQ p with
  | some q => simp [State.seamOut, hMet]
  | none =>
    cases hQueue : (s.port port).seamQ <;> rw [hQueue] at hMet <;> simp [State.seamOut, hMet, hQueue]

@[simp] theorem State.forward_withAside (p : Packet) (route : Route) (vcAt : Nat → BitVec 3) :
    (s.withAside k).forward p route vcAt = (s.forward p route vcAt).withAside k := by
  cases route <;> simp [State.forward]

@[simp] theorem State.send_withAside (p : Packet) (a : Option Nat) : (s.withAside k).send p a = (s.send p a).withAside k := by
  simp [State.send]

@[simp] theorem State.barrierGo_withAside (p : Nat) (step : Word) : (s.withAside k).barrierGo p step = (s.barrierGo p step).withAside k := by
  simp [State.barrierGo]

@[simp] theorem State.barrierTry_withAside (p : Nat) : (s.withAside k).barrierTry p = (s.barrierTry p).withAside k := by
  cases hUp : s.parentOf s.myId <;> simp [State.barrierTry, hUp]

@[simp] theorem State.placeInTree_withAside : (s.withAside k).placeInTree = s.placeInTree.withAside k := by
  simp [State.placeInTree]

@[simp] theorem State.regrow_withAside : (s.withAside k).regrow = s.regrow.withAside k := by
  simp [State.regrow]

end Ops

end Sys2Proof.Machine
end

section
/-! SUPPORT. How the entries of the Order Book, their pages and the memory of their directories commute with the values put
aside (R294 to R299, R345). -/

namespace Sys2Proof.Machine

section Ops
variable (s : State) (k : Aside)

@[simp] theorem State.soloBind_withAside (p : Nat) : (s.withAside k).soloBind p = (s.soloBind p).withAside k := by
  unfold State.soloBind
  simp only [State.withAside_obPart, State.withAside_entry, State.withAside_seqsOf]
  cases (s.seqsOf p).foldl _ none <;> simp

@[simp] theorem State.endWait_withAside (q : Nat) : (s.withAside k).endWait q = (s.endWait q).withAside k := by
  cases h : (s.entry q).waitFrom <;> simp [State.endWait, h]

@[simp] theorem State.entryStatus_withAside (q : Nat) : (s.withAside k).entryStatus q = (s.entryStatus q).withAside k := (rfl)

@[simp] theorem State.setCtr_withAside (n : Nat) :
    ((s.withAside k).modOb fun o => { o with queuedCtr := n }) = (s.modOb fun o => { o with queuedCtr := n }).withAside k := (rfl)

@[simp] theorem State.setEst_withAside (q : Nat) (st : ESt) : (s.withAside k).setEst q st = (s.setEst q st).withAside k := by
  simp [State.setEst]

@[simp] theorem State.returnPages_withAside (q : Nat) : (s.withAside k).returnPages q = (s.returnPages q).withAside k := by
  simp [State.returnPages]

@[simp] theorem State.textOut_withAside (q : Nat) (old new_ : List Byte) :
    (s.withAside k).textOut q old new_ = (s.textOut q old new_).withAside k := by
  simp [State.textOut]

@[simp] theorem State.eraseEntry_withAside (q : Nat) : ((s.withAside k).modOb fun o => { o with entries := terase o.entries q }) =
    (s.modOb fun o => { o with entries := terase o.entries q }).withAside k := (rfl)

@[simp] theorem State.freeEntry_withAside (q : Nat) (c : Bool) : (s.withAside k).freeEntry q c = (s.freeEntry q c).withAside k := by
  simp [State.freeEntry]

@[simp] theorem State.closeWith_withAside (q st code : Nat) (old : List Byte) (c : Bool) :
    (s.withAside k).closeWith q st code old c = (s.closeWith q st code old c).withAside k := by
  simp [State.closeWith]

@[simp] theorem State.closeEntry_withAside (q st code : Nat) : (s.withAside k).closeEntry q st code = (s.closeEntry q st code).withAside k := by
  simp [State.closeEntry]

@[simp] theorem State.doCancels_withAside (p : Nat) : (s.withAside k).doCancels p = (s.doCancels p).withAside k := by
  simp [State.doCancels]

/-! ### Memory behind the directory of a sequence's pages -/

@[simp] theorem State.modSlice_withAside (n : Nat) (f : Cache → Cache) : (s.withAside k).modSlice n f = (s.modSlice n f).withAside k := (rfl)
@[simp] theorem State.modLine_withAside (line : Nat) (f : Way → Way) : (s.withAside k).modLine line f = (s.modLine line f).withAside k := (rfl)
@[simp] theorem State.dropL1d_withAside (c line : Nat) : (s.withAside k).dropL1d c line = (s.dropL1d c line).withAside k := (rfl)
@[simp] theorem State.writing_withAside (l : List (Nat × List Byte × Nat)) : (s.withAside k).writing l = (s.writing l).withAside k := (rfl)
@[simp] theorem State.poke_withAside (a : Nat) (bs : List Byte) : (s.withAside k).poke a bs = (s.poke a bs).withAside k := (rfl)
@[simp] theorem State.setBytes_withAside (a : Nat) (bs : List Byte) : (s.withAside k).setBytes a bs = (s.setBytes a bs).withAside k := (rfl)

@[simp] theorem State.lpdWake_withAside (a : Nat) : (s.withAside k).lpdWake a = (s.lpdWake a).withAside k := by simp [State.lpdWake]
@[simp] theorem State.l2Touch_withAside (line : Nat) : (s.withAside k).l2Touch line = (s.l2Touch line).withAside k := by
  cases h : ((s.sliceCache (s.sliceOf (line * 128))).set (l2Set (line * 128))).find line <;> simp [State.l2Touch, h]
@[simp] theorem State.unshare_withAside (w : Way) : (s.withAside k).unshare w = (s.unshare w).withAside k := by simp [State.unshare]
@[simp] theorem State.evict_withAside (w : Way) : (s.withAside k).evict w = (s.evict w).withAside k := by simp [State.evict]
@[simp] theorem State.l2Access_withAside (line owner hint : Nat) :
    (s.withAside k).l2Access line owner hint = (s.l2Access line owner hint).withAside k := by
  unfold State.l2Access
  simp only [State.withAside_sliceOf, State.withAside_sliceCache, State.withAside_damagedAt, State.withAside_usableWay]
  cases hOld : (((s.sliceCache (s.sliceOf (line * 128))).fill 3 16 (l2Set (line * 128)) (l2Depth hint)
    (s.usableWay (s.sliceOf (line * 128))) { tag := line, owner := ownerTag owner })).2 <;> simp
@[simp] theorem State.dirty_withAside (line : Nat) : (s.withAside k).dirty line = (s.dirty line).withAside k := by
  cases h : s.lineAt line <;> simp [State.dirty, h]
@[simp] theorem State.invalDir_withAside (a n : Nat) : (s.withAside k).invalDir a n = (s.invalDir a n).withAside k := by
  unfold State.invalDir
  rw [State.each_withAside s k fun s line => by cases h : s.lineAt line <;> simp [h]]
  exact State.ite_withAside ..
@[simp] theorem State.rekeyLine_withAside (key line : Nat) : (s.withAside k).rekeyLine key line = (s.rekeyLine key line).withAside k := by
  simp [State.rekeyLine]
@[simp] theorem State.keyPoke_withAside (key a : Nat) (bs : List Byte) : (s.withAside k).keyPoke key a bs = (s.keyPoke key a bs).withAside k := by
  simp [State.keyPoke]
@[simp] theorem State.passWrite_withAside (owner a n : Nat) : (s.withAside k).passWrite owner a n = (s.passWrite owner a n).withAside k := by
  simp [State.passWrite]
@[simp] theorem State.homeWrite_withAside (part key a : Nat) (bs : List Byte) :
    (s.withAside k).homeWrite part key a bs = (s.homeWrite part key a bs).withAside k := by
  simp [State.homeWrite]
@[simp] theorem State.normalWrite_withAside (part hint key a : Nat) (bs : List Byte) :
    (s.withAside k).normalWrite part hint key a bs = (s.normalWrite part hint key a bs).withAside k := by
  simp [State.normalWrite]
@[simp] theorem State.hubWrite_withAside (a : Nat) (bs : List Byte) : (s.withAside k).hubWrite a bs = (s.hubWrite a bs).withAside k := by
  simp [State.hubWrite]
@[simp] theorem State.dirWrite_withAside (q j a : Nat) : (s.withAside k).dirWrite q j a = (s.dirWrite q j a).withAside k := by
  simp [State.dirWrite]

/-! ### Pre-emption and the end of a step -/

@[simp] theorem State.dropTreePages_withAside (q : Nat) : (s.withAside k).dropTreePages q = (s.dropTreePages q).withAside k := by
  simp [State.dropTreePages]
@[simp] theorem State.preemptNow_withAside (q : Nat) (trig : Trigger) : (s.withAside k).preemptNow q trig = (s.preemptNow q trig).withAside k := by
  simp [State.preemptNow]
@[simp] theorem State.victimsFor_withAside (p : Nat) (h : Nat × Entry) (need taken n : Nat) :
    (s.withAside k).victimsFor p h need taken n = (s.victimsFor p h need taken n).withAside k := by
  induction n generalizing s with
  | zero => rfl
  | succ n ih =>
    unfold State.victimsFor
    simp only [State.withAside_obPart, State.withAside_pagesComing, State.withAside_seqsOf, State.withAside_windowLeft]
    cases sortBy victimBefore _ <;> simp [ih]

end Ops

end Sys2Proof.Machine
end

section
/-! SUPPORT. How a port that comes back and a unit under fitting that returns commute with the values put aside (R424, R542, R544). -/

namespace Sys2Proof.Machine

section Ops
variable (s : State) (k : Aside)

@[simp] theorem State.setPort_withAside (port : Nat) (f : Port → Port) : (s.withAside k).setPort port f = (s.setPort port f).withAside k := by
  simp [State.setPort]
@[simp] theorem State.resendAll_withAside (port : Nat) : (s.withAside k).resendAll port = (s.resendAll port).withAside k := by
  simp [State.resendAll]
@[simp] theorem State.bypassPort_withAside (port : Nat) : (s.withAside k).bypassPort port = (s.bypassPort port).withAside k := by
  simp [State.bypassPort]
@[simp] theorem State.goUp_withAside (port : Nat) (g : Nat × Nat) (lanes : BitVec 8) :
    (s.withAside k).goUp port g lanes = (s.goUp port g lanes).withAside k := by
  simp [State.goUp]
@[simp] theorem State.linkRecord_withAside (port code : Nat) : (s.withAside k).linkRecord port code = (s.linkRecord port code).withAside k := by
  simp [State.linkRecord]
@[simp] theorem State.trainUp_withAside (port : Nat) : (s.withAside k).trainUp port = (s.trainUp port).withAside k := by
  cases h : widest ((s.port port).ownLanes.getD 0xFF#8) 3 <;> simp [State.trainUp, h]
@[simp] theorem State.retrained_withAside (port : Nat) : (s.withAside k).retrained port = (s.retrained port).withAside k := by
  unfold State.retrained
  simp only [State.withAside_port]
  split
  · split <;> simp
  · rfl
@[simp] theorem State.sendCtl_withAside (port : Nat) (c : List Byte) : (s.withAside k).sendCtl port c = (s.sendCtl port c).withAside k := (rfl)
@[simp] theorem State.lanesTrained_withAside (port : Nat) (own : BitVec 8) :
    (s.withAside k).lanesTrained port own = (s.lanesTrained port own).withAside k := by
  simp [State.lanesTrained]
@[simp] theorem State.fitPort_withAside (i : Nat) (lanes : BitVec 8) : (s.withAside k).fitPort i lanes = (s.fitPort i lanes).withAside k := by
  simp [State.fitPort]

@[simp] theorem State.setIsland_withAside (i : Nat) (st : CSt) : (s.withAside k).setIsland i st = (s.setIsland i st).withAside k := (rfl)
@[simp] theorem State.bump_withAside : (s.withAside k).bump = s.bump.withAside k := (rfl)
@[simp] theorem State.modStrand_withAside (n : Nat) (f : Strand → Strand) : (s.withAside k).modStrand n f = (s.modStrand n f).withAside k := (rfl)
@[simp] theorem State.gateCore_withAside (c : Nat) : (s.withAside k).gateCore c = (s.gateCore c).withAside k := by simp [State.gateCore]

/-- The hold of a fitted core ends, but for one that waits for its reset into quarantine. -/
def State.coreBack (s : State) (cls i : Nat) : State :=
  match fitCoreOf cls i with
  | some c => if (s.core c).quar && (s.core c).quarAt.isSome then s else s.modCore c fun k => { k with held := false }
  | none => s

/-- The island of a fitted unit runs again, or is gated again. -/
def State.islandBack (s : State) (cls i : Nat) : State :=
  match fitIsland cls i with
  | some n =>
    if (s.island n).st != .held || (fitCoreOf cls i).any (fun c => (s.core c).held) then s
    else if n < 1024 && s.mayGate n && s.drained n then (s.setIsland n .gated).gateCore n else s.setIsland n .running
  | none => s

/-- A fitted slice or strand is under test no more. -/
def State.memoryBack (s : State) (cls i : Nat) : State :=
  match cls with
  | 4 => s.modMem fun m => { m with l2Test := none }
  | 5 => s.modStrand i fun x => { x with fitHeld := false }
  | _ => s

theorem State.fitReturn_eq (cls i : Nat) : s.fitReturn cls i = ((s.coreBack cls i).islandBack cls i).memoryBack cls i := rfl

@[simp] theorem State.coreBack_withAside (cls i : Nat) : (s.withAside k).coreBack cls i = (s.coreBack cls i).withAside k := by
  cases h : fitCoreOf cls i <;> simp [State.coreBack, h]
@[simp] theorem State.islandBack_withAside (cls i : Nat) : (s.withAside k).islandBack cls i = (s.islandBack cls i).withAside k := by
  cases h : fitIsland cls i <;> simp [State.islandBack, h]
@[simp] theorem State.memoryBack_withAside (cls i : Nat) : (s.withAside k).memoryBack cls i = (s.memoryBack cls i).withAside k := by
  unfold State.memoryBack
  split <;> rfl

@[simp] theorem State.fitReturn_withAside (cls i : Nat) : (s.withAside k).fitReturn cls i = (s.fitReturn cls i).withAside k := by
  rw [State.fitReturn_eq, State.fitReturn_eq]
  simp

end Ops

end Sys2Proof.Machine
end

section
/-! SUPPORT. What the death of a module does to steps, stores and the group while no reduction runs: it commutes with values that leave the image and
the reductions as they are (R281, R321, R434, R440). -/

namespace Sys2Proof.Machine

section Ops
variable (s : State) (k : Aside)

/-- A walk that carries a number along with the state. -/
theorem State.foldl_withAside {α : Type} {f : State × Nat → α → State × Nat}
    (h : ∀ s n a, f (s.withAside k, n) a = ((f (s, n) a).1.withAside k, (f (s, n) a).2)) (l : List α) (n : Nat) :
    l.foldl f (s.withAside k, n) = ((l.foldl f (s, n)).1.withAside k, (l.foldl f (s, n)).2) := by
  induction l generalizing s n with
  | nil => rfl
  | cons a r ih => rw [List.foldl_cons, h, ih, List.foldl_cons]

/-- No reduction runs. -/
def Aside.Seamless (a : Aside) : Prop := ∀ p, (nth ({} : PtnSeam) a.seams p).reduce = none

/-- Values that leave the image and the reductions as a state has them, while no reduction runs. -/
structure Aside.Fits (k a : Aside) : Prop where
  image : k.image = a.image
  seams : k.seams = a.seams
  seamless : a.Seamless

theorem Aside.Seamless.fits {a : Aside} (h : a.Seamless) : a.Fits a := ⟨rfl, rfl, h⟩

theorem Aside.Fits.withAside {s : State} {k : Aside} (h : k.Fits s.aside) : (s.withAside k).aside.Seamless := fun p =>
  (congrArg (fun l => (nth ({} : PtnSeam) l p).reduce) h.seams).trans (h.seamless p)

@[simp] theorem State.modSkein_aside (c n : Nat) (f : Skein → Skein) : (s.modSkein c n f).aside = s.aside := (rfl)
@[simp] theorem State.modWlk_aside (f : WlkSt → WlkSt) : (s.modWlk f).aside = s.aside := (rfl)
@[simp] theorem State.modObPart_aside (p : Nat) (f : PtnOb → PtnOb) : (s.modObPart p f).aside = s.aside := (rfl)
@[simp] theorem State.modEntry_aside (q : Nat) (f : Entry → Entry) : (s.modEntry q f).aside = s.aside := (rfl)
@[simp] theorem State.doCancels_aside (p : Nat) : (s.doCancels p).aside = s.aside :=
  s.aside_kept (F := (State.doCancels · p)) (State.doCancels_withAside ..)
@[simp] theorem State.preemptNow_aside (q : Nat) (trig : Trigger) : (s.preemptNow q trig).aside = s.aside :=
  s.aside_kept (F := (State.preemptNow · q trig)) (State.preemptNow_withAside ..)
@[simp] theorem State.closeEntry_aside (q st code : Nat) : (s.closeEntry q st code).aside = s.aside :=
  s.aside_kept (F := (State.closeEntry · q st code)) (State.closeEntry_withAside ..)
@[simp] theorem State.record_aside (cls : RecCls) (acct : Acct) (unit source code part : Nat) (detail : List Byte) :
    (s.record cls acct unit source code part detail).aside = s.aside :=
  s.aside_kept (F := (State.record · cls acct unit source code part detail)) (State.record_withAside ..)
@[simp] theorem State.partEvent_aside (p : Nat) (b : FnBit) : (s.partEvent p b).aside = s.aside :=
  s.aside_kept (F := (State.partEvent · p b)) (State.partEvent_withAside ..)
@[simp] theorem State.fnEvent_aside (fn : Nat) (b : FnBit) : (s.fnEvent fn b).aside = s.aside :=
  s.aside_kept (F := (State.fnEvent · fn b)) (State.fnEvent_withAside ..)
@[simp] theorem State.ite_aside (c : Prop) [Decidable c] (a b : State) : (if c then a else b).aside = if c then a.aside else b.aside :=
  apply_ite State.aside c a b
@[simp] theorem State.each_aside {α : Type} {f : State → α → State} (h : ∀ s a, (f s a).aside = s.aside) (l : List α) :
    (s.each l f).aside = s.aside := State.each_keeps State.aside l f h s

variable {k}

theorem State.withAside_pageT (h : k.Fits s.aside) : (s.withAside k).pageT = s.pageT := by
  unfold State.pageT
  rw [show s.ob.image = k.image from h.image.symm]
  rfl

/-- A walk whose steps commute where what is put aside fits. -/
theorem State.each_withAside_fits {α : Type} {f : State → α → State}
    (h : ∀ s k a, k.Fits s.aside → f (s.withAside k) a = (f s a).withAside k) (l : List α) (hFits : k.Fits s.aside) :
    (s.withAside k).each l f = (s.each l f).withAside k := by
  unfold State.each
  induction l generalizing s with
  | nil => rfl
  | cons a r ih =>
    rw [List.foldl_cons, h s k a hFits, List.foldl_cons]
    exact ih _ (by rw [s.aside_kept (F := (f · a)) (h s s.aside a hFits.seamless.fits)]; exact hFits)

theorem State.pagesTrigger_withAside (h : k.Fits s.aside) (p : Nat) : (s.withAside k).pagesTrigger p = (s.pagesTrigger p).withAside k := by
  unfold State.pagesTrigger
  simp only [s.withAside_pageT h, State.withAside_obPart, State.withAside_heldSeqs]
  exact congrArg Prod.fst (State.foldl_withAside s k (fun s n a => by simp) _ 0)

theorem State.stepEnd_withAside (h : k.Fits s.aside) (p : Nat) : (s.withAside k).stepEnd p = (s.stepEnd p).withAside k := by
  simp [State.stepEnd, State.pagesTrigger_withAside, h]

theorem State.stepAbort_withAside (h : k.Fits s.aside) (p : Nat) (lost : Bool) :
    (s.withAside k).stepAbort p lost = (s.stepAbort p lost).withAside k := by
  simp [State.stepAbort, State.stepEnd_withAside, h]

theorem State.stepLost_withAside (h : k.Fits s.aside) (c b : Nat) : (s.withAside k).stepLost c b = (s.stepLost c b).withAside k := by
  cases hOb : ((s.core c).bundle b).obPart <;> simp [State.stepLost, hOb, State.stepAbort_withAside, h]

theorem State.lostStore_withAside (h : k.Fits s.aside) (c slot id addr : Nat) :
    (s.withAside k).lostStore c slot id addr = (s.lostStore c slot id addr).withAside k := by
  simp [State.lostStore, State.stepLost_withAside, h]

theorem State.loseStores_withAside (h : k.Fits s.aside) (c id : Nat) :
    (s.withAside k).loseStores c id = (s.loseStores c id).withAside k := by
  simp only [State.loseStores, State.withAside_core, State.modCore_withAside]
  refine State.each_withAside_fits _ (fun s k e hFits => ?_) _ h
  refine State.each_withAside_fits _ (fun s k slot hFits => ?_) _ hFits
  exact s.lostStore_withAside hFits ..

@[simp] theorem State.endGroupSeqs_withAside (k : Aside) : (s.withAside k).endGroupSeqs = s.endGroupSeqs.withAside k := by
  simp [State.endGroupSeqs]
@[simp] theorem State.endGroupSeqs_aside : s.endGroupSeqs.aside = s.aside := s.aside_kept (F := State.endGroupSeqs) (State.endGroupSeqs_withAside ..)

theorem State.endReduce_none {s : State} (p : Nat) (h : (s.seamPart p).reduce = none) (code addr : Nat) : s.endReduce p code addr = s := by
  simp [State.endReduce, h]

theorem State.seamLost_none {s : State} (p : Nat) (h : (s.seamPart p).reduce = none) (id : Nat) : s.seamLost p id = s := by
  simp [State.seamLost, h]

/-- Where no reduction runs, a stop of the group ends sequences alone. -/
theorem State.stopGroup_seamless (h : s.aside.Seamless) : s.stopGroup =
    if s.isAnchor then (s.modWlk fun w => { w with gstate := .stopped }).endGroupSeqs else s.modWlk fun w => { w with gstate := .stopped } := by
  refine State.each_id _ _ _ fun p _ => State.endReduce_none p ?_ 9 0
  have hSeams : (if s.isAnchor then (s.modWlk fun w => { w with gstate := .stopped }).endGroupSeqs
      else s.modWlk fun w => { w with gstate := .stopped }).aside.seams = s.aside.seams := by simp
  exact (congrArg (fun l => (nth ({} : PtnSeam) l p).reduce) hSeams).trans (h p)

theorem State.stopGroup_withAside (h : k.Fits s.aside) : (s.withAside k).stopGroup = s.stopGroup.withAside k := by
  rw [State.stopGroup_seamless _ h.withAside, State.stopGroup_seamless _ h.seamless]
  simp

theorem State.loseMember_withAside (h : k.Fits s.aside) (id : Nat) : (s.withAside k).loseMember id = (s.loseMember id).withAside k := by
  simp [State.loseMember, State.stopGroup_withAside, h]

/-- The stores and shuttles of a core that a death ends. -/
def State.deadCore (s : State) (id c : Nat) : State := (s.modCore c fun k => k.killShuttles id).loseStores c id

theorem State.deadCore_withAside (h : k.Fits s.aside) (id c : Nat) : (s.withAside k).deadCore id c = (s.deadCore id c).withAside k :=
  State.loseStores_withAside (s.modCore c fun x => x.killShuttles id) h c id

/-- The stores and shuttles that a death ends, and the packets that leave. -/
def State.deadStores (s : State) (id : Nat) : State :=
  (s.modWlk fun w => { w with ports := w.ports.map fun p => p.purge id }).each (s.cores.map (·.1)) fun s c => s.deadCore id c

theorem State.deadStores_withAside (h : k.Fits s.aside) (id : Nat) : (s.withAside k).deadStores id = (s.deadStores id).withAside k := by
  simp only [State.deadStores, State.modWlk_withAside, State.withAside_cores]
  exact State.each_withAside_fits _ (fun s k c hFits => s.deadCore_withAside hFits id c) _ h
theorem State.deadStores_aside (h : s.aside.Seamless) (id : Nat) : (s.deadStores id).aside = s.aside :=
  s.aside_kept (F := (State.deadStores · id)) (s.deadStores_withAside h.fits id)

/-- What a mark does but for the reductions. -/
def State.deadGroup (s : State) (id : Nat) : State := (s.deadStores id).loseMember id

theorem State.deadGroup_withAside (h : k.Fits s.aside) (id : Nat) : (s.withAside k).deadGroup id = (s.deadGroup id).withAside k := by
  unfold State.deadGroup
  rw [s.deadStores_withAside h, State.loseMember_withAside _ (by rw [s.deadStores_aside h.seamless]; exact h)]

theorem State.deadEffects_seamless (h : s.aside.Seamless) (id : Nat) : s.deadEffects id = s.deadGroup id := by
  refine State.each_id _ _ _ fun p _ => State.seamLost_none p ?_ id
  have hKept := s.aside_kept (F := (State.deadGroup · id)) (s.deadGroup_withAside h.fits id)
  exact (congrArg (fun a : Aside => (nth ({} : PtnSeam) a.seams p).reduce) hKept).trans (h p)

theorem State.deadEffects_withAside (h : k.Fits s.aside) (id : Nat) : (s.withAside k).deadEffects id = (s.deadEffects id).withAside k := by
  rw [State.deadEffects_seamless _ h.withAside, State.deadEffects_seamless _ h.seamless, s.deadGroup_withAside h]

theorem State.settleMarks_withAside (h : k.Fits s.aside) (n : Nat) : (s.withAside k).settleMarks n = (s.settleMarks n).withAside k := by
  induction n generalizing s with
  | zero => rfl
  | succ n ih =>
    cases hMarks : s.wlk.deadPending with
    | nil => simp [State.settleMarks, hMarks]
    | cons id r =>
      simp only [State.settleMarks, State.withAside_wlk, hMarks]
      have hDead (k : Aside) (h : k.Fits s.aside) := State.deadEffects_withAside (s.modWlk fun w => { w with deadPending := r }) h id
      have hKept := s.aside_kept (F := fun s => (s.modWlk fun w => { w with deadPending := r }).deadEffects id) (hDead _ h.seamless.fits)
      exact (congrArg (State.settleMarks · n) (hDead k h)).trans (ih _ (by rw [hKept]; exact h))

theorem State.settle_withAside (h : k.Fits s.aside) : (s.withAside k).settle = s.settle.withAside k := s.settleMarks_withAside h 1024

theorem State.settle_aside (h : s.aside.Seamless) : s.settle.aside = s.aside := 
  s.aside_kept (F := State.settle) (s.settle_withAside h.fits)

end Ops
end Sys2Proof.Machine
end

section
/-! SUPPORT. The sequences of a partition closed without a status word: what lives on is of another partition (R381). -/

namespace Sys2Proof.Machine

/-- A change of the Order Book and of memory alone. -/
def State.Dropped (s t : State) : Prop := ∃ o m, t = { s with ob := o, mem := m }

theorem State.Dropped.refl (s : State) : s.Dropped s := ⟨_, _, rfl⟩

theorem State.Dropped.trans {s t u : State} (h : s.Dropped t) (k : t.Dropped u) : s.Dropped u := by
  obtain ⟨o, m, rfl⟩ := h
  obtain ⟨o', m', rfl⟩ := k
  exact ⟨o', m', rfl⟩

theorem State.dropped_when (s : State) (b : Bool) {f : State → State} (h : s.Dropped (f s)) : s.Dropped (s.when b f) := by
  cases b
  · exact .refl s
  · exact h

theorem State.dropped_each {α : Type} (s : State) (l : List α) {f : State → α → State} (h : ∀ (t : State) a, t.Dropped (f t a)) :
    s.Dropped (s.each l f) := State.each_induct l f (fun _ a hu => hu.trans (h _ a)) s (.refl s)

theorem State.dropped_endWait (s : State) (q : Nat) : s.Dropped (s.endWait q) := by
  unfold State.endWait
  dsimp only
  split
  · exact .refl s
  · exact ⟨_, _, rfl⟩

/-- The pages and the side area of a sequence zeroed, where they return so. -/
def State.pagesZeroed (s : State) (q : Nat) : State :=
  let e := s.entry q
  let s := s.when (s.zeroesPages e) fun s =>
    s.each ((e.stackPages.map (·.2)) ++ e.treePages ++ e.targets ++ (if e.kvdir == 0 then [] else [e.kvdir.toNat])) fun s a => s.zeroRange a kvPage
  s.when (s.part e.part.toNat).unbind.isSome fun s => s.zeroRange e.sideAddr.toNat (1024 * e.sideKib)

theorem State.dropped_returnPages (s : State) (q : Nat) : s.Dropped (s.returnPages q) := by
  have hZeroed : s.Dropped (s.pagesZeroed q) := by
    unfold State.pagesZeroed
    exact (s.dropped_when _ (s.dropped_each _ fun t a => ⟨_, _, rfl⟩)).trans (State.dropped_when _ _ ⟨_, _, rfl⟩)
  exact hZeroed.trans ⟨_, _, rfl⟩

theorem State.dropped_soloBind (s : State) (p : Nat) : s.Dropped (s.soloBind p) := by
  unfold State.soloBind
  dsimp only
  split
  · exact .refl s
  · split
    · exact .refl s
    · split
      · exact ⟨_, _, rfl⟩
      · exact .refl s

/-- What of the Order Book a freed entry changes once its pages are back. -/
theorem State.dropped_freeEntry (s : State) (q : Nat) (c : Bool) : s.Dropped (s.freeEntry q c) := by
  have hPages := (s.dropped_endWait q).trans ((s.endWait q).dropped_returnPages q)
  refine State.Dropped.trans (t := State.when _ c _) ?_ (State.dropped_soloBind _ _)
  exact (hPages.trans ⟨_, _, rfl⟩).trans (State.dropped_when _ _ ⟨_, _, rfl⟩)

theorem State.dropped_dropSeq (s : State) (q : Nat) : s.Dropped (s.dropSeq q) :=
  ite_keeps (s.dropped_freeEntry q true) (.refl s)

theorem terase_tmod {α : Type} [DecidableEq α] (d : α) (m : SMap α) (k : Nat) (f : α → α) : terase (tmod d m k f) k = terase m k := by
  unfold tmod tset
  split
  · exact terase_terase m k
  · rw [terase_tinsert, terase_terase]

theorem State.modEntry_erased (s : State) (q : Nat) (f : Entry → Entry) : terase (s.modEntry q f).ob.entries q = terase s.ob.entries q :=
  terase_tmod ({} : Entry) s.ob.entries q f
theorem State.modAcct_entries (s : State) (c : Nat) (f : Account → Account) : (s.modAcct c f).ob.entries = s.ob.entries := rfl

@[simp] theorem State.soloBind_entries (s : State) (p : Nat) : (s.soloBind p).ob.entries = s.ob.entries := by
  unfold State.soloBind
  dsimp only
  split
  · rfl
  · split
    · rfl
    · split <;> rfl

theorem State.endWait_entries (s : State) (q : Nat) : terase (s.endWait q).ob.entries q = terase s.ob.entries q := by
  unfold State.endWait
  dsimp only
  split
  · rfl
  · rw [State.modAcct_entries, State.modEntry_erased]

theorem State.returnPages_entries (s : State) (q : Nat) : terase (s.returnPages q).ob.entries q = terase s.ob.entries q := by
  have hZeroed : (s.pagesZeroed q).ob = s.ob := by
    unfold State.pagesZeroed
    rw [State.when_keeps State.ob _ _ _ rfl]
    exact State.when_keeps State.ob _ _ _ (State.each_keeps State.ob _ (fun s a => s.zeroRange a kvPage) (fun _ _ => rfl) s)
  exact (State.modEntry_erased _ q _).trans (congrArg (fun o => terase o.entries q) hZeroed)

/-- A freed entry stands no more; the others stand as they did. -/
theorem State.freeEntry_entries (s : State) (q : Nat) (c : Bool) : (s.freeEntry q c).ob.entries = terase s.ob.entries q := by
  unfold State.freeEntry
  rw [State.soloBind_entries, State.when_keeps (fun x => x.ob.entries) _ c _ rfl]
  exact (State.returnPages_entries ..).trans (State.endWait_entries ..)

theorem State.dropSeq_entry (s : State) (q r : Nat) : (s.dropSeq q).entry r = s.entry r ∨ ((s.dropSeq q).entry r).live = false := by
  unfold State.dropSeq
  split
  · by_cases h : r = q
    · right
      rw [State.entry, State.freeEntry_entries, h, tget_terase_same]
      rfl
    · left
      rw [State.entry, State.freeEntry_entries, tget_terase_other _ _ h]
      rfl
  · exact .inl rfl

theorem State.dropSeq_self (s : State) (q : Nat) : ((s.dropSeq q).entry q).live = false := by
  unfold State.dropSeq
  split
  · rw [State.entry, State.freeEntry_entries, tget_terase_same]
    rfl
  · simpa using ‹¬(s.entry q).live = true›

/-- Every live sequence of a partition closed, as a reset of its VF does. -/
def State.dropSeqs (s : State) (p : Nat) : State := s.each (s.seqsOf p) fun s e => s.dropSeq e.1

theorem State.dropped_dropSeqs (s : State) (p : Nat) : s.Dropped (s.dropSeqs p) := s.dropped_each _ fun t e => t.dropped_dropSeq e.1

theorem State.dropSeq_stays_closed {s : State} {q : Nat} (h : (s.entry q).live = false) (r : Nat) : ((s.dropSeq r).entry q).live = false := by
  rcases s.dropSeq_entry r q with hSame | hGone
  · rw [hSame, h]
  · exact hGone

theorem State.dropSeqs_closed {s : State} {p q : Nat} {e : Entry} (h : (q, e) ∈ s.seqsOf p) : ((s.dropSeqs p).entry q).live = false :=
  State.each_reaches (P := fun _ => True) (Q := fun t => (t.entry q).live = false) (f := fun s (x : Nat × Entry) => s.dropSeq x.1)
    (a := (q, e)) (fun _ _ _ => Or.inl trivial) (fun _ x h => State.dropSeq_stays_closed h x.1) (fun t _ => t.dropSeq_self q)
    (s.seqsOf p) h s trivial

/-- A sequence that lives on stands as it did. -/
theorem State.dropSeqs_kept {s : State} {p q : Nat} (h : ((s.dropSeqs p).entry q).live = true) : (s.dropSeqs p).entry q = s.entry q := by
  have hWalk : (s.dropSeqs p).entry q = s.entry q ∨ ((s.dropSeqs p).entry q).live = false :=
    State.each_induct (P := fun t => t.entry q = s.entry q ∨ (t.entry q).live = false) _ _ (fun t x ht => by
      rcases ht with hSame | hGone
      · exact (t.dropSeq_entry x.1 q).imp_left (·.trans hSame)
      · exact .inr (State.dropSeq_stays_closed hGone x.1)) s (.inl rfl)
  exact hWalk.resolve_right (by simp [h])

theorem State.mem_seqsOf {s : State} {q : Nat} (h : (s.entry q).live = true) : (q, s.entry q) ∈ s.seqsOf (s.entry q).part.toNat := by
  refine List.mem_filter.2 ⟨mem_of_tget_ne ({} : Entry) s.ob.entries q fun hNone => ?_, ?_⟩
  · rw [State.entry, hNone] at h
    exact absurd h (by decide)
  · simpa using (Bool.and_eq_true_iff.1 h).1

/-- No sequence of the partition lives on. -/
theorem State.dropSeqs_part {s : State} {p q : Nat} (h : ((s.dropSeqs p).entry q).live = true) : ((s.dropSeqs p).entry q).part.toNat ≠ p := by
  intro hPart
  have hKept := State.dropSeqs_kept h
  have hMem := State.mem_seqsOf (hKept ▸ h)
  rw [← hKept, hPart] at hMem
  exact absurd (h.symm.trans (State.dropSeqs_closed hMem)) (by decide)

end Sys2Proof.Machine
end

section
/-! SUPPORT. What the resets of a VF and of PF0 leave of the values put aside (R381, R382, R525). -/

namespace Sys2Proof.Machine

/-! ## A reset of a VF -/

/-- Nothing of the inbox and of the live commands is of a function. -/
def Aside.Cleared (a : Aside) (fn : Nat) : Prop := (∀ e ∈ a.inbox, e.fn ≠ fn) ∧ ∀ c ∈ a.cmds, c.fn ≠ fn

/-- The inbox and the live commands without those of a function. -/
def Aside.flr (a : Aside) (fn : Nat) : Aside :=
  { a with inbox := a.inbox.filter fun e => e.fn != fn, cmds := a.cmds.filter fun c => c.fn != fn }

theorem Aside.flr_cleared (a : Aside) (fn : Nat) : (a.flr fn).Cleared fn :=
  ⟨fun e he => by simpa using (List.mem_filter.1 he).2, fun c hc => by simpa using (List.mem_filter.1 hc).2⟩

theorem Aside.Cleared.flr {a : Aside} {fn : Nat} (h : a.Cleared fn) (other : Nat) : (a.flr other).Cleared fn :=
  ⟨fun e he => h.1 e (List.mem_filter.1 he).1, fun c hc => h.2 c (List.mem_filter.1 hc).1⟩

@[simp] theorem State.flrFn_aside (s : State) (fn : Nat) : (s.flrFn fn).aside = s.aside.flr fn := rfl

@[simp] theorem State.dropSeq_aside (s : State) (q : Nat) : (s.dropSeq q).aside = s.aside :=
  ite_keeps (P := fun t : State => t.aside = s.aside) (s.aside_kept (F := (State.freeEntry · q true)) (State.freeEntry_withAside ..)) rfl

@[simp] theorem State.dropSeqs_aside (s : State) (p : Nat) : (s.dropSeqs p).aside = s.aside := by simp [State.dropSeqs]

theorem State.flrVf_eq {s : State} {vf : Nat} (hLow : 1 ≤ vf) (hHigh : vf ≤ 16) (hReduce : (s.seamPart (vf - 1)).reduce = none) :
    s.flrVf vf = (s.flrFn vf).dropSeqs (vf - 1) := by
  unfold State.flrVf
  rw [if_neg (by simp; omega), State.endReduce_none _ hReduce]
  rfl

theorem State.flrVf_other {s : State} {vf : Nat} (h : ¬ (1 ≤ vf ∧ vf ≤ 16)) : s.flrVf vf = s := if_pos (by simp; omega)

theorem State.flrVf_aside {s : State} {vf : Nat} (hLow : 1 ≤ vf) (hHigh : vf ≤ 16) (hReduce : (s.seamPart (vf - 1)).reduce = none) :
    (s.flrVf vf).aside = s.aside.flr vf := by
  rw [State.flrVf_eq hLow hHigh hReduce, State.dropSeqs_aside, State.flrFn_aside]

/-- A VF's reset sends no packet, so nothing is found dead by it. -/
theorem State.flrVf_wlk {s : State} {vf : Nat} (hReduce : (s.seamPart (vf - 1)).reduce = none) : (s.flrVf vf).wlk = s.wlk := by
  by_cases h : 1 ≤ vf ∧ vf ≤ 16
  · obtain ⟨o, m, hDropped⟩ := (s.flrFn vf).dropped_dropSeqs (vf - 1)
    rw [State.flrVf_eq h.1 h.2 hReduce, hDropped]
    rfl
  · rw [State.flrVf_other h]

theorem State.flrFn_stops {s : State} {fn : Nat} (h : fn < s.hif.fns.length) :
    ((s.flrFn fn).fn fn).req.enable = false ∧ ((s.flrFn fn).fn fn).cmd.enable = false := by
  have hFn := nth_upd_same ({} : FnSt) s.hif.fns fn
    (fun f => { f with req := { f.req with enable := false }, cmd := { f.cmd with enable := false } }) h
  exact ⟨congrArg (·.req.enable) hFn, congrArg (·.cmd.enable) hFn⟩

/-! ## A reset of PF0 -/

@[simp] theorem State.msix_aside (s : State) (fn v : Nat) : (s.msix fn v).aside = s.aside :=
  s.aside_kept (F := (State.msix · fn v)) (State.msix_withAside ..)

/-- Every VF's reset, one after another. -/
def State.flrVfs (s : State) : State := s.each (List.range 16) fun s p => s.flrVf (p + 1)

/-- The VFs' resets take nothing but entries and commands. -/
theorem State.flrVfs_aside {s : State} (h : s.aside.Seamless) : ∃ i c, s.flrVfs.aside = { s.aside with inbox := i, cmds := c } := by
  have hStep (t : State) (p : Nat) (ht : ∃ i c, t.aside = { s.aside with inbox := i, cmds := c }) :
      ∃ i c, (t.flrVf (p + 1)).aside = { s.aside with inbox := i, cmds := c } := by
    obtain ⟨i, c, hAside⟩ := ht
    by_cases hp : p + 1 ≤ 16
    · rw [State.flrVf_aside (by omega) hp ((congrArg (fun a : Aside => (nth ({} : PtnSeam) a.seams p).reduce) hAside).trans (h p)), hAside]
      exact ⟨_, _, rfl⟩
    · rw [State.flrVf_other (by omega)]
      exact ⟨i, c, hAside⟩
  exact State.each_induct (P := fun t => ∃ i c, t.aside = { s.aside with inbox := i, cmds := c }) _ _ hStep s ⟨_, _, rfl⟩

theorem State.flrVfs_cleared {s : State} (h : s.aside.Seamless) {fn : Nat} (hLow : 1 ≤ fn) (hHigh : fn ≤ 16) : s.flrVfs.aside.Cleared fn := by
  obtain ⟨p, rfl⟩ : ∃ p, fn = p + 1 := ⟨fn - 1, by omega⟩
  have hStep (t : State) (q : Nat) (ht : t.aside.Seamless) (hq : q + 1 ≤ 16) : (t.flrVf (q + 1)).aside = t.aside.flr (q + 1) :=
    State.flrVf_aside (by omega) hq (ht q)
  have hKept (t : State) (q : Nat) (ht : t.aside.Seamless) : (t.flrVf (q + 1)).aside.Seamless := by
    by_cases hq : q + 1 ≤ 16
    · rw [hStep t q ht hq]
      exact ht
    · rwa [State.flrVf_other (by omega)]
  refine (State.each_reaches (P := fun t => t.aside.Seamless) (Q := fun t => t.aside.Seamless ∧ t.aside.Cleared (p + 1))
    (f := fun t (q : Nat) => t.flrVf (q + 1)) (a := p) (fun t q ht => .inl (hKept t q ht)) (fun t q ht => ⟨hKept t q ht.1, ?_⟩)
    (fun t ht => ⟨hKept t p ht, ?_⟩) (List.range 16) (List.mem_range.2 (by omega)) s h).2
  · by_cases hq : q + 1 ≤ 16
    · rw [hStep t q ht.1 hq]
      exact ht.2.flr _
    · rw [State.flrVf_other (by omega)]
      exact ht.2
  · rw [hStep t p ht hHigh]
    exact Aside.flr_cleared ..

theorem State.setPhase_aside (s : State) (ph : ImgPhase) : (s.setPhase ph).aside = { s.aside with phase := ph } := by
  unfold State.setPhase
  split
  · have hSame : s.ob.phase = ph := by simpa using ‹(s.ob.phase == ph) = true›
    rw [← hSame]
    rfl
  · exact State.msix_aside ..

/-- A load that has not begun to switch is given up, and the image stays. -/
theorem State.flrLoad_aside (s : State) : ∃ l ph, s.flrLoad.aside = { s.aside with load := l, phase := ph } ∧
    (s.aside.phase ≠ .switching → l = none) := by
  unfold State.flrLoad
  split
  · split
    · exact ⟨_, _, rfl, fun h => absurd (beq_iff_eq.1 ‹(s.ob.phase == .switching) = true›) h⟩
    · exact ⟨_, _, State.setPhase_aside .., fun _ => rfl⟩
  · exact ⟨s.ob.load, s.ob.phase, rfl, fun _ => ‹s.ob.load = none›⟩

theorem State.testedCore_aside (s : State) (c : Nat) : (s.testedCore c).aside = s.aside := by
  unfold State.testedCore State.imageRegs
  split <;> rfl

theorem State.fitPort_aside (s : State) (i : Nat) (lanes : BitVec 8) : (s.fitPort i lanes).aside = s.aside :=
  s.aside_kept (F := (State.fitPort · i lanes)) (State.fitPort_withAside ..)

theorem State.fitReturn_aside (s : State) (cls i : Nat) : (s.fitReturn cls i).aside = s.aside :=
  s.aside_kept (F := (State.fitReturn · cls i)) (State.fitReturn_withAside ..)

theorem State.flrFit_aside (s : State) : s.flrFit.aside = { s.aside with fit := none } := by
  unfold State.flrFit
  split
  · split
    · dsimp only
      rw [State.msix_aside, State.fitReturn_aside, State.when_keeps State.aside _ _ _ (State.fitPort_aside ..)]
      split
      · exact State.testedCore_aside ..
      · rfl
    · rfl
  · rw [← ‹s.err.fit = none›]
    rfl

/-- What PF0's reset ends besides its VFs' part, the load and the fitting. -/
def Aside.pf0 (a : Aside) : Aside :=
  { a.flr 0 with cal := { a.cal with job := none }, jobs := [], latches := [], tangle := none, fit := none }

theorem Aside.Cleared.pf0 {a : Aside} {fn : Nat} (h : a.Cleared fn) : a.pf0.Cleared fn := h.flr 0

/-- PF0's reset once its VFs, the load and the fitting are done with. -/
def State.pf0Ends (s : State) : State :=
  let s := (s.flrFn 0).modBoot fun b => { b with act := b.act.map fun a => { a with fn := none } }
  { s with cal := { s.cal with job := none }, msr := { s.msr with jobs := [], latches := [], tangle := none } }

theorem State.flrPf0_eq (s : State) : s.flrPf0 = s.flrVfs.flrLoad.flrFit.pf0Ends := by
  unfold State.flrPf0 State.flrVfs State.pf0Ends
  rfl

theorem State.pf0Ends_aside {s : State} {a : Aside} (h : s.aside = { a with fit := none }) : s.pf0Ends.aside = a.pf0 := by
  have hEnds : s.pf0Ends.aside = { s.aside.pf0 with fit := s.aside.fit } := rfl
  rw [hEnds, h]
  rfl

/-- PF0's reset in terms of what stood before it: the load, a fitting, and what of the inbox and the live commands is PF0's or a VF's are gone. -/
theorem State.flrPf0_ends {s : State} (h : s.aside.Seamless) : ∃ i c l ph,
    s.flrPf0.aside = ({ s.aside with inbox := i, cmds := c, load := l, phase := ph } : Aside).pf0 ∧ (s.aside.phase ≠ .switching → l = none) ∧
      ∀ fn ≤ 16, s.flrPf0.aside.Cleared fn := by
  obtain ⟨i, c, hVfs⟩ := State.flrVfs_aside h
  obtain ⟨l, ph, hLoad, hNone⟩ := s.flrVfs.flrLoad_aside
  have hAside : s.flrPf0.aside = ({ s.flrVfs.aside with load := l, phase := ph } : Aside).pf0 := by
    rw [State.flrPf0_eq, State.pf0Ends_aside (State.flrFit_aside _), hLoad]
  have hPhase := congrArg Aside.phase hVfs
  refine ⟨i, c, l, ph, ?_, fun hOpen => hNone (by rw [hPhase]; exact hOpen), fun fn hHigh => ?_⟩
  · rw [hAside, hVfs]
  have hVf (hLow : 1 ≤ fn) := State.flrVfs_cleared h hLow hHigh
  rw [hAside]
  generalize s.flrVfs.aside = a at hVf
  rcases Nat.eq_zero_or_pos fn with rfl | hLow
  · exact Aside.flr_cleared { a with load := l, phase := ph } 0
  · exact Aside.Cleared.pf0 (a := { a with load := l, phase := ph }) (hVf hLow)

/-- What is of a function above 16 alone, as the statement says it. -/
theorem Aside.Cleared.above {a : Aside} (h : ∀ fn ≤ 16, a.Cleared fn) :
    (a.inbox.all fun e => 16 < e.fn) = true ∧ (a.cmds.all fun c => 16 < c.fn) = true := by
  refine ⟨List.all_eq_true.2 fun e he => ?_, List.all_eq_true.2 fun c hc => ?_⟩
  · exact decide_eq_true (Nat.lt_of_not_le fun hLe => (h e.fn hLe).1 e he rfl)
  · exact decide_eq_true (Nat.lt_of_not_le fun hLe => (h c.fn hLe).2 c hc rfl)

/-- PF0 enters D3hot, nothing else put aside changing. -/
def Aside.hot (a : Aside) : Aside := { a with enters := true }

theorem Aside.Seamless.hot_fits {a : Aside} (h : a.Seamless) : a.hot.Fits a := ⟨rfl, rfl, h⟩

/-- D3hot of PF0 is one of the values put aside. -/
theorem State.modFn_d3hot (s : State) : (s.modFn 0 fun f => { f with d3hot := true }) = s.withAside s.aside.hot := by
  simp [State.modFn, State.modHif, State.withAside, State.aside, Aside.hot]

end Sys2Proof.Machine
end

section
/-! CLAIM. Resets of functions and D3hot: the statement O18. -/

namespace Sys2Proof.Machine

theorem exec_vfFlr {vf : Nat} {s : State} (hReduce : (s.seamPart (vf - 1)).reduce = none) (hQuiet : s.wlk.deadPending = []) :
    exec (.vfFlr vf) s = .next (s.flrVf vf) :=
  congrArg Host.Outcome.next (State.settle_quiet ((congrArg WlkSt.deadPending (State.flrVf_wlk hReduce)).trans hQuiet))

theorem exec_pf0Flr (s : State) : exec .pf0Flr s = .next s.flrPf0.settle := by
  show execPf0Flr s = _
  unfold execPf0Flr
  rfl

theorem exec_d3hotEntry_vf {fn : Nat} {s : State} (hVf : fn ≠ 0) (hReduce : (s.seamPart (fn - 1)).reduce = none)
    (hQuiet : s.wlk.deadPending = []) : exec (.d3hotEntry fn) s = .next ((s.flrVf fn).modFn fn fun f => { f with d3hot := true }) := by
  have hFlr : s.toD3hot fn = (s.flrVf fn).modFn fn fun f => { f with d3hot := true } := by simp [State.toD3hot, State.flr, hVf]
  have hStill : ((s.flrVf fn).modFn fn fun f => { f with d3hot := true }).wlk.deadPending = [] :=
    (congrArg WlkSt.deadPending (State.flrVf_wlk hReduce)).trans hQuiet
  show Host.Outcome.next (s.toD3hot fn).settle = _
  rw [hFlr, State.settle_quiet hStill]

theorem State.flrPf0_seamless {s : State} (h : s.aside.Seamless) : s.flrPf0.aside.Seamless := by
  obtain ⟨i, c, l, ph, hAside, -⟩ := State.flrPf0_ends h
  rw [hAside]
  exact h

/-- The packets and the deaths that PF0's reset brings about do not depend on its D3hot. -/
theorem exec_d3hotEntry_pf0 {s : State} (h : s.aside.Seamless) :
    exec (.d3hotEntry 0) s = .next (s.flrPf0.settle.modFn 0 fun f => { f with d3hot := true }) := by
  have hFits := (State.flrPf0_seamless h).hot_fits
  show Host.Outcome.next (s.flrPf0.modFn 0 fun f => { f with d3hot := true }).settle = _
  rw [State.modFn_d3hot, State.settle_withAside _ hFits, State.modFn_d3hot, State.settle_aside _ hFits.seamless]

/-- Settles O18: a VF's reset is its own walk over what it holds; PF0's sends packets as a port under fitting returns, and what follows
from them reads and writes nothing of what the reset ends, nor D3hot. -/
theorem functionLevelResets : Obligations.FunctionLevelResets := by
  unfold Obligations.FunctionLevelResets
  refine ⟨?vf, ?pf0, ?d3hot⟩
  case vf =>
    intro vf s hLow hHigh hLen hReduce hQuiet
    have hExec := exec_vfFlr hReduce hQuiet
    rw [State.flrVf_eq hLow hHigh hReduce] at hExec
    obtain ⟨hReq, hCmd⟩ := State.flrFn_stops hLen
    obtain ⟨hInbox, hCmds⟩ := s.aside.flr_cleared vf
    have hLive (q : Nat) := State.dropSeqs_part (s := s.flrFn vf) (p := vf - 1) (q := q)
    obtain ⟨o, m, hDropped⟩ := (s.flrFn vf).dropped_dropSeqs (vf - 1)
    rw [hDropped] at hExec hLive
    exact ⟨_, hExec, hReq, hCmd, hInbox, hCmds, hLive, rfl, fun f hf => nth_upd_other _ _ _ hf, rfl, rfl⟩
  case pf0 =>
    intro s hReduce hQuiet
    obtain ⟨i, c, l, ph, hAside, hLoad, hCleared⟩ := State.flrPf0_ends (s := s) hReduce
    obtain ⟨hInbox, hCmds⟩ := Aside.Cleared.above hCleared
    have hKept := State.settle_aside s.flrPf0 (State.flrPf0_seamless hReduce)
    have hExec := exec_pf0Flr s
    rw [← hKept] at hInbox hCmds
    rw [hAside] at hKept
    generalize s.flrPf0.settle = u at hInbox hCmds hKept hExec
    exact ⟨u, hExec, hInbox, hCmds, congrArg (·.cal.job) hKept, congrArg Aside.jobs hKept, congrArg Aside.latches hKept,
      congrArg Aside.tangle hKept, congrArg Aside.fit hKept,
      fun hOpen => ⟨(congrArg Aside.load hKept).trans (hLoad hOpen), congrArg Aside.image hKept⟩, congrArg Aside.otp hKept⟩
  case d3hot =>
    intro fn s hReduce hQuiet
    by_cases hPf0 : fn = 0
    · subst hPf0
      exact ⟨_, exec_pf0Flr s, exec_d3hotEntry_pf0 hReduce, fun hLow => absurd hLow (by decide)⟩
    · refine ⟨s.flrVf fn, ?_, exec_d3hotEntry_vf hPf0 (hReduce _) hQuiet, fun hLow hHigh => ?_⟩
      · rw [if_neg hPf0]
        exact exec_vfFlr (hReduce _) hQuiet
      · have hAside := State.flrVf_aside hLow hHigh (hReduce (fn - 1))
        exact (hAside ▸ s.aside.flr_cleared fn : (s.flrVf fn).aside.Cleared fn).1

end Sys2Proof.Machine
end

section
/-! SUPPORT. What a Thimble request that its requester may make leaves: done, its effect with the ledger entry and the response; refused
by its own codes, the record, the entry and the response (R397 to R399, R417). -/

namespace Sys2Proof.Machine

/-! ## The ledger and the records of requests -/

/-- One entry appended to the ledger, with what leaves through the host interface (vector 5). -/
theorem State.ledgerAppend_adds (s : State) (role result op part remaining : Nat) (old new_ : BitVec 256) (actor : BitVec 512) :
    ∃ (e : LedgerEntry) (o : List HostOut) (m : SMap MsixSt), s.ledgerAppend role result op part remaining old new_ actor = { s with
        hif := { s.hif with out := o, msix := m }
        thm := { s.thm with flash := { s.thm.flash with ledger := e :: s.thm.flash.ledger } } } ∧
      e.seq = s.thm.flash.ledger.length ∧ e.time = s.time.now ∧ e.opcode = BitVec.ofNat 8 op ∧ e.result = BitVec.ofNat 8 result := by
  unfold State.ledgerAppend
  dsimp only
  obtain ⟨o, m, h⟩ := State.msix_changes (s.modFlash fun f => { f with ledger := _ :: f.ledger }) 0 5
  exact ⟨_, o, m, h, rfl, rfl, rfl, rfl⟩

/-- An absorbed record that no function accounts for has no copy in a partition log. -/
theorem State.record_absorbed_ptn (s : State) (unit source code part : Nat) (detail : List Byte) :
    (s.record .absorbed .module unit source code part detail).ptn = s.ptn := by
  have hWrite (t : State) (r : ErrRec) : (t.writeRecord .absorbed .module r).ptn = t.ptn := by
    rw [State.writeRecord_eq]
    exact (State.msix_ptn ..).trans (State.when_keeps State.ptn (t.modErr _) _ (fun s => s.platformEvent 10 1) (State.platformEvent_ptn ..))
  unfold State.record
  dsimp only
  generalize hx : State.when _ _ _ = x
  have hPtn : x.ptn = s.ptn := by
    rw [← hx, State.when_keeps State.ptn _ _ _ rfl]
    split <;> rfl
  split
  · exact (hWrite ..).trans hPtn
  · split
    · exact (hWrite ..).trans hPtn
    · exact hPtn

/-! ## Who makes a request -/

@[simp] theorem State.roles_touchSession (s : State) (id : Nat) (x : Session) : (s.touchSession id).roles x = s.roles x := rfl

/-- Of the roles that a request allows, the first that its codes do not exclude is the first one, where they do not exclude that. -/
theorem find_role_done {l : List Role} {allowed free : Role → Bool} {role : Role} (h : l.find? allowed = some role)
    (hFree : free role = true) : ((l.filter allowed).find? free).orElse (fun _ => l.find? allowed) = some role := by
  obtain ⟨r, hr⟩ : ∃ r, l.filter allowed = role :: r := List.head?_eq_some_iff.1 (List.head?_filter.trans h)
  rw [hr, List.find?_cons_of_pos hFree]
  rfl

/-- Where they exclude every role, a request is judged by the first. -/
theorem find_role_refused {l : List Role} {allowed free : Role → Bool} (h : ∀ w ∈ l, allowed w = true → free w = false) :
    ((l.filter allowed).find? free).orElse (fun _ => l.find? allowed) = l.find? allowed := by
  have hNone : (l.filter allowed).find? free = none := List.find?_eq_none.2 fun w hw => by
    obtain ⟨hMem, hAllowed⟩ := List.mem_filter.1 hw
    simp [h w hMem hAllowed]
  rw [hNone]
  rfl

/-! ## What a request leaves -/

/-- Nothing of a state changed but what an answer adds: in the ledger, in the Thimble's output, through the host interface. -/
def State.Answered (s t : State) : Prop := ∃ o m l out, t = { s with
  hif := { s.hif with out := o, msix := m }
  thm := { s.thm with flash := { s.thm.flash with ledger := l }, out := out } }

/-- What an effect has to leave alone for its answer to continue the state that the request met. -/
def State.Unanswered (s t : State) : Prop := t.thm.out = s.thm.out ∧ t.thm.flash.ledger = s.thm.flash.ledger ∧ t.time = s.time

/-- What a refused request leaves: the settings of the Thimble, the partitions, the cores, the alterations. -/
def State.Refused (s t : State) : Prop :=
  (∃ x l n out, t.thm = { s.thm with sessions := x, flash := { s.thm.flash with ledger := l, unlogged := n }, out := out }) ∧
    t.ptn = s.ptn ∧ t.cores = s.cores ∧ t.cal = s.cal

section Request
variable {s : State} {r : ThimbleReq} {k : ReqKind} {allowed : Role → Bool} {left : Nat} {codes : State → Role → List Nat}
  {f : State → Role → State} {role : Role} {c : Instr}

/-- A request that is not ledgered, done: its effect and the response. -/
theorem State.Asked.done (h : s.Asked r allowed role) (hExec : exec c s = .next (s.thmRequest r k allowed left codes f))
    (hKind : k.ledger = none) (hCodes : ∀ id, codes (s.touchSession id) role = []) :
    ∃ id, exec c s = .next ((f (s.touchSession id) role).respond k.op r.reqId 0 []) := by
  obtain ⟨hOp, hZero, x, hx, hRole⟩ := h
  refine ⟨x.id, hExec.trans (congrArg _ ?_)⟩
  have hWho := find_role_done (free := fun w => (codes (s.touchSession x.id) w).isEmpty) hRole (by rw [hCodes]; rfl)
  unfold State.thmRequest
  simp only [hx, hOp, hZero, State.roles_touchSession]
  rw [hWho]
  simp only [hCodes, hKind]
  rfl

/-- A ledgered request done, one that consumes an allowance or while the ledger has room: its effect, the ledger entry, the response. -/
theorem State.Asked.done_ledgered (h : s.Asked r allowed role)
    (hExec : exec c s = .next (s.thmRequest r k allowed left codes f)) (hKind : k.ledger.isSome = true)
    (hRoom : k.consumes = true ∨ s.ledgerLow = false) (hCodes : ∀ id, codes (s.touchSession id) role = [])
    (hEffect : ∀ id, (s.touchSession id).Unanswered (f (s.touchSession id) role)) :
    ∃ id u, exec c s = .next u ∧ s.Responds u r k.op 0 ∧ s.Ledgers u k.op 0 ∧
      (f (s.touchSession id) role).Answered u := by
  obtain ⟨hOp, hZero, x, hx, hRole⟩ := h
  obtain ⟨i, hi⟩ := Option.isSome_iff_exists.1 hKind
  obtain ⟨hOut, hLedger, hTime⟩ := hEffect x.id
  have hWho := find_role_done (free := fun w => (codes (s.touchSession x.id) w).isEmpty) hRole (by rw [hCodes]; rfl)
  have hFull : (k.ledger.isSome && !k.consumes && (s.touchSession x.id).ledgerLow) = false := by
    rcases hRoom with hUse | hLow
    · simp [hUse]
    · exact Bool.and_eq_false_iff.2 (.inr hLow)
  obtain ⟨e, o, m, hAppend, hSeq, hAt, hOpcode, hResult⟩ := (f (s.touchSession x.id) role).ledgerAppend_adds (roleCode role) 0 k.op
    (rolePart role) _ i.old i.new_ (x.key.getD 0)
  refine ⟨x.id, _, hExec, ?_⟩
  have hEnd : s.thmRequest r k allowed left codes f = State.respond { f (s.touchSession x.id) role with
      hif := { (f (s.touchSession x.id) role).hif with out := o, msix := m }
      thm := { (f (s.touchSession x.id) role).thm with
        flash := { (f (s.touchSession x.id) role).thm.flash with ledger := e :: (f (s.touchSession x.id) role).thm.flash.ledger } } }
      k.op r.reqId 0 [] := by
    unfold State.thmRequest
    simp only [hx, hOp, hZero, State.roles_touchSession]
    rw [hWho]
    simp only [hFull]
    simp only [hCodes, hi]
    exact congrArg (State.respond · k.op r.reqId 0 []) hAppend
  rw [hEnd]
  refine ⟨congrArg _ hOut, ⟨e, congrArg _ hLedger, ?_, ?_, hOpcode, hResult⟩, ⟨_, _, _, _, rfl⟩⟩
  · rw [hSeq, hLedger]
    rfl
  · rw [hAt, hTime]
    rfl

/-- The response of a refused request. -/
theorem State.refused_respond {t : State} {l : List LedgerEntry} {n : BitVec 16} {op code : Nat}
    (hThm : t.thm = { s.thm with flash := { s.thm.flash with ledger := l, unlogged := n } }) (hPtn : t.ptn = s.ptn)
    (hCores : t.cores = s.cores) (hCal : t.cal = s.cal) :
    s.Responds (t.respond op r.reqId code []) r op code ∧ s.Refused (t.respond op r.reqId code []) := by
  have hEnd : (t.respond op r.reqId code []).thm = { t.thm with
      out := .result (BitVec.ofNat 8 op) r.reqId (BitVec.ofNat 8 code) [] :: t.thm.out } := rfl
  rw [hThm] at hEnd
  exact ⟨congrArg ThmSt.out hEnd, ⟨_, _, _, _, hEnd⟩, hPtn, hCores, hCal⟩

/-- A refusal: the response, in the ledger where the request is ledgered and there is room; no setting changes. -/
theorem State.refuseReq_leaves (s : State) (k : ReqKind) (r : ThimbleReq) (rc rp : Nat) (actor : BitVec 512) (code : Nat) :
    s.Responds (s.refuseReq k r rc rp actor code) r k.op code ∧ s.Refused (s.refuseReq k r rc rp actor code) ∧
      (k.ledger.isSome = true → s.ledgerLow = false → s.Ledgers (s.refuseReq k r rc rp actor code) k.op code) := by
  have hThm := s.record_thm .absorbed .module (unitId 0x0D 0) 0x08 code noPart (toBytes 1 k.op ++ toBytes 1 rc)
  have hPtn := s.record_absorbed_ptn (unitId 0x0D 0) 0x08 code noPart (toBytes 1 k.op ++ toBytes 1 rc)
  have hCores := s.record_cores .absorbed .module (unitId 0x0D 0) 0x08 code noPart (toBytes 1 k.op ++ toBytes 1 rc)
  have hCal := s.record_cal .absorbed .module (unitId 0x0D 0) 0x08 code noPart (toBytes 1 k.op ++ toBytes 1 rc)
  have hTime := s.record_time .absorbed .module (unitId 0x0D 0) 0x08 code noPart (toBytes 1 k.op ++ toBytes 1 rc)
  unfold State.refuseReq
  dsimp only
  generalize s.record .absorbed .module (unitId 0x0D 0) 0x08 code noPart (toBytes 1 k.op ++ toBytes 1 rc) = t at *
  have hLow : t.ledgerLow = s.ledgerLow := by rw [State.ledgerLow, hThm]; rfl
  cases hk : k.ledger with
  | none =>
    obtain ⟨hResponds, hRefused⟩ := State.refused_respond (op := k.op) (code := code) (r := r) hThm hPtn hCores hCal
    exact ⟨hResponds, hRefused, nofun⟩
  | some i =>
    dsimp only
    rw [hLow]
    split
    · obtain ⟨hResponds, hRefused⟩ := State.refused_respond (s := s) (r := r) (op := k.op) (code := code)
        (t := t.modFlash fun f => { f with unlogged := satAdd f.unlogged 1 })
        (congrArg (fun x : ThmSt => { x with flash := { x.flash with unlogged := satAdd x.flash.unlogged 1 } }) hThm) hPtn hCores hCal
      exact ⟨hResponds, hRefused, fun _ hRoom => absurd (‹s.ledgerLow = true›.symm.trans hRoom) nofun⟩
    · generalize hu : State.ledgerAppend _ _ _ _ _ _ _ _ _ = u
      obtain ⟨e, o, m, hAppend, hSeq, hAt, hOpcode, hResult⟩ := t.ledgerAppend_adds rc code k.op rp _ i.old i.new_ actor
      obtain rfl := hu.symm.trans hAppend
      obtain ⟨hResponds, hRefused⟩ := State.refused_respond (s := s) (r := r) (op := k.op) (code := code)
        (t := { t with hif := { t.hif with out := o, msix := m }
                       thm := { t.thm with flash := { t.thm.flash with ledger := e :: t.thm.flash.ledger } } })
        (congrArg (fun x : ThmSt => { x with flash := { x.flash with ledger := e :: x.flash.ledger } }) hThm) hPtn hCores hCal
      exact ⟨hResponds, hRefused, fun _ _ =>
        ⟨e, congrArg (fun x : ThmSt => e :: x.flash.ledger) hThm, hSeq.trans (by rw [hThm]), hAt.trans (by rw [hTime]), hOpcode, hResult⟩⟩

/-- A request refused by its own codes, the lowest of which answers; one that meets a full ledger apart. -/
theorem State.Asked.refused {code : Nat} (h : s.Asked r allowed role)
    (hExec : exec c s = .next (s.thmRequest r k allowed left codes f)) (hKind : k.ledger = none ∨ k.consumes = true)
    (hExcluded : ∀ x id, s.session r.session = some x → ∀ w ∈ s.roles x, allowed w = true → codes (s.touchSession id) w ≠ [])
    (hCodes : ∀ id, lowest (codes (s.touchSession id) role) = some code) (hCode : code ≠ 0xA) :
    ∃ u, exec c s = .next u ∧ s.Responds u r k.op code ∧ s.Refused u ∧
      (k.ledger.isSome = true → s.ledgerLow = false → s.Ledgers u k.op code) := by
  obtain ⟨hOp, hZero, x, hx, hRole⟩ := h
  have hWho := (find_role_refused (l := s.roles x) (allowed := allowed) (free := fun w => (codes (s.touchSession x.id) w).isEmpty)
    fun w hw hAllowed => by simpa using hExcluded x x.id hx w hw hAllowed).trans hRole
  have hFull : (k.ledger.isSome && !k.consumes && (s.touchSession x.id).ledgerLow) = false := by
    rcases hKind with hNone | hUse
    · simp [hNone]
    · simp [hUse]
  have hEnd : s.thmRequest r k allowed left codes f =
      (s.touchSession x.id).refuseReq k r (roleCode role) (rolePart role) (x.key.getD 0) code := by
    unfold State.thmRequest
    simp only [hx, hOp, hZero, State.roles_touchSession]
    rw [hWho]
    simp only [hFull]
    simp [hCodes, hCode]
  rw [hExec, hEnd]
  obtain ⟨hResponds, ⟨⟨y, l, n, out, hThm⟩, hRest⟩, hLedgers⟩ :=
    (s.touchSession x.id).refuseReq_leaves k r (roleCode role) (rolePart role) (x.key.getD 0) code
  exact ⟨_, rfl, hResponds, ⟨⟨y, l, n, out, hThm⟩, hRest⟩, hLedgers⟩

end Request

end Sys2Proof.Machine
end

section
/-! CLAIM. The settings that last only advance: the statement O27. -/

namespace Sys2Proof.Machine

/-! ## What the requests do -/

/-- Skeins that go on from a debug halt are a change of cores alone. -/
theorem State.releaseHalted_cores (s : State) : ∃ c, s.releaseHalted = { s with cores := c } := by
  unfold State.releaseHalted
  refine State.each_induct (P := fun t => ∃ c, t = { s with cores := c }) _ _ (fun t c ht => ?_) s ⟨_, rfl⟩
  obtain ⟨l, rfl⟩ := ht
  exact ite_keeps (P := fun t : State => ∃ c, t = { s with cores := c }) ⟨_, rfl⟩ ⟨_, rfl⟩

theorem State.Unanswered.releaseHalted {s t : State} (h : s.Unanswered t) : s.Unanswered t.releaseHalted := by
  obtain ⟨c, hc⟩ := t.releaseHalted_cores
  rw [hc]
  exact h

theorem State.persistCodes_nil {s : State} {w : Role} (h : isOperator w = true → s.policyBit 3 = true) : s.persistCodes w = [] := by
  unfold State.persistCodes
  cases hw : isOperator w
  · rfl
  · simp [h hw]

theorem State.persistCodes_forbidden {s : State} {w : Role} (hw : isOperator w = true) (h : s.policyBit 3 = false) :
    s.persistCodes w = [5] := by simp [State.persistCodes, hw, h]

/-- The owner's role comes before the operator's: who persists as an operator is not the owner. -/
theorem State.persists_as_operator {s : State} {x : Session} {role : Role}
    (h : (s.roles x).find? (fun w => isOwner w || isOperator w) = some role) (hRole : isOperator role = true) :
    ∀ w ∈ s.roles x, (isOwner w || isOperator w) = true → isOperator w = true := by
  intro w hw hAllowed
  refine (Bool.or_eq_true_iff.1 hAllowed).resolve_left fun hOwner => ?_
  obtain rfl : w = .owner := beq_iff_eq.1 hOwner
  have hFirst : (s.roles x).find? (fun w => isOwner w || isOperator w) = some .owner := by
    unfold State.roles factoryRole State.keyRoles at hw ⊢
    cases hk : x.key with
    | none => simp [hk] at hw
    | some k =>
      have hOwns : (s.thm.otp.owner == some k) = true := by
        simp only [hk] at hw
        refine Decidable.byContradiction fun hNot => ?_
        rw [if_neg hNot] at hw
        simp at hw
      simp only [hOwns, if_true]
      split <;> rfl
  rw [hFirst] at h
  cases h
  cases hRole

/-- An operator whose persisting the policy does not allow is refused with code 5, whatever the allowances. -/
theorem State.Asked.persist_forbidden {s : State} {r : ThimbleReq} {k : ReqKind} {left : Nat} {extra : State → List Nat}
    {f : State → Role → State} {role : Role} {c : Instr} (h : s.Asked r (fun w => isOwner w || isOperator w) role)
    (hExec : exec c s = .next (s.thmRequest r k (fun w => isOwner w || isOperator w) left (fun s w => s.persistCodes w ++ extra s) f))
    (hKind : k.consumes = true) (hRole : isOperator role = true) (hBarred : s.policyBit 3 = false)
    (hExtra : ∀ id, extra (s.touchSession id) = []) : ∃ u, exec c s = .next u ∧ s.Responds u r k.op 5 ∧ s.Refused u := by
  have hCodes (id : Nat) {w : Role} (hw : isOperator w = true) :
      (s.touchSession id).persistCodes w ++ extra (s.touchSession id) = [5] := by
    rw [hExtra, State.persistCodes_forbidden (s := s.touchSession id) hw hBarred]
    rfl
  obtain ⟨-, -, y, hy, hFirst⟩ := id h
  obtain ⟨u, hDone, hResponds, hRefused, -⟩ := h.refused hExec (.inr hKind) (fun x id hx w hw hAllowed => by
    obtain rfl : y = x := Option.some.inj (hy.symm.trans hx)
    exact fun hNil => List.cons_ne_nil _ _ ((hCodes id (State.persists_as_operator hFirst hRole w hw hAllowed)).symm.trans hNil))
    (fun id => congrArg lowest (hCodes id hRole)) (by decide)
  exact ⟨u, hDone, hResponds, hRefused⟩

/-- Settles O27: each request is done, or refused by its codes, as every request is; what is left is its own effect. -/
theorem lifetimeSettingsAdvance : Obligations.LifetimeSettingsAdvance := by
  unfold Obligations.LifetimeSettingsAdvance
  refine ⟨?debug, ?optin, ?svn, ?svnRefused, ?geometry, ?alterations, ?forbidden, ?pattern, ?ledger⟩
  case debug =>
    intro r p s hAsked hMore hMost
    have hCodes : (if 2 < p then [3] else []) ++ (if p ≤ s.thm.otp.debug then [8] else []) = ([] : List Nat) := by
      rw [if_neg (by omega), if_neg (by omega)]
      rfl
    obtain ⟨id, u, hExec, hResponds, hLedgers, o, m, l, out, rfl⟩ := hAsked.done_ledgered (c := .advanceDebug r p) rfl rfl (.inl rfl)
      (fun _ => hCodes) (fun _ => State.Unanswered.releaseHalted ⟨rfl, rfl, rfl⟩)
    refine ⟨_, hExec, hResponds, hLedgers, ?_⟩
    obtain ⟨c, hc⟩ := ((s.touchSession id).modOtp fun o => { o with debug := p }).releaseHalted_cores
    rw [hc]
    exact ⟨rfl, rfl, rfl, rfl⟩
  case optin =>
    intro r permit p s hAsked hRoom hp
    obtain ⟨id, u, hExec, hResponds, hLedgers, o, m, l, out, rfl⟩ := hAsked.done_ledgered (c := .debugOptin r permit) rfl rfl (.inr hRoom)
      (fun _ => rfl) (fun _ => State.Unanswered.releaseHalted ⟨rfl, rfl, rfl⟩)
    refine ⟨_, hExec, hResponds, hLedgers, ?_⟩
    obtain ⟨c, hc⟩ := ((s.touchSession id).modPart p fun x => { x with optin := permit }).releaseHalted_cores
    dsimp only [tenantOf]
    rw [hc]
    exact ⟨nth_upd_same _ _ _ _ hp, fun q hq => nth_upd_other _ _ _ hq, rfl, rfl⟩
  case svn =>
    intro r n s hAsked hMore hMost hThimble hHub
    have hCodes : (if 255 < n then [3] else []) ++
        (if s.runningBank.thimbleSvn < n || s.runningBank.hubSvn < n || n ≤ s.thm.otp.minSvn then [8] else []) = ([] : List Nat) := by
      rw [if_neg (by omega), if_neg (by simp [State.runningBank, Nat.not_lt.2 hThimble, Nat.not_lt.2 hHub, hMore])]
      rfl
    obtain ⟨id, u, hExec, hResponds, hLedgers, o, m, l, out, rfl⟩ := hAsked.done_ledgered (c := .raiseSvn r n) rfl rfl (.inl rfl)
      (fun _ => hCodes) (fun _ => ⟨rfl, rfl, rfl⟩)
    exact ⟨_, hExec, hResponds, hLedgers, rfl, rfl, rfl⟩
  case svnRefused =>
    intro r n s hAsked hMost hBound
    have hCodes : (if 255 < n then [3] else []) ++
        (if s.runningBank.thimbleSvn < n || s.runningBank.hubSvn < n || n ≤ s.thm.otp.minSvn then [8] else []) = [8] := by
      rw [if_neg (by omega), if_pos (by rcases hBound with h | h | h <;> simp [State.runningBank, h])]
      rfl
    obtain ⟨u, hExec, hResponds, ⟨⟨x, l, k, out, hThm⟩, hPtn, hCores, hCal⟩, hLedgers⟩ := hAsked.refused (c := .raiseSvn r n) (code := 8)
      rfl (.inr rfl) (fun _ _ _ _ _ _ hNil => List.cons_ne_nil _ _ (hCodes.symm.trans hNil)) (fun _ => congrArg lowest hCodes) (by decide)
    exact ⟨u, hExec, hResponds, hLedgers rfl, by rw [hThm], hCores⟩
  case geometry =>
    intro r role s hAsked hMay hLeft
    have hCodes : s.persistCodes role ++ (if 32 ≤ s.thm.otp.geoms then [4] else []) = [] := by
      rw [State.persistCodes_nil hMay, if_neg (by omega)]
      rfl
    obtain ⟨id, u, hExec, hResponds, hLedgers, o, m, l, out, rfl⟩ := hAsked.done_ledgered (c := .persistGeometry r) rfl rfl (.inl rfl)
      (fun _ => hCodes) (fun _ => ⟨rfl, rfl, rfl⟩)
    exact ⟨_, hExec, hResponds, hLedgers, rfl, rfl, rfl, rfl⟩
  case alterations =>
    intro r role s hAsked hMay hLeft
    have hCodes : s.persistCodes role ++ (if 64 ≤ s.thm.otp.alterHash.length then [4] else []) = [] := by
      rw [State.persistCodes_nil hMay, if_neg (by omega)]
      rfl
    obtain ⟨id, u, hExec, hResponds, hLedgers, o, m, l, out, rfl⟩ := hAsked.done_ledgered (c := .persistAlterations r) rfl rfl (.inl rfl)
      (fun _ => hCodes) (fun _ => ⟨rfl, rfl, rfl⟩)
    exact ⟨_, hExec, hResponds, hLedgers, rfl, rfl, rfl, rfl, rfl, rfl⟩
  case forbidden =>
    intro r role s hAsked hOperator hBarred hGeoms hAlters c hc
    have hKept {u : State} (h : s.Refused u) : u.thm.otp = s.thm.otp ∧ u.thm.flash.geom = s.thm.flash.geom ∧
        u.thm.flash.alters = s.thm.flash.alters ∧ u.cal = s.cal ∧ u.ptn = s.ptn := by
      obtain ⟨⟨x, l, n, out, hThm⟩, hPtn, -, hCal⟩ := h
      exact ⟨by rw [hThm], by rw [hThm], by rw [hThm], hCal, hPtn⟩
    rcases List.mem_cons.1 hc with rfl | hc
    · obtain ⟨u, hExec, hResponds, hRefused⟩ := hAsked.persist_forbidden (c := .persistGeometry r) rfl rfl hOperator hBarred
        fun _ => if_neg (Nat.not_le.2 hGeoms)
      exact ⟨u, hExec, hResponds, hKept hRefused⟩
    · obtain rfl := List.mem_singleton.1 hc
      obtain ⟨u, hExec, hResponds, hRefused⟩ := hAsked.persist_forbidden (c := .persistAlterations r) rfl rfl hOperator hBarred
        fun _ => if_neg (Nat.not_le.2 hAlters)
      exact ⟨u, hExec, hResponds, hKept hRefused⟩
  case pattern =>
    intro r pattern lock s hAsked hRoom hOpen
    obtain ⟨id, u, hExec, hResponds, hLedgers, o, m, l, out, rfl⟩ := hAsked.done_ledgered (c := .writePattern r pattern lock) rfl rfl
      (.inr hRoom) (fun _ => if_neg (ne_true_of_eq_false hOpen)) (fun _ => ⟨rfl, rfl, rfl⟩)
    exact ⟨_, hExec, hResponds, hLedgers, rfl, rfl, rfl⟩
  case ledger =>
    intro r seq count x s hOp hZero hx hRoles
    have hExec : exec (.readLedger r seq count) s =
        .next ((s.touchSession x.id).respond 0x11 r.reqId 0 (((s.thm.flash.ledger.reverse).drop seq).take count)) := by
      show execReadLedger r seq count s = _
      simp only [execReadLedger, hx]
      exact if_pos (by simp [hOp, hZero, hRoles])
    exact ⟨_, hExec, rfl, rfl, rfl, rfl⟩

end Sys2Proof.Machine
end

section
/-! SUPPORT. What a write by the hub or firmware leaves of the cores, and what their changes of a partition's translation leave of
everything else (R217, R218, R223, R226, R404, R405). -/

namespace Sys2Proof.Machine

/-! ## A write through the caches -/

/-- A change of memory, and of the cores nothing but lines that left their L1D. -/
def State.Rewritten (s t : State) : Prop := (∃ c m, t = { s with cores := c, mem := m }) ∧ s.SameCores t

theorem State.SameCores.trans {s t u : State} (h : s.SameCores t) (k : t.SameCores u) : s.SameCores u := fun c => by
  have hLast := k c
  rw [h c] at hLast
  exact hLast

theorem State.Rewritten.refl (s : State) : s.Rewritten s := ⟨⟨_, _, rfl⟩, fun _ => rfl⟩

theorem State.Rewritten.trans {s t u : State} (h : s.Rewritten t) (k : t.Rewritten u) : s.Rewritten u := by
  obtain ⟨⟨c, m, hFirst⟩, hSame⟩ := h
  obtain ⟨⟨c', m', hNext⟩, hSame'⟩ := k
  exact ⟨⟨c', m', by rw [hNext, hFirst]⟩, hSame.trans hSame'⟩

theorem State.rewritten_modMem (s : State) (f : MemSt → MemSt) : s.Rewritten (s.modMem f) := ⟨⟨_, _, rfl⟩, fun _ => rfl⟩

theorem State.rewritten_modLine (s : State) (line : Nat) (f : Way → Way) : s.Rewritten (s.modLine line f) :=
  ⟨⟨_, _, rfl⟩, fun _ => rfl⟩

theorem State.rewritten_each {α : Type} (s : State) (l : List α) {f : State → α → State} (h : ∀ (t : State) a, t.Rewritten (f t a)) :
    s.Rewritten (s.each l f) := State.each_induct l f (fun _ a hu => hu.trans (h _ a)) s (.refl s)

theorem State.rewritten_when (s : State) (b : Bool) {f : State → State} (h : s.Rewritten (f s)) : s.Rewritten (s.when b f) := by
  cases b
  · exact .refl s
  · exact h

theorem State.rewritten_dropL1d (s : State) (c line : Nat) : s.Rewritten (s.dropL1d c line) := by
  refine ⟨⟨_, _, rfl⟩, fun d => ?_⟩
  by_cases hd : d = c
  · subst hd
    simp [State.dropL1d]
  · simp [State.dropL1d, State.core_modCore_other _ _ hd]

theorem State.rewritten_unshare (s : State) (w : Way) : s.Rewritten (s.unshare w) := s.rewritten_each _ fun t c => t.rewritten_dropL1d c w.tag

theorem State.rewritten_evict (s : State) (w : Way) : s.Rewritten (s.evict w) := by
  unfold State.evict
  exact (s.rewritten_unshare w).trans (State.rewritten_when _ _ (State.rewritten_modMem ..))

theorem State.rewritten_lpdWake (s : State) (a : Nat) : s.Rewritten (s.lpdWake a) := ite_keeps (s.rewritten_modMem _) (.refl s)

theorem State.rewritten_l2Touch (s : State) (line : Nat) : s.Rewritten (s.l2Touch line) := by
  unfold State.l2Touch
  dsimp only
  split
  · exact s.rewritten_modMem _
  · exact .refl s

theorem State.rewritten_l2Access (s : State) (line owner hint : Nat) : s.Rewritten (s.l2Access line owner hint) := by
  unfold State.l2Access
  dsimp only
  split
  · exact s.rewritten_l2Touch line
  · split
    · exact .refl s
    · split
      · exact (s.rewritten_modMem _).trans (State.rewritten_evict ..)
      · exact s.rewritten_modMem _

theorem State.rewritten_dirty (s : State) (line : Nat) : s.Rewritten (s.dirty line) := by
  unfold State.dirty
  split
  · exact ite_keeps (.refl s) (s.rewritten_modLine ..)
  · exact .refl s

theorem State.rewritten_invalDir (s : State) (a n : Nat) : s.Rewritten (s.invalDir a n) := by
  refine ite_keeps (.refl s) (s.rewritten_each _ fun t line => ?_)
  split
  · exact .refl t
  · exact (t.rewritten_unshare _).trans (State.rewritten_modLine ..)

theorem State.rewritten_rekeyLine (s : State) (key line : Nat) : s.Rewritten (s.rekeyLine key line) :=
  ite_keeps (.refl s) ((s.rewritten_modMem _).trans (State.rewritten_modMem ..))

theorem State.rewritten_keyPoke (s : State) (key a : Nat) (bs : List Byte) : s.Rewritten (s.keyPoke key a bs) :=
  ite_keeps (s.rewritten_modMem _) ((s.rewritten_each _ fun t l => t.rewritten_rekeyLine key l).trans (State.rewritten_modMem ..))

theorem State.rewritten_passWrite (s : State) (owner a n : Nat) : s.Rewritten (s.passWrite owner a n) :=
  ite_keeps (.refl s) (s.rewritten_each _ fun t _ =>
    ite_keeps ((t.rewritten_l2Touch _).trans (State.rewritten_dirty ..)) (ite_keeps (t.rewritten_modMem _) (.refl t)))

theorem State.rewritten_homeWrite (s : State) (part key a : Nat) (bs : List Byte) : s.Rewritten (s.homeWrite part key a bs) :=
  (((s.rewritten_invalDir ..).trans (State.rewritten_lpdWake ..)).trans (State.rewritten_passWrite ..)).trans (State.rewritten_keyPoke ..)

theorem State.rewritten_normalWrite (s : State) (part hint key a : Nat) (bs : List Byte) :
    s.Rewritten (s.normalWrite part hint key a bs) :=
  ((s.rewritten_lpdWake a).trans (State.rewritten_l2Access ..)).trans (ite_keeps
    (((State.rewritten_dirty ..).trans (State.rewritten_invalDir ..)).trans (State.rewritten_keyPoke ..)) (State.rewritten_homeWrite ..))

theorem State.rewritten_hubWrite (s : State) (a : Nat) (bs : List Byte) : s.Rewritten (s.hubWrite a bs) :=
  ite_keeps (.refl s) (s.rewritten_each _ fun _ _ => State.rewritten_normalWrite ..)

/-! ## Entries of the translation tables -/

/-- A change of what a partition's tables name: in memory, with the lines it takes from the L1D's; of the partitions only the leaves
that an invalidation still has to end (R218), of the rest only the count of free choices. -/
def State.Remapped (s t : State) : Prop :=
  (∃ c m p n, t = { s with cores := c, mem := m, ptn := p, time := { s.time with free := n } }) ∧ s.SameCores t ∧
    ∀ q, t.part q = { s.part q with oldLeaves := (t.part q).oldLeaves }

theorem State.Remapped.refl (s : State) : s.Remapped s := ⟨⟨_, _, _, _, rfl⟩, fun _ => rfl, fun _ => rfl⟩

theorem State.Remapped.trans {s t u : State} (h : s.Remapped t) (k : t.Remapped u) : s.Remapped u := by
  obtain ⟨⟨c, m, p, n, hFirst⟩, hSame, hParts⟩ := h
  obtain ⟨⟨c', m', p', n', hNext⟩, hSame', hParts'⟩ := k
  refine ⟨⟨c', m', p', n', by rw [hNext, hFirst]⟩, hSame.trans hSame', fun q => ?_⟩
  have hLast := hParts' q
  rw [hParts q] at hLast
  exact hLast

theorem State.Rewritten.remapped {s t : State} (h : s.Rewritten t) : s.Remapped t := by
  obtain ⟨⟨c, m, rfl⟩, hSame⟩ := h
  exact ⟨⟨c, m, _, _, rfl⟩, hSame, fun _ => rfl⟩

theorem State.remapped_each {α : Type} (s : State) (l : List α) {f : State → α → State} (h : ∀ (t : State) a, t.Remapped (f t a)) :
    s.Remapped (s.each l f) := State.each_induct l f (fun _ a hu => hu.trans (h _ a)) s (.refl s)

theorem State.remapped_oldLeaves (s : State) (p : Nat) (f : List (Nat × Leaf) → List (Nat × Leaf)) :
    s.Remapped (s.modPart p fun x => { x with oldLeaves := f x.oldLeaves }) := by
  refine ⟨⟨_, _, _, _, rfl⟩, fun _ => rfl, fun q => ?_⟩
  by_cases hq : q = p ∧ p < s.ptn.length
  · obtain ⟨rfl, hLen⟩ := hq
    rw [State.part, State.modPart, nth_upd_same _ _ _ _ hLen]
    rfl
  · have hSame : (s.modPart p fun x => { x with oldLeaves := f x.oldLeaves }).part q = s.part q := by
      by_cases hp : q = p
      · have hNone : s.ptn[p]? = none := List.getElem?_eq_none (Nat.not_lt.1 fun hLen => hq ⟨hp, hLen⟩)
        simp [State.part, State.modPart, nth, hp, upd_getElem?_same, hNone]
      · exact nth_upd_other _ _ _ hp
    rw [hSame]

theorem State.remapped_setEntry (s : State) (part va addr word : Nat) : s.Remapped (s.setEntry part va addr word) := by
  unfold State.setEntry
  split
  · exact .refl s
  · refine State.Remapped.trans ?_ (State.rewritten_hubWrite ..).remapped
    split
    · exact s.remapped_oldLeaves part _
    · exact .refl s

theorem State.remapped_unmapDemote (s : State) (part client : Nat) : s.Remapped (s.unmapDemote part client) :=
  s.remapped_each _ fun t va => t.remapped_setEntry part va 0 0

theorem State.remapped_mapDemotePage (s : State) (part client : Nat) : s.Remapped (s.mapDemotePage part client) := by
  unfold State.mapDemotePage
  dsimp only
  split
  · exact .refl s
  · split
    · exact .refl s
    · exact State.Remapped.trans (t := s.bump) ⟨⟨_, _, _, _, rfl⟩, fun _ => rfl, fun _ => rfl⟩ (State.remapped_setEntry ..)

theorem State.remapped_mapDemote (s : State) (part client n : Nat) : s.Remapped (s.mapDemote part client n) := by
  refine ite_keeps (.refl s) ?_
  induction n generalizing s with
  | zero => exact .refl s
  | succ n ih => exact (s.remapped_mapDemotePage part client).trans (ih _)

end Sys2Proof.Machine
end

section
/-! SUPPORT. What a cancel leaves of the entries: the sequence is closed, or its cancel waits for the running step; no other entry changes
(R296, R322, R405). -/

namespace Sys2Proof.Machine

theorem State.setEst_closing_thm (s : State) (q : Nat) : (s.setEst q .closing).thm = s.thm := by
  obtain ⟨o, m, hWait⟩ := s.dropped_endWait q
  refine ite_keeps (P := fun t : State => t.thm = s.thm) rfl ?_
  show (s.endWait q).thm = s.thm
  rw [hWait]

theorem State.setEst_closing_entries (s : State) (q : Nat) : terase (s.setEst q .closing).ob.entries q = terase s.ob.entries q :=
  ite_keeps (P := fun t : State => terase t.ob.entries q = terase s.ob.entries q) rfl
    ((State.modEntry_erased (s.endWait q) q _).trans (s.endWait_entries q))

theorem State.textOut_thm (s : State) (q : Nat) (old new_ : List Byte) : (s.textOut q old new_).thm = s.thm := by
  unfold State.textOut
  dsimp only
  repeat' split
  all_goals rfl

theorem State.textOut_ob (s : State) (q : Nat) (old new_ : List Byte) : (s.textOut q old new_).ob = s.ob := by
  unfold State.textOut
  dsimp only
  repeat' split
  all_goals rfl

theorem State.freeEntry_thm (s : State) (q : Nat) (c : Bool) : (s.freeEntry q c).thm = s.thm := by
  obtain ⟨o, m, hFreed⟩ := s.dropped_freeEntry q c
  rw [hFreed]

/-- A sequence that ends leaves the Thimble as it was. -/
theorem State.closeWith_thm (s : State) (q state code : Nat) (old : List Byte) (c : Bool) :
    (s.closeWith q state code old c).thm = s.thm := by
  unfold State.closeWith
  split
  · rfl
  · simp only [State.freeEntry_thm, State.hostWrite, State.modHif_thm, State.textOut_thm, State.modEntry_thm, State.setEst_closing_thm]

/-- A live sequence that ends takes its entry, and no other, from the table. -/
theorem State.closeWith_entries {s : State} {q : Nat} (h : (s.entry q).live = true) (state code : Nat) (old : List Byte) (c : Bool) :
    (s.closeWith q state code old c).ob.entries = terase s.ob.entries q := by
  unfold State.closeWith
  rw [if_neg (by simp [h])]
  dsimp only
  simp only [State.freeEntry_entries, State.hostWrite, State.modHif_ob, State.textOut_ob, State.modEntry_erased, State.setEst_closing_entries]

theorem State.cancelSeq_thm (s : State) (q code : Nat) : (s.cancelSeq q code).thm = s.thm :=
  ite_keeps (P := fun t : State => t.thm = s.thm) rfl (ite_keeps (P := fun t : State => t.thm = s.thm) rfl (State.closeWith_thm ..))

/-- What a cancel does to the entries: nothing to one that lives no more, a mark while its step runs, else its end (R322). -/
theorem State.cancelSeq_entries (s : State) (q code : Nat) :
    (s.cancelSeq q code = s ∧ (s.entry q).live = false) ∨
      s.cancelSeq q code = s.modEntry q (fun e => { e with cancelPending := true, endCode := code }) ∨
      (s.cancelSeq q code).ob.entries = terase s.ob.entries q := by
  unfold State.cancelSeq
  cases hLive : (s.entry q).live with
  | false => exact .inl ⟨rfl, rfl⟩
  | true =>
    cases s.inStep q with
    | true => exact .inr (.inl rfl)
    | false => exact .inr (.inr (State.closeWith_entries hLive ..))

theorem State.cancelSeq_other (s : State) {q r : Nat} (code : Nat) (h : r ≠ q) : (s.cancelSeq q code).entry r = s.entry r := by
  rcases s.cancelSeq_entries q code with ⟨hSame, -⟩ | hMarked | hGone
  · rw [hSame]
  · rw [hMarked, State.entry_modEntry_other _ _ h]
  · rw [State.entry, hGone]
    exact tget_terase_other _ _ h

/-- A sequence that lives on after its cancel has the cancel pending. -/
theorem State.cancelSeq_pending {s : State} {q code : Nat} (h : ((s.cancelSeq q code).entry q).live = true) :
    ((s.cancelSeq q code).entry q).cancelPending = true := by
  rcases s.cancelSeq_entries q code with ⟨hSame, hDead⟩ | hMarked | hGone
  · rw [hSame, hDead] at h
    cases h
  · rw [hMarked, State.entry_modEntry]
  · rw [State.entry, hGone, tget_terase_same] at h
    cases h

/-- A live sequence of a client has its cancel pending. -/
def State.Cancels (s : State) (c : BitVec 12) (q : Nat) : Prop :=
  (s.entry q).live = true → (s.entry q).client = c → (s.entry q).cancelPending = true

theorem State.Cancels.cancelSeq {s : State} {c : BitVec 12} {q : Nat} (h : s.Cancels c q) (r code : Nat) :
    (s.cancelSeq r code).Cancels c q := by
  by_cases hq : q = r
  · subst hq
    exact fun hLive _ => State.cancelSeq_pending hLive
  · unfold State.Cancels
    rw [State.cancelSeq_other s code hq]
    exact h

/-- The sequences of a list cancelled, one after another. -/
def State.cancelAll (s : State) (l : List (Nat × Entry)) (code : Nat) : State := s.each l fun t e => t.cancelSeq e.1 code

/-- A sequence whose cancel is pending, if it lives, is so after the walk. -/
theorem State.Cancels.cancelAll {s : State} {c : BitVec 12} {q : Nat} (h : s.Cancels c q) (l : List (Nat × Entry)) (code : Nat) :
    (s.cancelAll l code).Cancels c q :=
  State.each_induct (P := fun t => t.Cancels c q) l (fun t e => t.cancelSeq e.1 code) (fun _ e ht => ht.cancelSeq e.1 code) s h

/-- So is each that the walk reaches. -/
theorem State.cancelAll_cancels {l : List (Nat × Entry)} {q : Nat} {e : Entry} (h : (q, e) ∈ l) (s : State) (c : BitVec 12) (code : Nat) :
    (s.cancelAll l code).Cancels c q :=
  State.each_reaches (P := fun _ => True) (Q := fun t => t.Cancels c q) (f := fun t (e : Nat × Entry) => t.cancelSeq e.1 code) (a := (q, e))
    (fun _ _ _ => .inl trivial) (fun _ x ht => ht.cancelSeq x.1 code) (fun _ _ hLive _ => State.cancelSeq_pending hLive) l h s trivial

theorem State.startRevoke_eq (s : State) (c : BitVec 12) : s.startRevoke c = (s.modThm fun t => { t with
    clients := t.clients.map fun x => if x.id == c then { x with revoking := true } else x }).cancelAll
      (s.ob.entries.filter fun e => e.2.client == c && e.2.live) 0x107 := rfl

/-- A client's revocation begins: nothing of the Thimble changes but that client. -/
theorem State.startRevoke_thm (s : State) (c : BitVec 12) : (s.startRevoke c).thm =
    { s.thm with clients := s.thm.clients.map fun x => if x.id == c then { x with revoking := true } else x } := by
  rw [State.startRevoke_eq]
  exact State.each_keeps State.thm _ (fun (t : State) (e : Nat × Entry) => t.cancelSeq e.1 0x107) (fun t e => t.cancelSeq_thm e.1 0x107)
    (s.modThm _)

/-- What lives on of the client has its cancel pending. -/
theorem State.startRevoke_cancels (s : State) (c : BitVec 12) (q : Nat) : (s.startRevoke c).Cancels c q := by
  rw [State.startRevoke_eq]
  by_cases hConcerned : (s.entry q).live = true ∧ (s.entry q).client = c
  · have hMem : (q, s.entry q) ∈ s.ob.entries.filter fun e => e.2.client == c && e.2.live := by
      refine List.mem_filter.2 ⟨mem_of_tget_ne ({} : Entry) s.ob.entries q fun hNone => ?_, by simp [hConcerned]⟩
      rw [State.entry, hNone] at hConcerned
      exact absurd hConcerned.1 (by decide)
    exact State.cancelAll_cancels hMem _ _ _
  · have hCalm : s.Cancels c q := fun hLive hClient => absurd ⟨hLive, hClient⟩ hConcerned
    exact State.Cancels.cancelAll (s := s.modThm _) hCalm _ _

end Sys2Proof.Machine
end

section
/-! CLAIM. Tenants, their clients and keys, and what a partition sends and admits: the statement O28. -/

namespace Sys2Proof.Machine

/-! ## The codes of the requests -/

theorem State.formedCodes_nil {s : State} {p : Nat} (hp : p < 16) (hFormed : (s.part p).st = .formed) : s.formedCodes p = [] := by
  simp [State.formedCodes, hFormed]
  omega

/-- The codes of IMPORT_KEY (R406). -/
def State.importCodes (s : State) (c : BitVec 12) (w : Role) : List Nat :=
  (if s.policyBit 4 then [] else [5])
    ++ (if s.thm.clients.any (fun x => x.id == c) && s.ownsClient w c then [] else [9])
    ++ (if s.ob.entries.any fun e => e.2.client == c && !e.2.demotedPages.isEmpty then [9] else [])

section Import
variable {s : State} {c : BitVec 12} {w : Role}

theorem State.importCodes_nil {p : Nat} (hPolicy : s.policyBit 4 = true) (hClient : ∃ x ∈ s.thm.clients, x.id = c ∧ x.part = p)
    (hPages : ∀ e ∈ s.ob.entries, e.2.client = c → e.2.demotedPages = []) : s.importCodes c (.tenant p) = [] := by
  obtain ⟨x, hx, hId, hPart⟩ := hClient
  have hKnown : (s.thm.clients.any fun x => x.id == c) = true := List.any_eq_true.2 ⟨x, hx, by simp [hId]⟩
  have hOwns : s.ownsClient (.tenant p) c = true := List.any_eq_true.2 ⟨x, hx, by simp [hId, hPart]⟩
  have hBack : ¬ (s.ob.entries.any fun e => e.2.client == c && !e.2.demotedPages.isEmpty) = true := fun hAny => by
    obtain ⟨e, he, hBoth⟩ := List.any_eq_true.1 hAny
    obtain ⟨hOf, hOut⟩ := Bool.and_eq_true_iff.1 hBoth
    rw [hPages e he (by simpa using hOf)] at hOut
    cases hOut
  rw [State.importCodes, if_pos hPolicy, if_pos (by rw [hKnown, hOwns]; rfl), if_neg hBack]
  rfl

/-- A policy that forbids it answers before the other reasons. -/
theorem State.importCodes_forbidden (h : s.policyBit 4 = false) : lowest (s.importCodes c w) = some 5 := by
  rw [State.importCodes, if_neg (by simp [h])]
  split <;> split <;> rfl

/-- Another's client, and one with pages in LPDDR6, are refused with one code. -/
theorem State.importCodes_barred (hPolicy : s.policyBit 4 = true)
    (h : s.ownsClient w c = false ∨ ∃ e ∈ s.ob.entries, e.2.client = c ∧ e.2.demotedPages ≠ []) :
    lowest (s.importCodes c w) = some 9 := by
  rw [State.importCodes, if_pos hPolicy]
  rcases h with hOther | ⟨e, he, hOf, hOut⟩
  · rw [if_neg (by simp [hOther])]
    split <;> rfl
  · rw [if_pos (c := (s.ob.entries.any fun e => e.2.client == c && !e.2.demotedPages.isEmpty) = true)
      (List.any_eq_true.2 ⟨e, he, by simp [hOf, hOut]⟩)]
    split <;> rfl

/-- A tenant owns no client that is of no partition whose tenant it is. -/
theorem State.ownsClient_false {p : Nat} (h : ∀ x ∈ s.thm.clients, x.id = c → x.part ≠ p) : s.ownsClient (.tenant p) c = false := by
  refine List.any_eq_false.2 fun x hx hBoth => ?_
  obtain ⟨hId, hPart⟩ := Bool.and_eq_true_iff.1 hBoth
  exact h x hx (by simpa using hId) (by simpa using hPart)

theorem isTenant_iff {w : Role} : isTenant w = true ↔ ∃ p, w = .tenant p := by cases w <;> simp [isTenant]

/-- IMPORT_KEY refused with a code that answers every tenant's role of its requester (R406). -/
theorem exec_importKey_refused {r : ThimbleReq} {key : BitVec 512} {p code : Nat} (h : s.Asked r isTenant (.tenant p)) (hCode : code ≠ 0xA)
    (hCodes : ∀ x, s.session r.session = some x → ∀ q, Role.tenant q ∈ s.roles x → lowest (s.importCodes c (.tenant q)) = some code) :
    ∃ u, exec (.importKey r c key) s = .next u ∧ s.Responds u r 0xE code ∧ u.thm.clients = s.thm.clients ∧
      u.thm.nextKey = s.thm.nextKey := by
  obtain ⟨-, -, x, hx, hRole⟩ := id h
  obtain ⟨u, hExec, hResponds, ⟨⟨y, l, n, out, hThm⟩, -⟩, -⟩ := h.refused (c := .importKey r c key) rfl (.inl rfl)
    (fun x id hx w hw hAllowed hNil => by
      obtain ⟨q, rfl⟩ := isTenant_iff.1 hAllowed
      have hLowest : lowest (State.importCodes (s.touchSession id) c (.tenant q)) = some code := hCodes x hx q hw
      rw [show State.importCodes (s.touchSession id) c (.tenant q) = [] from hNil] at hLowest
      cases hLowest)
    (fun id => hCodes x hx p (List.mem_of_find?_eq_some hRole)) hCode
  exact ⟨u, hExec, hResponds, by rw [hThm], by rw [hThm]⟩

end Import

/-- An admission range is the register's fields (R419), whose other bits are zero. -/
theorem admission_zero {v : Dword} (h : v.toNat / 2 ^ 34 % 2 ^ 29 = 0) : bits v 62 34 = 0 :=
  BitVec.eq_of_toNat_eq (by simpa [bits, Nat.shiftRight_eq_div_pow] using h)

/-! ## A client's pages -/

/-- A module without LPDDR6 has no demotion page to map. -/
theorem State.mapDemote_none (h : Config.lpddrGiB = 0) (s : State) (part client n : Nat) : s.mapDemote part client n = s :=
  if_pos (by simp [h])

/-- A client erased: its pages are unmapped and its record is gone. -/
theorem State.eraseClient_leaves (s : State) (c : BitVec 12) :
    (s.eraseClient c).thm = { s.thm with clients := s.thm.clients.filter fun x => x.id != c } ∧ s.SameCores (s.eraseClient c) ∧
      (s.eraseClient c).ob = s.ob := by
  obtain ⟨⟨l, m, p, n, hUnmapped⟩, hSame, -⟩ :=
    s.remapped_each (s.thm.clients.filter fun x => x.id == c) fun t x => t.remapped_unmapDemote x.part c.toNat
  unfold State.eraseClient
  rw [hUnmapped] at hSame ⊢
  exact ⟨rfl, hSame, rfl⟩

/-- Settles O28: each request is done, or refused by its codes, as every request is; a client's pages are mapped and unmapped by changes of
the translation tables, which leave all else, and its sequences are cancelled one by one. -/
theorem tenantsAndClients : Obligations.TenantsAndClients := by
  unfold Obligations.TenantsAndClients
  refine ⟨?bind, ?grant, ?revoke, ?revoked, ?unrevoked, ?importKey, ?refused, ?remote⟩
  case bind =>
    intro r p key s hAsked hp hLen hFormed hFree
    have hCodes : s.formedCodes p ++ (if (s.part p).bound then [9] else []) = [] := by
      rw [State.formedCodes_nil hp hFormed, hFree]
      rfl
    obtain ⟨id, hExec⟩ := hAsked.done (c := .bind r p key) rfl rfl fun _ => hCodes
    exact ⟨_, hExec, rfl, nth_upd_same _ _ _ _ hLen, fun q hq => nth_upd_other _ _ _ hq, rfl, rfl, rfl⟩
  case grant =>
    intro r c p n s hAsked hp hFormed hFits hNew
    have hCodes : s.formedCodes p ++ (if 65535 < n then [3] else []) ++ (if s.thm.clients.any fun x => x.id == c then [9] else []) = [] := by
      rw [State.formedCodes_nil hp hFormed, if_neg (by omega), if_neg (by simpa using hNew)]
      rfl
    obtain ⟨id, hExec⟩ := hAsked.done (c := .grantClient r c p n) rfl rfl fun _ => hCodes
    refine ⟨_, hExec, ?_⟩
    generalize ht : State.modThm _ _ = t
    have hNone : Config.lpddrGiB = 0 → (t.mapDemote p c.toNat n).ptn = t.ptn ∧ (t.mapDemote p c.toNat n).cores = t.cores ∧
        (t.mapDemote p c.toNat n).mem = t.mem := fun h => by
      rw [State.mapDemote_none h]
      exact ⟨rfl, rfl, rfl⟩
    obtain ⟨⟨l, m, ps, k, hMapped⟩, hSame, hParts⟩ := t.remapped_mapDemote p c.toNat n
    generalize t.mapDemote p c.toNat n = u at *
    subst hMapped ht
    exact ⟨rfl, rfl, rfl, hSame, hParts, hNone⟩
  case revoke =>
    intro r c role s hAsked hLive
    have hCodes : (if s.thm.clients.any fun x => x.id == c && !x.revoking then [] else [9]) = ([] : List Nat) := by
      obtain ⟨x, hx, hId, hNot⟩ := hLive
      exact if_pos (List.any_eq_true.2 ⟨x, hx, by simp [hId, hNot]⟩)
    obtain ⟨id, hExec⟩ := hAsked.done (c := .revokeClient r c) rfl rfl fun _ => hCodes
    have hThm := (s.touchSession id).startRevoke_thm c
    have hOut := congrArg ThmSt.out hThm
    have hClients := congrArg ThmSt.clients hThm
    exact ⟨_, hExec, congrArg (_ :: ·) hOut, hClients, (s.touchSession id).startRevoke_cancels c⟩
  case revoked =>
    intro c s hRevoking hClosed
    have hDue : ((s.thm.clients.any fun x => x.id == c && x.revoking) && !(s.ob.entries.any fun e => e.2.client == c && e.2.live)) = true := by
      obtain ⟨x, hx, hId, hSet⟩ := hRevoking
      refine Bool.and_eq_true_iff.2 ⟨List.any_eq_true.2 ⟨x, hx, by simp [hId, hSet]⟩, ?_⟩
      simpa using hClosed
    exact ⟨_, if_pos hDue, s.eraseClient_leaves c⟩
  case unrevoked =>
    intro c s hNotDue
    refine if_neg fun hDue => ?_
    obtain ⟨hRevoking, hClosed⟩ := Bool.and_eq_true_iff.1 hDue
    rcases hNotDue with hNone | ⟨e, he, hOf, hLive⟩
    · obtain ⟨x, hx, hBoth⟩ := List.any_eq_true.1 hRevoking
      obtain ⟨hId, hSet⟩ := Bool.and_eq_true_iff.1 hBoth
      rw [hNone x hx (by simpa using hId)] at hSet
      cases hSet
    · rw [List.any_eq_true.2 ⟨e, he, by simp [hOf, hLive]⟩] at hClosed
      cases hClosed
  case importKey =>
    intro r c key p s hAsked hPolicy hClient hPages
    obtain ⟨id, hExec⟩ := hAsked.done (c := .importKey r c key) rfl rfl fun _ => State.importCodes_nil hPolicy hClient hPages
    exact ⟨_, hExec, rfl, rfl, rfl, rfl, rfl, rfl⟩
  case refused =>
    intro r c key p s hAsked
    refine ⟨fun hPolicy => exec_importKey_refused hAsked (by decide) fun _ _ _ _ => State.importCodes_forbidden hPolicy,
      fun hPolicy hBarred => exec_importKey_refused hAsked (by decide) fun x hx q hq => State.importCodes_barred hPolicy ?_⟩
    refine hBarred.imp_left fun hOther => State.ownsClient_false fun y hy hId hPart => ?_
    subst hPart
    exact hOther y hy hId x hx hq
  case remote =>
    intro r p send admission s hAsked hp hLen hFormed hEight hZero
    have hCodes : s.formedCodes p ++ (if admission.length != 8 || admission.any (fun v => bits v 62 34 != 0) then [3] else []) = [] := by
      have hClear : (admission.any fun v => bits v 62 34 != 0) = false :=
        List.any_eq_false.2 fun v hv => by rw [admission_zero (hZero v hv)]; decide
      rw [State.formedCodes_nil hp hFormed, hEight, hClear]
      rfl
    obtain ⟨id, hExec⟩ := hAsked.done (c := .setRemote r p send admission) rfl rfl fun _ => hCodes
    exact ⟨_, hExec, rfl, nth_upd_same _ _ _ _ hLen, fun q hq => nth_upd_other _ _ _ hq, rfl⟩

end Sys2Proof.Machine
end

section
/-! SUPPORT. What the Thimble ROM and a module reset leave (R551, R552, R560, R561), and the writes of THM_RESET (R553). -/

namespace Sys2Proof.Machine

/-! ## The Thimble ROM (R560, R561) -/

/-- What the Thimble ROM can change, but for a record: how the module boots, in PHASE 0; the layers' secrets; in flash, the boot bank
and the records it puts in front. -/
def State.RomRuns (s t : State) : Prop :=
  ∃ r k c d n l, s.Recorded r ∧
    t = { r with
      boot := k
      thm := { s.thm with
        udsHidden := true, cdi1 := c, cdi2 := d
        flash := { s.thm.flash with bootBank := n, records := l ++ s.thm.flash.records } } } ∧
    k.cause = s.boot.cause ∧ k.phase = 0 ∧ k.hold = false

theorem State.bootRom_runs (s : State) : s.RomRuns s.bootRom := by
  unfold State.bootRom
  dsimp only
  split
  · exact ⟨s, _, _, _, _, [], State.Recorded.rfl' s, rfl, rfl, rfl, rfl⟩
  · split
    · obtain ⟨e, a, p, o, m, g, h⟩ := State.record_changes (State.modFlash _ _) .module .module (unitId 0x0D 0) 0x0C 2 noPart []
      rw [h]
      exact ⟨_, _, _, _, _, [_], ⟨e, a, p, o, m, g, rfl⟩, rfl, rfl, rfl, rfl⟩
    · exact ⟨s, _, _, _, _, [], State.Recorded.rfl' s, rfl, rfl, rfl, rfl⟩

theorem State.bootRom_records (s : State) : ∃ l, s.bootRom.thm.flash.records = l ++ s.thm.flash.records := by
  obtain ⟨r, k, c, d, n, l, -, hRuns, -⟩ := s.bootRom_runs
  exact ⟨l, by rw [hRuns]⟩

/-- The ROM keeps what a module reset leaves. -/
theorem State.ResetTo.bootRom {s t : State} {cause : BitVec 4} (h : s.ResetTo t cause) : s.ResetTo t.bootRom cause := by
  obtain ⟨r, k, c, d, n, l, ⟨e, a, p, o, m, g, rfl⟩, hRuns, hCause, hPhase, hHold⟩ := t.bootRom_runs
  obtain ⟨hWas, -, -, hRest⟩ := h
  rw [hRuns]
  exact ⟨hCause.trans hWas, hPhase, hHold, hRest⟩

/-! ## Module reset (R551, R552) -/

theorem State.afterReset_resets (s : State) (cause : ResetCause) : s.ResetTo (s.afterReset cause) cause.code := by
  simp [State.ResetTo, State.afterReset]

theorem State.moduleReset_resets (s : State) (cause : ResetCause) : s.ResetTo (s.moduleReset cause) cause.code := by
  show s.ResetTo ((s.afterReset cause).when (s.afterReset cause).pwr.inputOk State.bootRom) cause.code
  unfold State.when
  split
  · exact (s.afterReset_resets cause).bootRom
  · exact s.afterReset_resets cause

/-- The records in flash outlast a module reset; the ROM may put its own in front. -/
theorem State.moduleReset_records (s : State) (cause : ResetCause) :
    ∃ l, (s.moduleReset cause).thm.flash.records = l ++ s.thm.flash.records := by
  show ∃ l, ((s.afterReset cause).when (s.afterReset cause).pwr.inputOk State.bootRom).thm.flash.records = _
  unfold State.when
  split
  · exact (s.afterReset cause).bootRom_records
  · exact ⟨[], rfl⟩

/-- What `ResetTo` compares does not depend on the time that a command carries. -/
theorem State.resetTo_at (s u : State) (t : Dword) (cause : BitVec 4) : (s.at_ t).ResetTo u cause ↔ s.ResetTo u cause := by
  simp [State.ResetTo]

/-! ## THM_RESET (R553) -/

section Writes
variable {op : RegOp} {s : State} (hWide : isWide op.agent = true) (hFull : op.part = .full) (t : Dword)
include hWide hFull

theorem exec_thmResetArm (hGo : bit op.value 8 = false) :
    exec (.thmResetArm op t) s = .next ((s.at_ t).modBoot fun b =>
      { b with armedAt := if op.value.toNat % 256 = 0xA5 then some (s.at_ t).time.now else none }) := by
  have hTaken : ¬ (!isWide op.agent || !covers op 8 0 || bit op.value 8) = true := by simp [hWide, covers_full hFull, hGo]
  show execThmResetArm op t s = _
  unfold execThmResetArm
  rw [if_neg hTaken]
  simp [nbits]

/-- GO is taken as armed for 1 ms. -/
theorem exec_thmResetGo (hGo : bit op.value 8 = true) :
    exec (.thmResetGo op t) s =
      if ∃ a, s.boot.armedAt = some a ∧ (s.at_ t).now ≤ a.toNat + 1000000 then .next ((s.at_ t).moduleReset .request)
      else .next ((s.at_ t).refusedWrite (unitId 0x0D 0) noPart (thmRegAddr 0x30) (acctOf op.agent)) := by
  have hTaken : ¬ (!isWide op.agent || !covers op 8 0 || !bit op.value 8) = true := by simp [hWide, covers_full hFull, hGo]
  show execThmResetGo op t s = _
  unfold execThmResetGo
  rw [if_neg hTaken]
  cases hArmed : s.boot.armedAt <;> simp [hArmed]

end Writes

theorem exec_thmResetArmExpiry {s : State} {t a : Dword} (hArmed : s.boot.armedAt = some a) (hDue : a.toNat + 1000000 ≤ (s.at_ t).now) :
    exec (.thmResetArmExpiry t) s = .next ((s.at_ t).modBoot fun b => { b with armedAt := none }) := by
  show execThmResetArmExpiry t s = _
  simp [execThmResetArmExpiry, hArmed, hDue]

/-! ## The watchdog of the Thimble (R554) -/

/-- The state that the watchdog resets: its record stands in flash, with the free source and code that were taken for it. -/
def State.watchdogLogged (s : State) : State :=
  (s.bump.flashRecord .module (unitId 0x0D 0) (s.pick 0x11 + 1) (s.bump.pick 6 + 1)).bump

theorem State.watchdogLogged_records (s : State) : s.watchdogLogged.thm.flash.records =
    (RecCls.module.code, s.pick 0x11 + 1, s.bump.pick 6 + 1, unitId 0x0D 0) :: s.thm.flash.records := rfl

/-- What `ResetTo` compares is the same before the record as after it. -/
theorem State.resetTo_watchdogLogged (s u : State) (cause : BitVec 4) : s.watchdogLogged.ResetTo u cause ↔ s.ResetTo u cause := Iff.rfl

theorem exec_thimbleWatchdogExpiry {s : State} {since : Nat} (hPowered : s.boot.powered = true) (hSince : 2000000 ≤ since) :
    exec (.thimbleWatchdogExpiry since) s = .next (s.watchdogLogged.moduleReset .watchdog) :=
  if_neg (by simpa [hPowered] using hSince)

/-- Settles O5: the write that finds GO armed and the watchdog both end in a module reset, whose ROM keeps what it left; the other writes
change GO alone or are refused. -/
theorem moduleResetRequests : Obligations.ModuleResetRequests := by
  unfold Obligations.ModuleResetRequests
  refine ⟨?arm, ?go, ?unarmed, ?expiry, ?watchdog⟩
  case arm => exact fun op t s hWide hFull hGo => exec_thmResetArm hWide hFull t hGo
  case go =>
    intro op t a s hWide hFull hGo hArmed hSoon
    refine ⟨_, (exec_thmResetGo hWide hFull t hGo).trans (if_pos ⟨a, hArmed, hSoon⟩), ?_⟩
    exact (s.resetTo_at _ t _).1 ((s.at_ t).moduleReset_resets .request)
  case unarmed =>
    intro op t s hWide hFull hGo hLate
    have hNot : ¬ ∃ a, s.boot.armedAt = some a ∧ (s.at_ t).now ≤ a.toNat + 1000000 := by
      rintro ⟨a, hArmed, hSoon⟩
      exact absurd (hLate a hArmed) (Nat.not_lt.2 hSoon)
    exact ⟨_, (exec_thmResetGo hWide hFull t hGo).trans (if_neg hNot), State.refusedWrite_absorbs ..⟩
  case expiry => exact fun t a s hArmed hDue => exec_thmResetArmExpiry hArmed hDue
  case watchdog =>
    intro since s hPowered hSince
    obtain ⟨l, hRecords⟩ := s.watchdogLogged.moduleReset_records .watchdog
    rw [s.watchdogLogged_records] at hRecords
    exact ⟨_, _, l, exec_thimbleWatchdogExpiry hPowered hSince,
      (s.resetTo_watchdogLogged _ _).1 (s.watchdogLogged.moduleReset_resets .watchdog), hRecords, rfl, rfl⟩

end Sys2Proof.Machine
end

section
/-! SUPPORT. The release of module reset (R555), and what the instructions of the test access port do to the pins and to the reset that it
holds (R566, R567). -/

namespace Sys2Proof.Machine

/-! ## The release of module reset (R482, R555) -/

/-- Nothing is released while PERST# is asserted, once the module has left PHASE 0, or while the test access port holds it. -/
theorem State.release_held {s : State} (h : s.boot.perst = true ∨ s.boot.phase ≠ 0 ∨ s.tap.holds = true) : s.release = s := by
  refine if_neg ?_
  rcases h with h | h | h <;> simp [h]

/-- The release starts global time at 0 and PHASE 1, and leaves the test access port. -/
theorem State.release_starts {s : State} (hPhase : s.boot.phase = 0) (hHold : s.boot.hold = true) (hPerst : s.boot.perst = false)
    (hFree : s.tap.holds = false) (hRecovery : s.boot.recovery = false) :
    s.release.tap = s.tap ∧ s.release.time.running = true ∧ s.release.time.now = 0 ∧ s.release.boot.phase = 1 := by
  have hDue : (s.boot.phase == 0 && s.boot.hold && !s.boot.perst && !s.tap.holds && !s.boot.recovery) = true := by
    simp [hPhase, hHold, hPerst, hFree, hRecovery]
  unfold State.release
  rw [if_pos hDue]
  simp [State.enterPhase]

/-! ## The instructions (R566, R567) -/

/-- In reset under PERST#, or once the module has left it, an instruction that does not drive changes the port alone. -/
theorem State.tapPlain_held {s : State} (h : s.boot.perst = true ∨ s.boot.phase ≠ 0) (ir : TapIr) (tdo : Word) :
    s.tapPlain ir tdo = { s with tap := { s.tap with ir := ir, driving := false, holds := false, tdo := tdo } } :=
  State.release_held (h.imp_right .inl)

/-- An instruction that does not drive ends the reset that the port held. -/
theorem State.tapPlain_releases {s : State} (hPerst : s.boot.perst = false) (hPhase : s.boot.phase = 0) (hHold : s.boot.hold = true)
    (hRecovery : s.boot.recovery = false) (ir : TapIr) (tdo : Word) :
    (s.tapPlain ir tdo).tap.holds = false ∧ (s.tapPlain ir tdo).time.running = true ∧ (s.tapPlain ir tdo).time.now = 0 ∧
      (s.tapPlain ir tdo).boot.phase = 1 := by
  obtain ⟨hTap, hStarted⟩ := State.release_starts
    (s := { s with tap := { s.tap with ir := ir, driving := false, holds := false, tdo := tdo } }) hPhase hHold hPerst rfl hRecovery
  exact ⟨congrArg TapSt.holds hTap, hStarted⟩

theorem State.tapDrive_reset {s : State} (h : s.boot.perst = true) (ir : TapIr) :
    s.tapDrive ir = { s with tap := { s.tap with ir := ir, driving := true } } := if_pos h

/-- Loaded once the module runs, an instruction that drives is BYPASS with an absorbed record. -/
theorem State.tapDrive_late {s : State} (hPerst : s.boot.perst = false) (hPhase : s.boot.phase ≠ 0) (ir : TapIr) :
    (s.tapDrive ir).tap = { s.tap with ir := .bypass, driving := false, holds := false, tdo := 0 } ∧
      s.RecordIn (s.tapDrive ir) .absorbed := by
  unfold State.tapDrive
  rw [if_neg (by simp [hPerst]), State.tapPlain_held (s := s.bump) (.inr hPhase)]
  exact ⟨State.record_tap .., (State.record_absorbs ..).2⟩

theorem exec_bypass_plain {s : State} (h : s.tap.scanCode = true → s.thm.otp.debug ≠ 0) :
    exec .bypass s = .next (s.tapPlain .bypass 0) := by
  refine congrArg Host.Outcome.next (if_neg ?_)
  simpa using h

theorem exec_bypass_scan {s : State} (hDebug : s.thm.otp.debug = 0) (hScan : s.tap.scanCode = true) :
    exec .bypass s = .next (s.bump.tapPlain .internalScan ((Config.freeDword s.time.free).setWidth 32)) := by
  refine congrArg Host.Outcome.next (if_pos ?_)
  simp [hDebug, hScan]

/-- Settles O4: an instruction that does not drive lets go of the pins and may release the module; one that drives does so under PERST#
alone, and the release of PERST# meanwhile is kept back. -/
theorem testPortInstructions : Obligations.TestPortInstructions := by
  unfold Obligations.TestPortInstructions
  refine ⟨?reset, ?late, ?held, ?left⟩
  case reset =>
    intro s hPerst
    have hPlain (ir : TapIr) (tdo : Word) := congrArg (Host.Outcome.next : State → Out) (s.tapPlain_held (.inl hPerst) ir tdo)
    have hDrive (ir : TapIr) := congrArg (Host.Outcome.next : State → Out) (State.tapDrive_reset hPerst ir)
    refine ⟨fun hClosed => (exec_bypass_plain hClosed).trans (hPlain ..), fun hDebug hScan => ?_, hPlain .., fun pins => ?_, hPlain ..,
      hDrive .extest, hDrive .clamp, hDrive .highz⟩
    · refine ⟨_, exec_bypass_scan hDebug hScan, ?_⟩
      rw [State.tapPlain_held (s := s.bump) (.inl hPerst)]
      rfl
    · exact congrArg Host.Outcome.next
        (State.tapPlain_held (s := { s with tap := { s.tap with boundary := pins } }) (.inl hPerst) .sample (pins.setWidth 32))
  case late =>
    intro s hPerst hPhase c hc
    have hLate := State.tapDrive_late hPerst hPhase
    simp only [List.mem_cons, List.not_mem_nil, or_false] at hc
    rcases hc with rfl | rfl | rfl
    · exact ⟨_, rfl, hLate .extest⟩
    · exact ⟨_, rfl, hLate .clamp⟩
    · exact ⟨_, rfl, hLate .highz⟩
  case held =>
    intro s hPerst hDriving
    refine ⟨_, if_neg (by simp [hPerst]), ?_⟩
    rw [State.release_held (.inr (.inr (by simp [hDriving])))]
    simp [hDriving]
  case left =>
    intro s hHolds hPerst hPhase hHold hRecovery c hc
    have hReleases (x : State) (hBoot : x.boot = s.boot) := State.tapPlain_releases (s := x) (hBoot ▸ hPerst) (hBoot ▸ hPhase)
      (hBoot ▸ hHold) (hBoot ▸ hRecovery)
    simp only [List.mem_cons, List.not_mem_nil, or_false] at hc
    rcases hc with rfl | rfl | rfl
    · by_cases hOpen : s.thm.otp.debug = 0 ∧ s.tap.scanCode = true
      · exact ⟨_, exec_bypass_scan hOpen.1 hOpen.2, hReleases s.bump rfl ..⟩
      · exact ⟨_, exec_bypass_plain fun hScan hDebug => hOpen ⟨hDebug, hScan⟩, hReleases s rfl ..⟩
    · exact ⟨_, rfl, hReleases s rfl ..⟩
    · exact ⟨_, rfl, hReleases s rfl ..⟩

end Sys2Proof.Machine
end
